-- ==== Sys2Proof/Word.lean ====
section
/-! DEFINITION. The word types of the Vrelub VR3 (spec/00_scope.md R8: bit 0 is the least significant bit). -/

namespace Sys2Proof

/-- A byte of memory. -/
abbrev Byte := BitVec 8
/-- A 32-bit parcel of the instruction stream (R64). -/
abbrev Parcel := BitVec 32
/-- A general-purpose register, a pointer or an offset (R99, R107). -/
abbrev Word := BitVec 64
/-- A logical vector register (R142). -/
abbrev VReg := BitVec 512
/-- A segment descriptor (R108). -/
abbrev DescBits := BitVec 128

end Sys2Proof
end

