-- ==== Sys2Proof/Machine/Tab.lean ====
section
/-! DEFINITION. Sparse tables: a list of (key, value) pairs, keys strictly rising, no entry equal to what an unlisted
key reads as. Memory, register files and accumulator slots are tables, so that equal contents are equal data. -/

namespace Sys2Proof

/-- A sparse table in list form. -/
abbrev Tab (α : Type) := List (Nat × α)

namespace Machine

/-- What key `k` reads as; `d` is what an unlisted key reads as. -/
def tget {α : Type} (d : α) : Tab α → Nat → α
  | [], _ => d
  | (j, v) :: t, k => if j = k then v else tget d t k

/-- The table with `k` removed. -/
def tdel {α : Type} (t : Tab α) (k : Nat) : Tab α := t.filter (fun e => e.1 ≠ k)

/-- The table with `k` bound to `v`, keeping the keys rising. -/
def tins {α : Type} : Tab α → Nat → α → Tab α
  | [], k, v => [(k, v)]
  | (j, w) :: t, k, v => if j = k then (k, v) :: t else if k < j then (k, v) :: (j, w) :: t else (j, w) :: tins t k v

/-- Writing the value an unlisted key reads as removes the entry. -/
def tset {α : Type} [DecidableEq α] (d : α) (t : Tab α) (k : Nat) (v : α) : Tab α :=
  if v = d then tdel t k else tins t k v

/-- Keys strictly rise from `lo` on and no entry is the default. -/
def twfFrom {α : Type} [DecidableEq α] (d : α) (lo : Nat) : Tab α → Bool
  | [] => true
  | (j, v) :: t => decide (lo ≤ j) && decide (v ≠ d) && twfFrom d (j + 1) t

/-- The canonical form of a table. -/
def twf {α : Type} [DecidableEq α] (d : α) (t : Tab α) : Bool := twfFrom d 0 t

/-- Applies `f` to the value at `k`. -/
def tmod {α : Type} [DecidableEq α] (d : α) (t : Tab α) (k : Nat) (f : α → α) : Tab α := tset d t k (f (tget d t k))

/-- Looks a key up in a table whose unlisted keys are absent. -/
def tfind {α : Type} : Tab α → Nat → Option α
  | [], _ => none
  | (j, v) :: t, k => if j = k then some v else tfind t k

/-- The list with position `n` replaced by `f` of it (lists of numbered units). -/
def lmod {α : Type} (f : α → α) : List α → Nat → List α
  | [], _ => []
  | a :: t, 0 => f a :: t
  | a :: t, n + 1 => a :: lmod f t n

/-- The first element that passes a test is replaced by `f` of it. -/
def lmodWhere {α : Type} (p : α → Bool) (f : α → α) : List α → List α
  | [] => []
  | a :: t => if p a then f a :: t else a :: lmodWhere p f t

/-- A left fold over 0 … n - 1, by structural recursion on n. -/
def forUpTo {β : Type} (n : Nat) (b : β) (f : Nat → β → β) : β :=
  match n with
  | 0 => b
  | k + 1 => f k (forUpTo k b f)

/-- The list [f 0, …, f (n - 1)]. -/
def tabulate {α : Type} (n : Nat) (f : Nat → α) : List α := go n []
where
  go : Nat → List α → List α
    | 0, acc => acc
    | k + 1, acc => go k (f k :: acc)

/-- Ascending insertion sort of naturals by a key, stable. -/
def sortBy {α : Type} (le : α → α → Bool) : List α → List α
  | [] => []
  | a :: t => ins a (sortBy le t)
where
  ins (a : α) : List α → List α
    | [] => [a]
    | b :: t => if le a b then a :: b :: t else b :: ins a t

end Machine

end Sys2Proof
end

