-- ==== Sys2Proof/Machine/Bits.lean ====
section
/-! DEFINITION. Bit fields, sign extension and byte order (spec/00_scope.md R8, R14). -/

namespace Sys2Proof.Machine

/-- v[hi:lo] of R14, as a number. -/
def fld (v hi lo : Nat) : Nat := (v >>> lo) % 2 ^ (hi + 1 - lo)

/-- v[n] as a Bool. -/
def bit (v n : Nat) : Bool := (v >>> n) % 2 = 1

/-- 1 or 0. -/
def b2n (b : Bool) : Nat := if b then 1 else 0

/-- The signed value of the low w bits of v. -/
def sint (w v : Nat) : Int :=
  let u := v % 2 ^ w
  if u < 2 ^ (w - 1) then (u : Int) else (u : Int) - (2 ^ w : Nat)

/-- SignExtend(v, w) of R14, to a 64-bit word. -/
def sext (w v : Nat) : Word := BitVec.ofInt 64 (sint w v)

/-- The low w bits of an integer (two's complement), as a number. -/
def ulow (w : Nat) (i : Int) : Nat := (i % ((2 ^ w : Nat) : Int)).toNat

/-- Little-endian value of a byte list (R8). -/
def leNat : List Byte → Nat
  | [] => 0
  | b :: t => b.toNat + 256 * leNat t

/-- The n little-endian bytes of a number. -/
def leBytes : Nat → Nat → List Byte
  | 0, _ => []
  | n + 1, v => BitVec.ofNat 8 v :: leBytes n (v >>> 8)

/-- Replaces bits [lo + w - 1 : lo] of v by the low w bits of x. -/
def putFld (v lo w x : Nat) : Nat :=
  v - (fld v (lo + w - 1) lo) <<< lo + (x % 2 ^ w) <<< lo

/-- Number of one bits among the low n bits. -/
def popcount : Nat → Nat → Nat
  | 0, _ => 0
  | n + 1, v => v % 2 + popcount n (v / 2)

/-- Lane i of width w of a register or register group (R142). -/
def lane (w i v : Nat) : Nat := (v >>> (w * i)) % 2 ^ w

/-- A register built from its lanes, lane 0 lowest. -/
def ofLanes (w : Nat) : List Nat → Nat
  | [] => 0
  | x :: t => x % 2 ^ w + 2 ^ w * ofLanes w t

/-- The n lanes of width w of v, lane 0 first. -/
def lanes (w n v : Nat) : List Nat := tabulate n (fun i => lane w i v)

/-- floor(log2 n) for n > 0, and 0 for 0. -/
def log2 (n : Nat) : Nat := Nat.log2 n

/-- Integer square root by bitwise descent from bit k. -/
def isqrtFrom (n : Nat) : Nat → Nat → Nat
  | 0, r => r
  | k + 1, r => let c := r + 2 ^ k; isqrtFrom n k (if c * c ≤ n then c else r)

/-- The largest r with r * r ≤ n. -/
def isqrt (n : Nat) : Nat := isqrtFrom n (log2 n / 2 + 1) 0

end Sys2Proof.Machine
end

