-- ==== Sys2Proof/Machine/Num.lean ====
section
/-! DEFINITION. Number formats, exact values and the one rounding (spec/01_number_formats.md R16 to R37,
spec/02_arithmetic_and_rounding.md R38 to R46). -/

namespace Sys2Proof.Machine

/-- What the all-ones exponent field encodes (R18). -/
inductive TopExp where
  /-- infinity when the fraction is zero, NaN otherwise -/
  | ieee
  /-- normal values, but an all-ones fraction is NaN (E4M3) -/
  | oneNan
  /-- normal values throughout -/
  | normal
  deriving DecidableEq, Repr

/-- A format that a value crosses into or out of. -/
inductive NumTy where
  /-- i8 … i64 and n8 … n64 (R16) -/
  | int (signed : Bool) (w : Nat)
  /-- a floating-point format: exponent bits, fraction bits, bias (R17, R18) -/
  | flt (e m bias : Nat) (top : TopExp)
  /-- E8M0 (R22) -/
  | e8m0
  /-- an MXINT8 element (R24) -/
  | mxint8
  deriving DecidableEq, Repr

/-- An exact real, with the sign that a zero carries: ±(mag + θ) × 2^exp, where θ is 0 when `sticky` is false and lies
strictly between 0 and 1 when it is true. -/
inductive Exact where
  | nan
  | inf (neg : Bool)
  | fin (neg : Bool) (mag : Nat) (exp : Int) (sticky : Bool)
  deriving DecidableEq, Repr

/-- The condition bits of `vxflags` (R106). -/
def fNX : Nat := 1
def fUF : Nat := 2
def fOF : Nat := 4
def fDZ : Nat := 8
def fNV : Nat := 16

/-- FP64, FP32, BF16, FP16 and the element formats (R18). -/
def fp64 : NumTy := .flt 11 52 1023 .ieee
def fp32 : NumTy := .flt 8 23 127 .ieee
def bf16 : NumTy := .flt 8 7 127 .ieee
def fp16 : NumTy := .flt 5 10 15 .ieee
def e5m2 : NumTy := .flt 5 2 15 .ieee
def e4m3 : NumTy := .flt 4 3 7 .oneNan
def e3m2 : NumTy := .flt 3 2 3 .normal
def e2m3 : NumTy := .flt 2 3 1 .normal
def e2m1 : NumTy := .flt 2 1 1 .normal

/-- The element type of a TY code (R80). -/
def tyNum (t : Nat) : NumTy :=
  match t with
  | 8 => fp16
  | 9 => bf16
  | 10 => fp32
  | 11 => fp64
  | _ => .int (t < 4) (8 <<< (t % 4))

/-- The narrow format of a VCVT code (R82), which is also the copy engine's (R280). -/
def narrowNum (k : Nat) : NumTy :=
  match k with
  | 1 => e4m3
  | 2 => e5m2
  | 3 => e3m2
  | 4 => e2m3
  | 5 => e2m1
  | _ => .e8m0

/-- The element format of an MX format code (R81). -/
def mxNum (k : Nat) : NumTy :=
  match k with
  | 0 => e4m3
  | 1 => e5m2
  | 2 => e3m2
  | 3 => e2m3
  | 4 => e2m1
  | _ => .mxint8

/-- Bits of a code (R18, R22, R24). -/
def numBits : NumTy → Nat
  | .int _ w => w
  | .flt e m _ _ => e + m + 1
  | .e8m0 => 8
  | .mxint8 => 8

/-- Floating-point formats. -/
def isFlt : NumTy → Bool
  | .flt _ _ _ _ => true
  | _ => false

/-- Integer types. -/
def isInt : NumTy → Bool
  | .int _ _ => true
  | _ => false

/-- An exact integer times a power of two. -/
def exInt (i : Int) (e : Int) : Exact := .fin (i < 0) i.natAbs e false

/-- Plus zero, one and minus one. -/
def exZero : Exact := .fin false 0 0 false
def exOne : Exact := .fin false 1 0 false
def exNegOne : Exact := .fin true 1 0 false

/-- The value of a code (R16, R17, R19, R22, R24). -/
def valueOf (t : NumTy) (code : Nat) : Exact :=
  match t with
  | .int s w => if s then exInt (sint w code) 0 else .fin false (code % 2 ^ w) 0 false
  | .e8m0 => if code % 256 = 255 then .nan else .fin false 1 ((code % 256 : Nat) - 127) false
  | .mxint8 => exInt (sint 8 code) (-6)
  | .flt e m b top =>
    let neg := bit code (e + m)
    let ef := fld code (e + m - 1) m
    let mf := code % 2 ^ m
    if top = .ieee ∧ ef = 2 ^ e - 1 then (if mf = 0 then .inf neg else .nan)
    else if top = .oneNan ∧ ef = 2 ^ e - 1 ∧ mf = 2 ^ m - 1 then .nan
    else if ef = 0 then .fin neg mf (1 - (b : Int) - m) false
    else .fin neg (2 ^ m + mf) ((ef : Int) - b - m) false

/-- The code of the largest finite magnitude (R18). -/
def maxCode (e m : Nat) (top : TopExp) : Nat :=
  match top with
  | .ieee => 2 ^ (e + m) - 2 ^ m - 1
  | .oneNan => 2 ^ (e + m) - 2
  | .normal => 2 ^ (e + m) - 1

/-- The canonical NaN of a floating-point format that has one (R18). -/
def canonNan (e m : Nat) (top : TopExp) : Nat :=
  match top with
  | .ieee => 2 ^ (e + m) - 2 ^ (m - 1)
  | _ => 2 ^ (e + m) - 1

/-- Whether the magnitude goes to the upper neighbour: the exact magnitude lies `rem / 2^s` (and a sticky rest) above the
lower one; `odd` is bit 0 of the lower neighbour's encoding (R38, R40). Called only when the rest is not zero. -/
def roundsUp (mode draw : Nat) (neg odd : Bool) (rem s : Nat) (st : Bool) : Bool :=
  match mode with
  | 0 => decide (2 ^ s < 2 * rem) || (decide (2 * rem = 2 ^ s) && (st || odd))
  | 1 => false
  | 2 => neg
  | 3 => !neg
  | 4 => !odd
  | _ =>
    let t := (rem <<< 32) >>> s
    let whole := !st && decide (t <<< s = rem <<< 32)
    if neg then decide (2 ^ 32 - (if whole then t else t + 1) ≤ draw) else decide (draw < t)

/-- Rounds ±(mag + θ) × 2^exp to a multiple of 2^q: the multiple, and whether it is inexact (R38). -/
def roundAt (mode draw : Nat) (neg : Bool) (mag : Nat) (exp : Int) (st : Bool) (q : Int) : Nat × Bool :=
  let s := (q - exp).toNat
  let lo := if exp ≤ q then mag >>> s else mag <<< (exp - q).toNat
  let rem := if exp ≤ q then mag % 2 ^ s else 0
  if rem = 0 ∧ st = false then (lo, false)
  else (if roundsUp mode draw neg (lo % 2 = 1) rem s st then lo + 1 else lo, true)

/-- floor(log2) of a nonzero magnitude. -/
def magLog (mag : Nat) (exp : Int) : Int := (log2 mag : Int) + exp

/-- The result of a finite value that overflows a floating-point format (R32, R33). R33's table has no row for FP64, which VFROMBSI and a
scaled VCVT can overflow too: it is treated as the other IEEE formats (assumption 103). -/
def overflowCode (e m : Nat) (top : TopExp) (mode : Nat) (sat neg : Bool) : Nat :=
  let sg := b2n neg <<< (e + m)
  if sat || top = .normal then sg + maxCode e m top
  else if top = .oneNan then sg + canonNan e m top
  else if mode = 0 || mode = 5 || (mode = 3 && !neg) || (mode = 2 && neg) then sg + (2 ^ e - 1) <<< m
  else sg + maxCode e m top

/-- Rounds a finite value to a floating-point format (R31, R38): the code and the conditions of R36. -/
def roundFlt (e m b : Nat) (top : TopExp) (mode draw : Nat) (sat neg : Bool) (mag : Nat) (exp : Int) (st : Bool) : Nat × Nat :=
  let sg := b2n neg <<< (e + m)
  if mag = 0 then (sg, 0)
  else
    let emin : Int := 1 - b
    let k := magLog mag exp
    let q := max k emin - m
    let (n, ix) := roundAt mode draw neg mag exp st q
    let code := (q - (emin - m)).toNat <<< m + n
    let fl := if ix then (if k < emin then fNX ||| fUF else fNX) else 0
    if maxCode e m top < code then (overflowCode e m top mode sat neg, fl ||| fOF ||| fNX) else (sg + code, fl)

/-- Into a floating-point format. `keepInf` is set for arithmetic results and widening conversions, which keep an
infinity (R30, R45); otherwise R32 and R33 apply. -/
def toFlt (e m b : Nat) (top : TopExp) (mode draw : Nat) (sat keepInf : Bool) (v : Exact) : Nat × Nat :=
  match v with
  | .nan => if top = .normal then (maxCode e m top, fNV ||| fNX) else (canonNan e m top, 0)
  | .inf neg =>
    let sg := b2n neg <<< (e + m)
    if keepInf && top = .ieee then (sg + (2 ^ e - 1) <<< m, 0)
    else if sat || top = .normal then (sg + maxCode e m top, fOF ||| fNX)
    else if top = .ieee then (sg + (2 ^ e - 1) <<< m, 0)
    else (sg + canonNan e m top, fNX)
  | .fin neg mag exp st => roundFlt e m b top mode draw sat neg mag exp st

/-- Into an integer type of width w (R35). -/
def toInt (s : Bool) (w : Nat) (mode draw : Nat) (sat : Bool) (v : Exact) : Nat × Nat :=
  let lo : Int := if s then -(2 ^ (w - 1) : Nat) else 0
  let hi : Int := if s then (2 ^ (w - 1) : Nat) - 1 else (2 ^ w : Nat) - 1
  match v with
  | .nan => (0, fNV ||| fNX)
  | .inf neg => (ulow w (if neg then lo else hi), fOF ||| fNX)
  | .fin neg mag exp st =>
    let (n, ix) := if mag = 0 then (0, false) else roundAt mode draw neg mag exp st 0
    let i : Int := if neg then -(n : Int) else n
    let fl := if ix then fNX else 0
    if i < lo then (ulow w (if sat then lo else i), fl ||| fOF ||| fNX)
    else if hi < i then (ulow w (if sat then hi else i), fl ||| fOF ||| fNX)
    else (ulow w i, fl)

/-- Into E8M0 (R34). A sign is ignored, so a negative power of two is exact (assumption 10); a nonzero magnitude below 2^-127 raises
underflow, and a finite one that rounds above 2^127 raises overflow with inexact, which the spec does not say (assumption 82). -/
def toE8m0 (mode draw : Nat) (sat : Bool) (v : Exact) : Nat × Nat :=
  match v with
  | .nan => (255, 0)
  | .inf _ => if sat then (254, fOF ||| fNX) else (255, fNX)
  | .fin _ mag exp st =>
    if mag = 0 then (0, fNX)
    else
      let k := magLog mag exp
      if k < -127 then (0, fNX ||| fUF)
      else
        let s := log2 mag
        let rem := mag % 2 ^ s
        let c := (k + 127).toNat
        let ix := !(rem = 0 && !st)
        let up := ix && roundsUp mode draw false (c % 2 = 1) rem s st
        let c := if up then c + 1 else c
        if 254 < c then (if sat then 254 else 255, fOF ||| fNX) else (c, if ix then fNX else 0)

/-- Multiplies by 2^k, exactly. -/
def exScale (v : Exact) (k : Int) : Exact :=
  match v with
  | .fin neg mag exp st => .fin neg mag (exp + k) st
  | v => v

/-- Convert(x, target, mode, SAT): R30 to R36. -/
def convertTo (t : NumTy) (mode draw : Nat) (sat keepInf : Bool) (v : Exact) : Nat × Nat :=
  match t with
  | .int s w => toInt s w mode draw sat v
  | .flt e m b top => toFlt e m b top mode draw sat keepInf v
  | .e8m0 => toE8m0 mode draw sat v
  | .mxint8 => toInt true 8 mode draw sat (exScale v 6)

/-- The widening conversions of R30. -/
def widens (src dst : NumTy) : Bool :=
  src = dst ||
  (match src, dst with
   | .int ss ws, .int sd wd => ws < wd && (ss = sd || (!ss && sd))
   | .int _ ws, .flt _ m _ _ => (ws = 8 && 7 ≤ m) || (ws = 16 && 23 ≤ m) || (ws = 32 && m = 52)
   | .mxint8, .flt _ m _ _ => 7 ≤ m
   | .e8m0, .flt e _ _ _ => 8 ≤ e
   | .flt e m _ _, .flt e' m' _ _ => if m ≤ 3 then 7 ≤ m' else e ≤ e' && m < m' && 23 ≤ m'
   | _, _ => false)

/-- A then N of R77 step 1, on an exact value. -/
def exModify (n a : Bool) (v : Exact) : Exact :=
  match v with
  | .nan => .nan
  | .inf neg => .inf ((neg && !a) != n)
  | .fin neg mag exp st => .fin ((neg && !a) != n) mag exp st

/-- Whether the magnitude exceeds 1. -/
def magAboveOne (mag : Nat) (exp : Int) (st : Bool) : Bool :=
  if 0 < exp then decide (0 < mag) else decide (2 ^ (-exp).toNat < mag) || (decide (mag = 2 ^ (-exp).toNat) && st)

/-- Whether an exact value is a zero. -/
def isZero : Exact → Bool
  | .fin _ mag _ st => mag = 0 && !st
  | _ => false

/-- CLP of R77 step 4. -/
def exClamp (clp : Nat) (v : Exact) : Exact :=
  match v with
  | .nan => .nan
  | .inf neg =>
    match clp with
    | 0 => v
    | 1 => if neg then exZero else v
    | 2 => if neg then exZero else exOne
    | _ => if neg then exNegOne else exOne
  | .fin neg mag exp st =>
    match clp with
    | 0 => v
    | 1 => if neg then exZero else v
    | 2 => if neg && !isZero v then exZero else if magAboveOne mag exp st then exOne else v
    | _ => if magAboveOne mag exp st then (if neg then exNegOne else exOne) else v

/-- The magnitude times 2^k as an integer, signed: for exact operands, with k at least -exp. -/
def alignTo (e : Int) (neg : Bool) (mag : Nat) (exp : Int) : Int :=
  let m : Int := (mag <<< (exp - e).toNat : Nat)
  if neg then -m else m

/-- The exact sum of exact operands (R45); `rdn` gives the sign of an exact zero. Zeros of one sign keep it, (+0) + (+0)
under RDN too, as IEEE 754 has it (assumption 113). -/
def exAdd (rdn : Bool) (a b : Exact) : Exact × Nat :=
  match a, b with
  | .nan, _ => (.nan, 0)
  | _, .nan => (.nan, 0)
  | .inf x, .inf y => if x = y then (.inf x, 0) else (.nan, fNV)
  | .inf x, _ => (.inf x, 0)
  | _, .inf y => (.inf y, 0)
  | .fin na ma ea _, .fin nb mb eb _ =>
    if ma = 0 ∧ mb = 0 then (.fin (if na = nb then na else rdn) 0 0 false, 0)
    else
      let e := min ea eb
      let s := alignTo e na ma ea + alignTo e nb mb eb
      if s = 0 then (.fin rdn 0 0 false, 0) else (exInt s e, 0)

/-- The exact product of exact operands (R45, R47). -/
def exMul (a b : Exact) : Exact × Nat :=
  match a, b with
  | .nan, _ => (.nan, 0)
  | _, .nan => (.nan, 0)
  | .inf x, .inf y => (.inf (x != y), 0)
  | .inf x, .fin y m _ _ => if m = 0 then (.nan, fNV) else (.inf (x != y), 0)
  | .fin y m _ _, .inf x => if m = 0 then (.nan, fNV) else (.inf (x != y), 0)
  | .fin na ma ea _, .fin nb mb eb _ => (.fin (na != nb) (ma * mb) (ea + eb) false, 0)

/-- a × b + c, the product never rounded (R45); an infinity times a zero is invalid whatever the addend (R47). -/
def exFma (rdn : Bool) (a b c : Exact) : Exact × Nat :=
  let (p, f) := exMul a b
  let (s, g) := exAdd rdn p c
  (s, f ||| g)

/-- The quotient of exact operands to at least 96 bits, with a sticky rest (R45, R47). -/
def exDiv (a b : Exact) : Exact × Nat :=
  match a, b with
  | .nan, _ => (.nan, 0)
  | _, .nan => (.nan, 0)
  | .inf _, .inf _ => (.nan, fNV)
  | .inf x, .fin y _ _ _ => (.inf (x != y), 0)
  | .fin x _ _ _, .inf y => (.fin (x != y) 0 0 false, 0)
  | .fin na ma ea _, .fin nb mb eb _ =>
    if mb = 0 then (if ma = 0 then (.nan, fNV) else (.inf (na != nb), fDZ))
    else if ma = 0 then (.fin (na != nb) 0 0 false, 0)
    else
      let s := 98 + log2 mb - log2 ma
      (.fin (na != nb) ((ma <<< s) / mb) (ea - eb - s) (decide ((ma <<< s) % mb ≠ 0)), 0)

/-- The square root to at least 96 bits, with a sticky rest (R45, R47, R151). -/
def exSqrt (a : Exact) : Exact × Nat :=
  match a with
  | .nan => (.nan, 0)
  | .inf neg => if neg then (.nan, fNV) else (.inf false, 0)
  | .fin neg mag exp _ =>
    if mag = 0 then (a, 0)
    else if neg then (.nan, fNV)
    else
      let s := 200 - log2 mag
      let s := if (exp - s) % 2 = 0 then s else s + 1
      let m := mag <<< s
      let r := isqrt m
      (.fin false r ((exp - s) / 2) (decide (r * r ≠ m)), 0)

/-- Whether a < b for exact operands that are no NaN; −0 equals +0. -/
def exLt (a b : Exact) : Bool :=
  match a, b with
  | .inf x, .inf y => x && !y
  | .inf x, _ => x
  | _, .inf y => !y
  | .fin na ma ea _, .fin nb mb eb _ =>
    let e := min ea eb
    alignTo e na ma ea < alignTo e nb mb eb
  | _, _ => false

/-- Whether a = b for exact operands that are no NaN; −0 equals +0. -/
def exEq (a b : Exact) : Bool := !exLt a b && !exLt b a

/-- The sign bit of a value. -/
def exNeg : Exact → Bool
  | .inf neg => neg
  | .fin neg _ _ _ => neg
  | .nan => false

/-- The IEEE 754-2019 minimum and maximum, with −0 below +0 (R46). -/
def exMin (a b : Exact) : Exact :=
  match a, b with
  | .nan, _ => .nan
  | _, .nan => .nan
  | a, b => if exLt a b then a else if exLt b a then b else if exNeg a then a else b
def exMax (a b : Exact) : Exact :=
  match a, b with
  | .nan, _ => .nan
  | _, .nan => .nan
  | a, b => if exLt a b then b else if exLt b a then a else if exNeg a then b else a

/-- The total-order key of an FP32 pattern, and its inverse (R37). -/
def fp32Key (f : BitVec 32) : BitVec 32 := if f.msb then f ^^^ 0x7FFFFFFF#32 else f

/-- The generator's mixing step (R42). -/
def mix (z : BitVec 64) : BitVec 64 :=
  let z := z ^^^ (z >>> 31)
  let z := z * 0xD1B54A32D192ED03#64
  let z := z ^^^ (z >>> 29)
  let z := z * 0xA3C59AC2F16B5E87#64
  z ^^^ (z >>> 32)

/-- The draw of R42. -/
def drawOf (seed : BitVec 64) (t row col step : Nat) : Nat :=
  let w (n : Nat) : BitVec 64 := BitVec.ofNat 64 (n % 2 ^ 32)
  let h := seed ^^^ (w t * 0xA3C59AC2F16B5E87#64)
  let h := mix (h ^^^ (w row * 0x8B51F9DD2C47A6B1#64))
  let h := mix (h ^^^ (w col * 0xC2B2AE3D27D4EB4F#64))
  let h := mix (h ^^^ (w step * 0x9FB21C651E98DF25#64))
  (h >>> 32).toNat

end Sys2Proof.Machine
end

