-- ==== Sys2Proof/Config.lean ====
section
/-! DEFINITION. What is fixed for GWN-VR3-2404 stepping B0 (spec/00_scope.md R4, spec/08_core.md, spec/10), and the
free values: opaque constants that no proof can see into. -/

namespace Sys2Proof

/-- Why a COLL instance fails as a whole (R411); `fault`: a participant's own SRC or DST failed. -/
inductive CollCause where
  | disagree | timeout | unreachable | cancelled | fault
  deriving DecidableEq, Repr, Inhabited

end Sys2Proof

namespace Sys2Proof.Config

/-- Compute dies of the package (R360). -/
def dies : Nat := 4
/-- Clusters of a die (R265, R337). -/
def clusters : Nat := 96
/-- Cores of a cluster (R210). -/
def cores : Nat := 8
/-- Strand slots of a core (R178). -/
def slots : Nat := 4
/-- Cores of a die (08_core, opening). -/
def dieCores : Nat := clusters * cores
/-- Strand slots of a die: the die-local physical strand numbers run below this (R194). -/
def dieStrands : Nat := dieCores * slots
/-- Bytes of one core's scratchpad (R187). -/
def spadBytes : Nat := 196608
/-- Bytes of one scratchpad granule (R111). -/
def granule : Nat := 12288
/-- Bytes of one cluster's weight buffer (R262). -/
def wbufBytes : Nat := 8388608
/-- Device memory that page tables may map (R361, R332). -/
def deviceBytes : Nat := 1532 * 2 ^ 30
/-- Queue ring: packets per ring and bytes per ring (R365). -/
def ringPackets : Nat := 65536
def ringBytes : Nat := 4194304
/-- The read-only CSR `profile` (R106): XvrV1, XvrM1, XvrT1. -/
def profile : Word := 0x00010101
/-- The read-only CSR `netpay` (R106). -/
def netpay : Word := 0x06060405
/-- Save areas are measured in this many fixed bytes (R200). -/
def saveFixed : Nat := 640

/-- FREE VALUE (assumption 1): how many CLKA cycles of a die pass in the n-th step. -/
opaque elapsed : Nat → Nat → Nat
/-- FREE VALUE (assumption 1): how many GTC ticks pass in the n-th step. -/
opaque ticks : Nat → Nat
/-- FREE VALUE (assumption 1): where the GTC copy of a die stands in the n-th step: 2 is die 0's count, and no copy is more than 2 ticks
away from it (R389). -/
opaque gtcSkew : Nat → Nat → Fin 5
/-- FREE VALUE (assumption 11): the source number of the home of a device physical address. The device chooses homes
and no program can learn them (R314). -/
opaque homeSource : Nat → Nat

/-- FREE VALUE (assumption 13): tval of the ACCESS trap that a handler context takes on a CSR access to `fltpc` that gets the
error response: R116 names an effective address, and a CSR access has none. -/
opaque csrErrorTval : Word

/-- FREE VALUE (assumption 15): what a decoder table's entry holds that was read from a poisoned byte. The spec makes the
table INVALID and gives no value for the entry (R269). -/
opaque poisonedFreq : Nat → Nat

/-- FREE VALUE (assumption 16): cause (PAGE when true, else ACCESS) and tval of an XWAIT on a block that holds STATE 5
although no request at that address ended in ERROR. -/
opaque forgedPage : Word → Bool
opaque forgedAddr : Word → Word

/-- What a payload says of a collective instance: nothing; a piece of its transfer, with its offset, its bytes and their poison; that the
participant of a rank has issued, with the GTC and with OP, KIND, COUNT, ROOT and MASK of its record; that the root's data has been
delivered to a rank; or that the instance has failed. -/
inductive CollNews where
  | none
  | piece (off : Nat) (bytes : List (BitVec 8 × Bool))
  | issued (rank gtc op kind count root : Nat) (mask : BitVec 256)
  | delivered (rank : Nat)
  | failed (cause : CollCause)
  deriving DecidableEq, Repr, Inhabited

/-- FREE VALUE (assumption 17): the collective instance (context on this package, job, group, instance number) that a flit's payload
belongs to, and what it says of it. The spec gives no layout of payloads (R395). -/
opaque flitColl : BitVec 512 → (Nat × Nat × Nat × Nat) × CollNews
/-- FREE VALUE (assumption 17): what another rank's combine flit held, its bytes and their poison, of which the switch formed the combined
result that a payload carries, this package's own piece being the given bytes (R400). -/
opaque flitInput : BitVec 512 → List (BitVec 8) → Nat → List (BitVec 8 × Bool)
/-- FREE VALUE (assumption 17): the fabric address of a time flit's sender with the GTC that it carries. -/
opaque flitTime : BitVec 512 → Nat × Nat
/-- FREE VALUE (assumption 17): the payloads that the package sends: news of an instance (job, group, instance number) to a rank, a piece of
a transfer (job, group, instance number, offset, bytes), a time (fabric address, GTC), and a port set (job, group, ports) that is
programmed or freed. -/
opaque collPayload : Nat → Nat → Nat → Nat → CollNews → BitVec 512
opaque partPayload : Nat → Nat → Nat → Nat → List (BitVec 8) → BitVec 512
opaque timePayload : Nat → Nat → BitVec 512
opaque setPayload : Nat → Nat → BitVec 256 → Bool → BitVec 512

/-- What a payload says of a member of a job: nothing about it, that its job table is identical or differs (with the GTC of its JOBSET),
that its port sets cannot be programmed, that its JOBSET has failed (both with the GTC at which they did), that the job is complete there (status, GTC and source of its earliest ending cause), that the job
is cancelled, or that a hard fault has ended its part of the job (R418). -/
inductive MemberNews where
  | none
  | same (set : Nat)
  | differs (set : Nat)
  | noSets (at_ : Nat)
  | unset (at_ : Nat)
  | complete (status gtc src : Nat)
  | cancelled
  | lost
  deriving DecidableEq, Repr, Inhabited

/-- FREE VALUE (assumption 17): the job, by its context on this package and its id, the member's rank and the news that a payload carries
(R402, R404, R405). -/
opaque flitMember : BitVec 512 → Nat × Nat × Nat × MemberNews
/-- FREE VALUE (assumption 17): the payload that carries this member's news to another (job id, the other's rank, news). -/
opaque memberPayload : Nat → Nat → MemberNews → BitVec 512

/-- FREE VALUE (assumption 23): how many port sets the jobs of other packages hold on the fullest switch at the n-th step
(R402). -/
opaque otherSets : Nat → Nat

/-- FREE VALUE (assumption 52): the path MTU of a queue pair, 1,024, 2,048 or 4,096 bytes (R415). -/
opaque pathMtu : Nat → Fin 3
/-- FREE VALUE (assumption 52): byte i of a work entry (operation, id, local address, length, remote address, immediate) and of a completion
entry (id, success, bytes received, immediate). The spec gives the rings in host memory no layout (R415). -/
opaque workEntry : List Nat → Nat → BitVec 8
opaque completionEntry : Nat → Bool → Nat → Option Nat → Nat → BitVec 8

/-- FREE VALUE (assumption 41): W, in 96 bits, and N of element e of a damaged accumulator slot, as an MPEEK of the n-th step finds
them (R258, R260). -/
opaque damagedElement : Nat → Nat → BitVec 96 × Bool

/-- FREE VALUE (assumption 73): Gwynaphor's vendor identifier, which the spec does not give (R363). -/
opaque vendorId : BitVec 16

/-- FREE VALUE (assumption 74): the first parcel of the REPB whose body no longer meets R184 at a resumption, where it cannot be fetched
(R186). -/
opaque repbParcel : Word

end Sys2Proof.Config
end

