-- ==== Sys2Proof/Syntax.lean ====
section
/-! DEFINITION. The instructions and events of the Vrelub VR3: one constructor of Instr per row of
spec/opcode_table.json. Rows with an encoding come first; the others are the device's own whole steps
(spec/95_what_each_step_holds.md), whose arguments say which unit acts and what the outside world brings. -/

namespace Sys2Proof

/-- The fields of an X96 instruction (R75), and of the first three parcels of an X160 instruction. -/
structure X96 where
  vd : BitVec 6 := 0
  vs1 : BitVec 6 := 0
  vs2 : BitVec 6 := 0
  vs3 : BitVec 6 := 0
  ty : BitVec 4 := 0
  ty2 : BitVec 4 := 0
  rm : BitVec 3 := 0
  sat : Bool := false
  n1 : Bool := false
  a1 : Bool := false
  n2 : Bool := false
  a2 : Bool := false
  n3 : Bool := false
  a3 : Bool := false
  clp : BitVec 2 := 0
  scl : BitVec 5 := 0
  ge : Bool := false
  gr : BitVec 5 := 0
  gb : BitVec 6 := 0
  gs : Bool := false
  ord : Bool := false
  rs : BitVec 5 := 0
  aux : BitVec 8 := 0
  deriving DecidableEq, Repr

/-- A strand of a launch: the launch's run number in the package and the global logical strand number
lcrew * 32 + lstrand (R109). -/
structure StrandKey where
  run : Nat
  gls : Nat
  deriving DecidableEq, Repr

/-- Storage with a power state of its own (R190): a granule of the core's scratchpad, a VREG block of a slot, or one of the retained
holding of a strand, by its run and gls. -/
inductive PowerUnit where
  | granule (g : Nat)
  | vreg (slot block : Nat)
  | held (run gls block : Nat)
  deriving DecidableEq, Repr

/-- Where an uncorrectable error strikes (R205, R260, R391). -/
inductive ErrorSite where
  | device (pa : Nat)
  | host (pa : Nat)
  | scratchpad (core off : Nat)
  | weights (cl off : Nat)
  | l1Line (core line : Nat)
  | icacheLine (core line : Nat)
  | register (k : StrandKey)
  | saveBuffer (k : StrandKey)
  | slotStore (cl slot : Nat)
  deriving DecidableEq, Repr

/-- What the die manager does with an escalated strand (R196). -/
inductive Disposition where
  | resume | kill | toHost
  deriving DecidableEq, Repr

/-- A 72-byte flit of a Kryong link (R395), by its fields: HDR, SEQ, PAYLOAD and CRC. -/
structure Flit where
  hdr : BitVec 16 := 0
  seq : BitVec 16 := 0
  payload : BitVec 512 := 0
  crc : BitVec 32 := 0
  deriving DecidableEq, Repr

/-- The work a host posts to an Ethernet queue pair (R415): local device addresses are those of registered regions. `recv` is the buffer
that an arriving SEND, or WRITE with immediate, takes. -/
inductive EthOp where
  | send | sendImm | write | writeImm | read | recv
  deriving DecidableEq, Repr

structure EthWork where
  op : EthOp
  id : Nat
  pa : Nat
  len : Nat
  remote : Nat
  imm : Nat
  deriving DecidableEq, Repr

/-- A RoCEv2 packet of a reliable connection (R415), by the effect its headers name: the queue pair, its packet sequence number, and for a
piece of a SEND whether the message ends with it. -/
inductive EthPacket where
  | write (qp psn pa : Nat) (data : List Byte) (imm : Option Nat) (icrcOk : Bool)
  | send (qp psn : Nat) (data : List Byte) (last : Bool) (imm : Option Nat) (icrcOk : Bool)
  | readRequest (qp psn pa len : Nat) (icrcOk : Bool)
  | readResponse (qp psn : Nat) (data : List Byte) (icrcOk : Bool)
  | ack (qp psn : Nat) (icrcOk : Bool)
  | nak (qp psn : Nat) (icrcOk : Bool)
  | rnr (qp psn : Nat) (icrcOk : Bool)
  deriving DecidableEq, Repr

/-- What bring-up finds and installs (R393): the step that fails, if one does, the clusters taken out of service,
and, for each die, the base of its debug-window array, the root of its handler table tree and the bases of its
save-area tables (R191, R193, R200), with the bytes firmware leaves in device memory. -/
structure Firmware where
  failed : Option Nat := none
  outOfService : List Nat := []
  dwinBase : List Nat := []
  handlerRoot : List Nat := []
  saveTable : List Nat := []
  image : List (Nat × List Byte) := []
  deriving DecidableEq, Repr

/-- The instructions and events. Register numbers, immediates and masks are the fields of the encodings in
spec/03_encoding_and_assembly.md; branch offsets leave out bit 0. -/
inductive Instr where
  /-- LUI (R117): Loads a 20-bit upper immediate into rd. -/
  | lui (rd : BitVec 5) (imm : BitVec 20)
  /-- AUIPC (R119): Adds an upper immediate to the pc (an sg0 pointer) and writes rd. -/
  | auipc (rd : BitVec 5) (imm : BitVec 20)
  /-- JAL (R125): Jumps pc-relative and writes pc + 4 to rd, trapping with SEGMENT or MISALIGNED on a bad target. -/
  | jal (rd : BitVec 5) (off : BitVec 20)
  /-- JALR (R125): Jumps to x[rs1] + imm with bit 0 cleared and writes pc + 4 to rd, with the target checks. -/
  | jalr (rd rs1 : BitVec 5) (imm : BitVec 12)
  /-- BEQ (R125): Branches when x[rs1] equals x[rs2]. -/
  | beq (rs1 rs2 : BitVec 5) (off : BitVec 12)
  /-- BNE (R125): Branches when x[rs1] differs from x[rs2]. -/
  | bne (rs1 rs2 : BitVec 5) (off : BitVec 12)
  /-- BLT (R125): Branches when x[rs1] is less than x[rs2], signed. -/
  | blt (rs1 rs2 : BitVec 5) (off : BitVec 12)
  /-- BGE (R125): Branches when x[rs1] is at least x[rs2], signed. -/
  | bge (rs1 rs2 : BitVec 5) (off : BitVec 12)
  /-- BLTU (R125): Branches when x[rs1] is less than x[rs2], unsigned. -/
  | bltu (rs1 rs2 : BitVec 5) (off : BitVec 12)
  /-- BGEU (R125): Branches when x[rs1] is at least x[rs2], unsigned. -/
  | bgeu (rs1 rs2 : BitVec 5) (off : BitVec 12)
  /-- LB (R120): Loads a sign-extended byte through segment translation. -/
  | lb (rd rs1 : BitVec 5) (imm : BitVec 12)
  /-- LH (R120): Loads a sign-extended halfword. -/
  | lh (rd rs1 : BitVec 5) (imm : BitVec 12)
  /-- LW (R120): Loads a sign-extended word. -/
  | lw (rd rs1 : BitVec 5) (imm : BitVec 12)
  /-- LD (R120): Loads a doubleword. -/
  | ld (rd rs1 : BitVec 5) (imm : BitVec 12)
  /-- LBU (R120): Loads a zero-extended byte. -/
  | lbu (rd rs1 : BitVec 5) (imm : BitVec 12)
  /-- LHU (R120): Loads a zero-extended halfword. -/
  | lhu (rd rs1 : BitVec 5) (imm : BitVec 12)
  /-- LWU (R120): Loads a zero-extended word. -/
  | lwu (rd rs1 : BitVec 5) (imm : BitVec 12)
  /-- SB (R120): Stores the low byte of x[rs2]. -/
  | sb (rs1 rs2 : BitVec 5) (imm : BitVec 12)
  /-- SH (R120): Stores the low halfword of x[rs2]. -/
  | sh (rs1 rs2 : BitVec 5) (imm : BitVec 12)
  /-- SW (R120): Stores the low word of x[rs2]. -/
  | sw (rs1 rs2 : BitVec 5) (imm : BitVec 12)
  /-- SD (R120): Stores the doubleword x[rs2]. -/
  | sd (rs1 rs2 : BitVec 5) (imm : BitVec 12)
  /-- ADDI (R117): Adds a sign-extended immediate to x[rs1]. -/
  | addi (rd rs1 : BitVec 5) (imm : BitVec 12)
  /-- SLTI (R117): Sets rd to 1 when x[rs1] is below the immediate, signed. -/
  | slti (rd rs1 : BitVec 5) (imm : BitVec 12)
  /-- SLTIU (R117): Sets rd to 1 when x[rs1] is below the immediate, unsigned. -/
  | sltiu (rd rs1 : BitVec 5) (imm : BitVec 12)
  /-- XORI (R117): Bitwise xor with an immediate. -/
  | xori (rd rs1 : BitVec 5) (imm : BitVec 12)
  /-- ORI (R117): Bitwise or with an immediate. -/
  | ori (rd rs1 : BitVec 5) (imm : BitVec 12)
  /-- ANDI (R117): Bitwise and with an immediate. -/
  | andi (rd rs1 : BitVec 5) (imm : BitVec 12)
  /-- SLLI (R118): Shifts x[rs1] left by a 6-bit amount. -/
  | slli (rd rs1 : BitVec 5) (sh : BitVec 6)
  /-- SRLI (R118): Shifts x[rs1] right logically by a 6-bit amount. -/
  | srli (rd rs1 : BitVec 5) (sh : BitVec 6)
  /-- SRAI (R118): Shifts x[rs1] right arithmetically by a 6-bit amount. -/
  | srai (rd rs1 : BitVec 5) (sh : BitVec 6)
  /-- ADDIW (R117): Adds an immediate in 32 bits and sign-extends the result. -/
  | addiw (rd rs1 : BitVec 5) (imm : BitVec 12)
  /-- SLLIW (R118): Shifts the low word left and sign-extends. -/
  | slliw (rd rs1 : BitVec 5) (sh : BitVec 5)
  /-- SRLIW (R118): Shifts the low word right logically and sign-extends. -/
  | srliw (rd rs1 : BitVec 5) (sh : BitVec 5)
  /-- SRAIW (R118): Shifts the low word right arithmetically and sign-extends. -/
  | sraiw (rd rs1 : BitVec 5) (sh : BitVec 5)
  /-- ADD (R119): Adds two registers, wrapping. -/
  | add (rd rs1 rs2 : BitVec 5)
  /-- SUB (R119): Subtracts two registers, wrapping. -/
  | sub (rd rs1 rs2 : BitVec 5)
  /-- SLL (R119): Shifts left by the low 6 bits of x[rs2]. -/
  | sll (rd rs1 rs2 : BitVec 5)
  /-- SLT (R117): Sets rd when x[rs1] < x[rs2], signed. -/
  | slt (rd rs1 rs2 : BitVec 5)
  /-- SLTU (R117): Sets rd when x[rs1] < x[rs2], unsigned. -/
  | sltu (rd rs1 rs2 : BitVec 5)
  /-- XOR (R117): Bitwise xor of two registers. -/
  | xor (rd rs1 rs2 : BitVec 5)
  /-- SRL (R119): Shifts right logically by the low 6 bits of x[rs2]. -/
  | srl (rd rs1 rs2 : BitVec 5)
  /-- SRA (R119): Shifts right arithmetically by the low 6 bits of x[rs2]. -/
  | sra (rd rs1 rs2 : BitVec 5)
  /-- OR (R117): Bitwise or of two registers. -/
  | or (rd rs1 rs2 : BitVec 5)
  /-- AND (R117): Bitwise and of two registers. -/
  | and (rd rs1 rs2 : BitVec 5)
  /-- MUL (R119): Low 64 bits of the product. -/
  | mul (rd rs1 rs2 : BitVec 5)
  /-- MULH (R119): High 64 bits of the signed product. -/
  | mulh (rd rs1 rs2 : BitVec 5)
  /-- MULHSU (R119): High 64 bits of the signed-by-unsigned product. -/
  | mulhsu (rd rs1 rs2 : BitVec 5)
  /-- MULHU (R119): High 64 bits of the unsigned product. -/
  | mulhu (rd rs1 rs2 : BitVec 5)
  /-- DIV (R119): Signed division by the table of R119, never trapping. -/
  | div (rd rs1 rs2 : BitVec 5)
  /-- DIVU (R119): Unsigned division by the table of R119. -/
  | divu (rd rs1 rs2 : BitVec 5)
  /-- REM (R119): Signed remainder by the table of R119. -/
  | rem (rd rs1 rs2 : BitVec 5)
  /-- REMU (R119): Unsigned remainder by the table of R119. -/
  | remu (rd rs1 rs2 : BitVec 5)
  /-- ADDW (R119): 32-bit add, sign-extended. -/
  | addw (rd rs1 rs2 : BitVec 5)
  /-- SUBW (R119): 32-bit subtract, sign-extended. -/
  | subw (rd rs1 rs2 : BitVec 5)
  /-- SLLW (R119): 32-bit left shift, sign-extended. -/
  | sllw (rd rs1 rs2 : BitVec 5)
  /-- SRLW (R119): 32-bit logical right shift, sign-extended. -/
  | srlw (rd rs1 rs2 : BitVec 5)
  /-- SRAW (R119): 32-bit arithmetic right shift, sign-extended. -/
  | sraw (rd rs1 rs2 : BitVec 5)
  /-- MULW (R119): 32-bit multiply, sign-extended. -/
  | mulw (rd rs1 rs2 : BitVec 5)
  /-- DIVW (R119): 32-bit signed division by the table of R119. -/
  | divw (rd rs1 rs2 : BitVec 5)
  /-- DIVUW (R119): 32-bit unsigned division by the table of R119. -/
  | divuw (rd rs1 rs2 : BitVec 5)
  /-- REMW (R119): 32-bit signed remainder. -/
  | remw (rd rs1 rs2 : BitVec 5)
  /-- REMUW (R119): 32-bit unsigned remainder. -/
  | remuw (rd rs1 rs2 : BitVec 5)
  /-- LR_W (R123): Loads a word and sets the strand's reservation at its home. -/
  | lrW (rd rs1 : BitVec 5) (aq rl : Bool)
  /-- LR_D (R123): Loads a doubleword and sets the strand's reservation. -/
  | lrD (rd rs1 : BitVec 5) (aq rl : Bool)
  /-- SC_W (R123): Stores a word if the reservation is valid and writes 0 or 1 to rd, clearing the reservation. -/
  | scW (rd rs1 rs2 : BitVec 5) (aq rl : Bool)
  /-- SC_D (R123): Stores a doubleword conditionally on the reservation. -/
  | scD (rd rs1 rs2 : BitVec 5) (aq rl : Bool)
  /-- AMOSWAP_W (R122): Atomically swaps a word at its home and returns the old value. -/
  | amoswapW (rd rs1 rs2 : BitVec 5) (aq rl : Bool)
  /-- AMOSWAP_D (R122): Atomically swaps a doubleword at its home. -/
  | amoswapD (rd rs1 rs2 : BitVec 5) (aq rl : Bool)
  /-- AMOADD_W (R122): Atomic wrapping add of a word at its home. -/
  | amoaddW (rd rs1 rs2 : BitVec 5) (aq rl : Bool)
  /-- AMOADD_D (R122): Atomic wrapping add of a doubleword at its home. -/
  | amoaddD (rd rs1 rs2 : BitVec 5) (aq rl : Bool)
  /-- AMOXOR_W (R122): Atomic xor of a word. -/
  | amoxorW (rd rs1 rs2 : BitVec 5) (aq rl : Bool)
  /-- AMOXOR_D (R122): Atomic xor of a doubleword. -/
  | amoxorD (rd rs1 rs2 : BitVec 5) (aq rl : Bool)
  /-- AMOAND_W (R122): Atomic and of a word. -/
  | amoandW (rd rs1 rs2 : BitVec 5) (aq rl : Bool)
  /-- AMOAND_D (R122): Atomic and of a doubleword. -/
  | amoandD (rd rs1 rs2 : BitVec 5) (aq rl : Bool)
  /-- AMOOR_W (R122): Atomic or of a word. -/
  | amoorW (rd rs1 rs2 : BitVec 5) (aq rl : Bool)
  /-- AMOOR_D (R122): Atomic or of a doubleword. -/
  | amoorD (rd rs1 rs2 : BitVec 5) (aq rl : Bool)
  /-- AMOMIN_W (R122): Atomic signed minimum of a word. -/
  | amominW (rd rs1 rs2 : BitVec 5) (aq rl : Bool)
  /-- AMOMIN_D (R122): Atomic signed minimum of a doubleword. -/
  | amominD (rd rs1 rs2 : BitVec 5) (aq rl : Bool)
  /-- AMOMAX_W (R122): Atomic signed maximum of a word. -/
  | amomaxW (rd rs1 rs2 : BitVec 5) (aq rl : Bool)
  /-- AMOMAX_D (R122): Atomic signed maximum of a doubleword. -/
  | amomaxD (rd rs1 rs2 : BitVec 5) (aq rl : Bool)
  /-- AMOMINU_W (R122): Atomic unsigned minimum of a word. -/
  | amominuW (rd rs1 rs2 : BitVec 5) (aq rl : Bool)
  /-- AMOMINU_D (R122): Atomic unsigned minimum of a doubleword. -/
  | amominuD (rd rs1 rs2 : BitVec 5) (aq rl : Bool)
  /-- AMOMAXU_W (R122): Atomic unsigned maximum of a word. -/
  | amomaxuW (rd rs1 rs2 : BitVec 5) (aq rl : Bool)
  /-- AMOMAXU_D (R122): Atomic unsigned maximum of a doubleword. -/
  | amomaxuD (rd rs1 rs2 : BitVec 5) (aq rl : Bool)
  /-- FENCE (R127): Orders the strand's own CORE-path accesses by its pred and succ sets, as wait, release and acquire. -/
  | fence (pred succ : BitVec 4)
  /-- CSRRW (R130): Atomically swaps a CSR with x[rs1], not reading it when rd is x0. -/
  | csrrw (rd : BitVec 5) (csr : BitVec 12) (rs1 : BitVec 5)
  /-- CSRRS (R130): Reads a CSR and sets the bits of x[rs1]. -/
  | csrrs (rd : BitVec 5) (csr : BitVec 12) (rs1 : BitVec 5)
  /-- CSRRC (R130): Reads a CSR and clears the bits of x[rs1]. -/
  | csrrc (rd : BitVec 5) (csr : BitVec 12) (rs1 : BitVec 5)
  /-- CSRRWI (R130): Swaps a CSR with a 5-bit immediate. -/
  | csrrwi (rd : BitVec 5) (csr : BitVec 12) (uimm : BitVec 5)
  /-- CSRRSI (R130): Reads a CSR and sets immediate bits. -/
  | csrrsi (rd : BitVec 5) (csr : BitVec 12) (uimm : BitVec 5)
  /-- CSRRCI (R130): Reads a CSR and clears immediate bits. -/
  | csrrci (rd : BitVec 5) (csr : BitVec 12) (uimm : BitVec 5)
  /-- ACQ (R219): Requests claim units, granting when safe, blocking otherwise, trapping with CLAIM beyond the declaration. -/
  | acq (rd : BitVec 5) (cls : BitVec 3) (n : BitVec 7) (rs1 : BitVec 5)
  /-- TRYACQ (R218): Requests claim units without blocking and returns GRANTED or a refusal status. -/
  | tryacq (rd : BitVec 5) (cls : BitVec 3) (n : BitVec 7) (rs1 : BitVec 5)
  /-- REL (R223): Releases the most recently granted units of a class after their pending uses finish. -/
  | rel (rd : BitVec 5) (cls : BitVec 3) (n : BitVec 7) (rs1 : BitVec 5)
  /-- CLAIMQ (R224): Returns held, maximum, initial and pool figures for a claim class. -/
  | claimq (rd : BitVec 5) (cls : BitVec 3)
  /-- LOOP (R132): Scans the body's first parcels and arms the hardware loop with lpstart, lpend and lpcount. -/
  | loop (rs1 : BitVec 5) (n : BitVec 12)
  /-- FHINT (R137): Asks fetch to bring up to 16 lines into the L1 instruction cache, silently dropping lines that fail. -/
  | fhint (rs1 : BitVec 5) (k : BitVec 4)
  /-- REPB (R184): Captures up to 16 vector instructions and issues them for a count of passes with staggered register fields. -/
  | repb (rs1 : BitVec 5) (n stride mask : BitVec 4)
  /-- BBS (R136): Branches when bit b of x[rs1] is 1. -/
  | bbs (h : Bool) (rs1 : BitVec 5) (b : BitVec 6) (off : BitVec 10)
  /-- BBC (R136): Branches when bit b of x[rs1] is 0. -/
  | bbc (h : Bool) (rs1 : BitVec 5) (b : BitVec 6) (off : BitVec 10)
  /-- FENCEX (R327): Waits for earlier accesses of the A-mask classes before later accesses of the B-mask classes, invalidating L1 words when needed. -/
  | fencex (a b : BitVec 5)
  /-- HALT (R138): Waits for the strand's engine commands, releases, and ends the strand or retains its claims under a tag. -/
  | halt (rs1 : BitVec 5) (retain : Bool)
  /-- CANCEL (R140): Ends the issuing strand and cancels its crew, launch or graph. -/
  | cancel (scope : BitVec 5)
  /-- SEND_S (R301): Sends an 8-byte message into a single-sender ring, blocking while the ring is full or unconfigured. -/
  | sendS (rs1 rs2 : BitVec 5)
  /-- SEND_M (R301): Sends an 8-byte message into a multi-sender ring in arrival order. -/
  | sendM (rs1 rs2 : BitVec 5)
  /-- RECV (R302): Blocks until the ring holds an entry, acquires, and returns a pointer to it. -/
  | recv (rd : BitVec 5)
  /-- TRYRECV (R302): Returns a pointer to the head entry or 0 without blocking. -/
  | tryrecv (rd : BitVec 5)
  /-- BINIT (R297): Sets a barrier's expected count and clears its arrived count and status. -/
  | binit (rs1 rs2 : BitVec 5)
  /-- BARRIVE (R297): Releases and then credits a barrier with a byte count. -/
  | barrive (rs1 rs2 : BitVec 5)
  /-- BWAIT (R298): Blocks until a barrier phase has passed, reports a pending copy fault, acquires and returns phase and status. -/
  | bwait (rd rs1 rs2 : BitVec 5)
  /-- BTEST (R298): Returns whether a barrier phase has passed, without blocking or acquiring. -/
  | btest (rd rs1 rs2 : BitVec 5)
  /-- VLD (R145): Loads one 64-byte vector register from an aligned address. -/
  | vld (v : BitVec 6) (rs1 : BitVec 5) (imm : BitVec 6)
  /-- VST (R145): Stores one 64-byte vector register in atomic pieces. -/
  | vst (v : BitVec 6) (rs1 : BitVec 5) (imm : BitVec 6)
  /-- VLDS (R146): Loads strided elements into the lanes of a register. -/
  | vlds (w : BitVec 2) (v : BitVec 6) (rs1 rs2 : BitVec 5)
  /-- VSTS (R146): Stores the lanes of a register to strided addresses. -/
  | vsts (w : BitVec 2) (v : BitVec 6) (rs1 rs2 : BitVec 5)
  /-- VINS (R147): Inserts a GPR value into one lane. -/
  | vins (w : BitVec 2) (v : BitVec 6) (rs1 rs2 : BitVec 5)
  /-- VEXT (R147): Extracts one lane into a GPR, sign- or zero-extended. -/
  | vext (u : Bool) (w : BitVec 2) (rd : BitVec 5) (v : BitVec 6) (rs1 : BitVec 5)
  /-- VSPLAT (R148): Fills every lane with the low bits of a GPR. -/
  | vsplat (w : BitVec 2) (v : BitVec 6) (rs1 : BitVec 5)
  /-- VSPLAT_IMM (R148): Fills every lane with a sign-extended 5-bit immediate. -/
  | vsplatImm (w : BitVec 2) (v : BitVec 6) (imm : BitVec 5)
  /-- STRES (R195): Handler resumes a frozen strand at its window pc and disposes of its packet. -/
  | stres (rs1 : BitVec 5)
  /-- STKILL (R195): Handler ends a frozen strand. -/
  | stkill (rs1 : BitVec 5)
  /-- ESCAL (R195): Handler passes a frozen strand's disposition to the die manager. -/
  | escal (rs1 : BitVec 5)
  /-- VADD (R151): Lane-wise addition rounded once. -/
  | vadd (f : X96)
  /-- VSUB (R151): Lane-wise subtraction rounded once. -/
  | vsub (f : X96)
  /-- VMUL (R151): Lane-wise multiplication rounded once. -/
  | vmul (f : X96)
  /-- VFMA (R151): Lane-wise fused multiply-add rounded once. -/
  | vfma (f : X96)
  /-- VMIN (R151): Lane-wise minimum. -/
  | vmin (f : X96)
  /-- VMAX (R151): Lane-wise maximum. -/
  | vmax (f : X96)
  /-- VDIV (R151): Lane-wise division. -/
  | vdiv (f : X96)
  /-- VSQRT (R151): Lane-wise square root on floating-point lanes. -/
  | vsqrt (f : X96)
  /-- VRCP (R59): Lane-wise reciprocal, by the fixed f32 algorithm. -/
  | vrcp (f : X96)
  /-- VRSQ (R61): Lane-wise reciprocal square root. -/
  | vrsq (f : X96)
  /-- VEXP2 (R58): Lane-wise 2^x. -/
  | vexp2 (f : X96)
  /-- VLOG2 (R60): Lane-wise log2. -/
  | vlog2 (f : X96)
  /-- VTANH (R62): Lane-wise tanh. -/
  | vtanh (f : X96)
  /-- VAND (R153): Lane-wise bitwise and. -/
  | vand (f : X96)
  /-- VOR (R153): Lane-wise bitwise or. -/
  | vor (f : X96)
  /-- VXOR (R153): Lane-wise bitwise xor. -/
  | vxor (f : X96)
  /-- VSHL (R153): Lane-wise left shift. -/
  | vshl (f : X96)
  /-- VSHR (R153): Lane-wise right shift, arithmetic or logical by type. -/
  | vshr (f : X96)
  /-- VMULH (R152): Lane-wise high half of the integer product. -/
  | vmulh (f : X96)
  /-- VSEL (R153): Selects each lane from two sources by a GPR mask bit. -/
  | vsel (f : X96)
  /-- VADD_X160 (R76): VADD with a broadcast 64-bit literal as second source. -/
  | vaddX160 (f : X96) (lit : Word)
  /-- VSUB_X160 (R76): VSUB with a literal second source. -/
  | vsubX160 (f : X96) (lit : Word)
  /-- VMUL_X160 (R76): VMUL with a literal second source. -/
  | vmulX160 (f : X96) (lit : Word)
  /-- VFMA_X160 (R76): VFMA with a literal second source. -/
  | vfmaX160 (f : X96) (lit : Word)
  /-- VMIN_X160 (R76): VMIN with a literal second source. -/
  | vminX160 (f : X96) (lit : Word)
  /-- VMAX_X160 (R76): VMAX with a literal second source. -/
  | vmaxX160 (f : X96) (lit : Word)
  /-- VDIV_X160 (R76): VDIV with a literal second source. -/
  | vdivX160 (f : X96) (lit : Word)
  /-- VAND_X160 (R76): VAND with a literal second source. -/
  | vandX160 (f : X96) (lit : Word)
  /-- VOR_X160 (R76): VOR with a literal second source. -/
  | vorX160 (f : X96) (lit : Word)
  /-- VXOR_X160 (R76): VXOR with a literal second source. -/
  | vxorX160 (f : X96) (lit : Word)
  /-- VSHL_X160 (R76): VSHL with a literal shift source. -/
  | vshlX160 (f : X96) (lit : Word)
  /-- VSHR_X160 (R76): VSHR with a literal shift source. -/
  | vshrX160 (f : X96) (lit : Word)
  /-- VMULH_X160 (R76): VMULH with a literal second source. -/
  | vmulhX160 (f : X96) (lit : Word)
  /-- VSEL_X160 (R76): VSEL with a literal second source. -/
  | vselX160 (f : X96) (lit : Word)
  /-- VCVT (R155): Converts lanes between element types and narrow formats with scale, clamp, mode and SAT. -/
  | vcvt (f : X96)
  /-- VPACKMX (R156): Packs 32 lanes into one interleaved MX block by R54. -/
  | vpackmx (f : X96)
  /-- VUNPKMX (R157): Unpacks one MX block into 32 lanes. -/
  | vunpkmx (f : X96)
  /-- VMXEXP (R158): Writes to a GPR the E8M0 scale VPACKMX would choose. -/
  | vmxexp (f : X96)
  /-- VTOBSI (R159): Converts 32 lanes to BSI integers at a given exponent. -/
  | vtobsi (f : X96)
  /-- VFROMBSI (R160): Converts BSI integers at a given exponent to 32 lanes. -/
  | vfrombsi (f : X96)
  /-- VRAND (R161): Fills sixteen lanes with draws of the strand's counter-based generator. -/
  | vrand (f : X96)
  /-- VGATHER (R165): Loads each active lane from a base plus shifted index. -/
  | vgather (f : X96)
  /-- VSCATTER (R165): Stores each active lane to a base plus shifted index, in ascending lane order. -/
  | vscatter (f : X96)
  /-- VLDM (R166): Loads a group of 1 to 8 whole registers at a stride. -/
  | vldm (f : X96)
  /-- VSTM (R166): Stores a group of 1 to 8 whole registers at a stride. -/
  | vstm (f : X96)
  /-- VAMOADD (R167): Adds data lanes atomically into indexed elements at their homes, or posts them for the crossing in the ordered floating-point form. -/
  | vamoadd (f : X96)
  /-- VRED (R173): Reduces the active lanes by a fixed pairwise tree into lane 0. -/
  | vred (f : X96)
  /-- VSCAN (R173): Computes a prefix of the lanes from lane 1 upward. -/
  | vscan (f : X96)
  /-- VPERM (R174): Permutes lanes of a table register by index lanes. -/
  | vperm (f : X96)
  /-- VSLIDE (R175): Slides lanes by a GPR plus immediate shift, filling from a second register. -/
  | vslide (f : X96)
  /-- VCMP (R176): Compares lanes and merges result bits into a GPR. -/
  | vcmp (f : X96)
  /-- VCMP_X160 (R176): VCMP against a broadcast literal. -/
  | vcmpX160 (f : X96) (lit : Word)
  /-- VIOTA (R177): Writes each lane the popcount of lower mask bits or its index. -/
  | viota (f : X96)
  /-- VCOMPRESS (R177): Packs selected lanes into the low lanes and zeroes the rest. -/
  | vcompress (f : X96)
  /-- VPOPC (R177): Counts active selected lanes into a GPR. -/
  | vpopc (f : X96)
  /-- MZERO (R249): Takes mastership of a slot and queues its clearing at a given anchor. -/
  | mzero (f : X96)
  /-- MMA (R251): Checks operands and queues a 128-by-128 block-scaled matrix multiply-accumulate into a slot. -/
  | mma (f : X96)
  /-- MMAG (R251): Queues a matrix multiply-accumulate whose A rows are gathered through an index list. -/
  | mmag (f : X96)
  /-- MDRAIN (R256): Queues a drain of slot rows to the scratchpad and blocks until written. -/
  | mdrain (f : X96)
  /-- MDRAINS (R256): Queues a drain whose destination rows are scattered through a list. -/
  | mdrains (f : X96)
  /-- MPEEK (R256): Requests a snapshot of a slot's committed prefix without waiting for queued MMAs. -/
  | mpeek (f : X96)
  /-- MWAIT (R257): Blocks until the strand's earlier matrix commands complete, reporting pending faults. -/
  | mwait (f : X96)
  /-- MTLD (R269): Checks and queues the load of a decoder table from the scratchpad. -/
  | mtld (f : X96)
  /-- MTSV (R270): Queues the save of a decoder table to the scratchpad and blocks. -/
  | mtsv (f : X96)
  /-- CPY (R286): Reads a shape record, checks it and starts a converting copy credited to a barrier. -/
  | cpy (f : X96)
  /-- CPYRED (R289): Starts a reduce-copy that adds source elements into destination elements, ordered or unordered. -/
  | cpyred (f : X96)
  /-- CPYWB (R292): Starts a byte copy into every replica of the crew's weight shard in a staging launch. -/
  | cpywb (f : X96)
  /-- CPYQ (R293): Returns the count and remaining bytes of outstanding copies on a barrier pointer. -/
  | cpyq (f : X96)
  /-- CPYCAN (R293): Stops the outstanding copies on a barrier pointer and credits the remainder with CANCELLED. -/
  | cpycan (f : X96)
  /-- XREQ (R231): Submits a transform request block and returns ACCEPTED, BUSY or BADREQ. -/
  | xreq (f : X96)
  /-- XPOLL (R235): Returns a request block's current state. -/
  | xpoll (f : X96)
  /-- XWAIT (R235): Blocks until a request reaches a final state, then acquires or traps on ERROR. -/
  | xwait (f : X96)
  /-- PUTX (R344): Posts a scratchpad-to-peer byte transfer for the next crossing. -/
  | putx (f : X96)
  /-- PUTXADD (R344): Posts an element-wise additive transfer into a peer scratchpad for the next crossing. -/
  | putxadd (f : X96)
  /-- COLL (R408): Checks a collective record and issues this participant's contribution to a fabric collective instance. -/
  | coll (f : X96)
  /-- PHINT (R197): When pre-emption is pending, starts the strand's save with the named live set. -/
  | phint (f0 : BitVec 4) (c0 : BitVec 5) (f1 : BitVec 4) (c1 : BitVec 5) (smask : BitVec 8) (vmask : Word)
  /-- PCHK (R198): Returns whether a pre-emption request is pending. -/
  | pchk (rd : BitVec 5)
  /-- MALFORMED_ENCODING (R68): A strand issues a first parcel that R65 finds illegal or that R68 finds malformed, and traps with ILLEGAL, tval the first parcel. -/
  | malformedEncoding (parcel : Parcel)
  /-- FETCH_FAULT (R66): The fetch of a parcel that lies beyond sg0's LIMIT, or otherwise fails the segment checks, traps the strand with SEGMENT at the fetched address. -/
  | fetchFault (cause : BitVec 8) (addr : Word)
  /-- STORE_REGISTER (R317): A core's store registers at its home, merging bytes and revoking a former owner. -/
  | storeRegister (core : Nat)
  /-- FAULT_PACKET_DELIVER (R192): A frozen strand's fault packet enters its buddy's fault queue, retrying while the queue is full. -/
  | faultPacketDeliver (core : Nat)
  /-- HANDLER_WAKE (R191): The sleeping handler context wakes at entry with the head fault packet loaded. -/
  | handlerWake (core : Nat)
  /-- STRAND_CANCEL (R140): A cancel reaches a strand of its scope, which enters ENDED with its claims released. -/
  | strandCancel (k : StrandKey)
  /-- STRAND_UNBLOCK (R113): A blocked instruction's condition is met and it completes. -/
  | strandUnblock (k : StrandKey)
  /-- SAVE_WRITE (R200): Once engine commands complete, the save engine stops copies, writes the area with CTRL last and surrenders claims. -/
  | saveWrite (k : StrandKey)
  /-- REPLAY_DIVERGE (R388): A replay mismatch or 2^26-cycle wait freezes a strand with REPLAY and stops the job's launches. -/
  | replayDiverge (k : StrandKey) (index : Nat)
  /-- MATRIX_TILE_STEP (R252): The arbiter runs one tile step of an MMA or MMAG, residue-checked, committing whole or poisoning the slot. -/
  | matrixTileStep (cl bad : Nat)
  /-- MZERO_EXEC (R249): The queued MZERO clears the slot, sets its anchor and clears poison and step count. -/
  | mzeroExec (cl : Nat)
  /-- DRAIN_CONVERT (R255): After earlier commands into the slot, a drain converts and writes its rows and ORs conditions into vxflags. -/
  | drainConvert (cl : Nat)
  /-- MTLD_EXEC (R269): The queued MTLD reads frequencies and replaces the decoder table, VALID or INVALID. -/
  | mtldExec (cl : Nat)
  /-- MTSV_EXEC (R270): The queued MTSV writes a decoder table's state, format and frequencies. -/
  | mtsvExec (cl : Nat)
  /-- COPY_ROW_WRITE (R287): The copy engine writes destination bytes of a row and credits its barrier, stopping on a translation failure. -/
  | copyRowWrite (cl id bytes : Nat)
  /-- XFORM_START (R227): The transform coprocessor starts the next accepted request, setting STATE RUNNING. -/
  | xformStart (cl : Nat)
  /-- XFORM_COMPLETE (R232): A transform request ends in DONE, DATAFAULT or ERROR with its barrier fully credited. -/
  | xformComplete (cl : Nat)
  /-- CROSSING (R346): Once every strand has arrived, all postings are read, checked and delivered, VAMOADD.o postings applied, and the launch lands. -/
  | crossing (run : Nat)
  /-- LAUNCH_START (R374): A launch reads its record, checks level and placement, and passes its crews to the die managers. -/
  | launchStart (run : Nat)
  /-- LAUNCH_COMPLETE (R376): When every crew has completed, postings are applied and the counter is written with a release. -/
  | launchComplete (run : Nat)
  /-- GANG_ADMIT (R340): A stepping launch is tested, reserved and bound whole in one step. -/
  | gangAdmit (run : Nat)
  /-- BIND_CREW (R338): Dispatch binds the next crew of an armed record when it passes admission and slots are free. -/
  | bindCrew (die entry : Nat)
  /-- RESUME (R202): An admitted resumption restores claims, state and slots, re-issues saved copies and runs the strand. -/
  | resume (die entry : Nat)
  /-- LAUNCH (R373): A LAUNCH packet starts a launch from its record. -/
  | launchPacket (ctx q : Nat)
  /-- GRAPH (R379): A GRAPH packet starts a graph's first node. -/
  | graphPacket (ctx q : Nat)
  /-- LEVEL (R385): A LEVEL packet sets the context level for later launches. -/
  | levelPacket (ctx q : Nat)
  /-- WAIT (R367): A WAIT packet holds later packets of its queue on a counter. -/
  | waitPacket (ctx q : Nat)
  /-- WAIT_COMPLETE (R367): A WAIT completes when its counter's VALUE reaches the target. -/
  | waitComplete (ctx q : Nat)
  /-- CANCEL_PACKET (R377): A CANCEL packet cancels a launch or graph and marks visible packets with its id CANCELLED. -/
  | cancelPacket (ctx q idx : Nat)
  /-- STAGE (R264): A STAGE packet runs a staging launch that fills weight-buffer replicas. -/
  | stagePacket (ctx q : Nat)
  /-- SIGNAL (R367): A SIGNAL packet writes a value to an address with a release. -/
  | signalPacket (ctx q : Nat)
  /-- REPLAY (R387): A REPLAY packet makes later launches of its queue run under replay of a manifest. -/
  | replayPacket (ctx q : Nat)
  /-- LAUNCH_NODE (R379): The walker runs a LAUNCH node's launch and starts successors when it completes OK. -/
  | launchNode (g : Nat) (node : Word)
  /-- STAGE_NODE (R379): The walker runs a STAGE node's staging launch. -/
  | stageNode (g : Nat) (node : Word)
  /-- COND (R379): The walker acquires a hoist word and starts one successor by the test. -/
  | condNode (g : Nat) (node : Word)
  /-- WHILE (R379): As COND, but may be started repeatedly, forming loops. -/
  | whileNode (g : Nat) (node : Word)
  /-- JOIN (R379): Counts predecessor arrivals and starts successors at the NPRED-th. -/
  | joinNode (g : Nat) (node : Word)
  /-- SIGNAL_NODE (R379): Writes a value with a release and raises the queue's vector. -/
  | signalNode (g : Nat) (node : Word)
  /-- COLL_INSTANCE (R409): When every participant has issued, the instance computes and writes its result. -/
  | collInstance (inst : Nat)
  /-- COLL_COMPLETE (R410): A participant's COLL completes, writing RESULT and crediting its barrier. -/
  | collComplete (inst : Nat)
  /-- JOB_COMPLETE (R404): When the job is complete on every member, each writes its job counter. -/
  | jobComplete (job : Nat)
  /-- DEADLOCK_PROBE (R351): A strand waiting on messages for 4,096 cycles probes the wait-for graph and may trap one strand with DEADLOCK. -/
  | deadlockProbe (k : StrandKey)
  /-- FORCED_SAVE (R199): A request unhonoured for 65,536 running or blocked cycles forces a save of everything held. -/
  | forcedSave (k : StrandKey)
  /-- CLAIM_WAIT_STALL (R222): A blocked request reaching 65,536 cycles stops admission and resumption to its cluster. -/
  | claimWaitStall (cl : Nat)
  /-- RETAIN_EXPIRY (R113): A retained holding without a successor for 2^20 cycles is released. -/
  | retainExpiry (ctx : Nat) (tag : Word)
  /-- MPEEK_SNAPSHOT (R256): At a unit boundary the slot is snapshotted, converted and written with the committed step count. -/
  | mpeekSnapshot (k : StrandKey)
  /-- BIND_RECORD_WRITE (R337): The die manager writes a bind record into the slot table, arming it or having it rejected. -/
  | bindRecordWrite (die entry : Nat) (rec : BitVec 256)
  /-- GRAPH_COMPLETE (R381): A graph with nothing running or left to start writes its counter. -/
  | graphComplete (g : Nat)
  /-- COLL_FAIL (R411): An instance fails on disagreement, timeout, unreachability or cancel, crediting barriers with FAULT or CANCELLED. -/
  | collFail (inst : Nat) (cause : CollCause)
  /-- LOOP_CSR_WRITE (R134): A write to lpcount, lpstart or lpend changes the loop at once, arming or disarming it. -/
  | loopCsrWrite (k : StrandKey) (csr : BitVec 12) (v : Word)
  /-- RING_RECONFIGURE (R299): A write to ringbase or ringsize waits for deliveries, then resets head, tail and recorded sender. -/
  | ringReconfigure (k : StrandKey) (csr : BitVec 12) (v : Word)
  /-- RINGHEAD_WRITE (R299): A write to ringhead consumes entries after earlier loads return, trapping when beyond the delivered entries. -/
  | ringheadWrite (k : StrandKey) (v : Word)
  /-- ACK_FLIT (R396): An acknowledgement frees replay-buffer flits. -/
  | ackFlit (link : Nat) (f : Flit)
  /-- NACK_FLIT (R396): A nack makes the sender resend from the named SEQ. -/
  | nackFlit (link : Nat) (f : Flit)
  /-- PREEMPT_REQUEST (R199): Setting a REQ bit asks a strand to save at a PHINT, at once if blocked, or by force later. -/
  | preemptRequest (core : Nat) (mask : BitVec 4)
  /-- PREEMPT_WITHDRAW (R193): Clearing a REQ bit before SAVING withdraws the request. -/
  | preemptWithdraw (core : Nat) (mask : BitVec 4)
  /-- FLTPC_WRITE (R193): A handler write to fltpc sets the frozen strand's pc, or errors when the strand is no longer frozen. -/
  | fltpcWrite (core : Nat) (v : Word)
  /-- DEBUG_WINDOW_READ (R194): A handler or die-manager read of a frozen strand's state through its debug window. -/
  | debugWindowRead (q off size : Nat)
  /-- DEBUG_WINDOW_WRITE (R194): A write of a frozen strand's registers, pc, dead set or CSRs through its debug window. -/
  | debugWindowWrite (q off size : Nat) (v : VReg)
  /-- REGISTER_WRITE (R363): A write to a CSR or host register with no behaviour of its own, ignored whole when it breaks a constraint. -/
  | registerWrite (off : Nat) (v : Word)
  /-- RESERVATION_EXPIRY (R123): An LR reservation becomes invalid 65,536 cycles after the LR. -/
  | reservationExpiry (k : StrandKey)
  /-- CLAIM_WAIT_RECORD (R222): A blocked request reaching 2^26 cycles writes one event record. -/
  | claimWaitRecord (k : StrandKey)
  /-- WB_REFRESH_OPEN (R265): A cluster's weight-buffer refresh window opens, pausing decoder reads. -/
  | wbRefreshOpen (cl : Nat)
  /-- WB_REFRESH_CLOSE (R265): The refresh window closes and paused decoder reads continue. -/
  | wbRefreshClose (cl : Nat)
  /-- BANK_DROWSY (R190): A granule or register block idle for 2,048 cycles enters DROWSY. -/
  | bankDrowsy (core : Nat) (unit : PowerUnit)
  /-- ICACHE_FILL (R180): A demand or hint line fill returns into the L1 instruction cache. -/
  | icacheFill (core : Nat)
  /-- PAGE_WALK (R332): A walker completes a table walk, caching a success or failing each joined request with PAGE or ACCESS. -/
  | pageWalk (die : Nat)
  /-- HOST_MEM_WRITE (R317): A host write over CXL.mem sets the word's owner to NONE with a revoke, poisoning when marked. -/
  | hostMemWrite (pa : Nat) (data : List Byte) (poisoned : Bool)
  /-- ECC_CORRECTED (R391): A correctable error is fixed and logged. -/
  | eccCorrected (src : Nat) (addr : Word)
  /-- ECC_UNCORRECTED (R391): An uncorrectable error poisons words or traps with MACHINE and is logged. -/
  | eccUncorrected (site : ErrorSite)
  /-- CORE_FAILED (R206): A core unresponsive for 2^20 cycles is declared failed and its strands frozen with MACHINE. -/
  | coreFailed (core : Nat)
  /-- HARD_FAULT (R392): The die manager takes a cluster out of service and ends its crews' launches with FAULT. -/
  | hardFault (cl : Nat)
  /-- BIND_RECORD_WITHDRAW (R338): The die manager withdraws a record, or a cancel frees it. -/
  | bindRecordWithdraw (die entry : Nat)
  /-- GANG_PRIORITY (R341): A gang launch waiting 2^20 cycles halts other admissions in the package. -/
  | gangPriority (run : Nat)
  /-- CREATE (R365): Creates a context with its tables, code image, manifest, save pool, level and queues. -/
  | createContext
  /-- DESTROY (R364): Cancels every launch and graph of a context, waits and frees it. -/
  | destroyContext
  /-- LOAD (R369): Places and relocates an ELF object in the code image and computes kernel promises. -/
  | loadObject
  /-- UNLOAD (R364): Frees an object's range unless a kernel of it is in an incomplete launch. -/
  | unloadObject
  /-- FAULTACT (R364): Resumes or kills an escalated frozen strand. -/
  | faultAct
  /-- JOBSET (R402): Programs a job's table and port sets, ending once every member set an identical table. -/
  | jobset
  /-- JOBSET_TIMEOUT (R402): A member not setting its table within 1 s fails JOBSET with BADJOB. -/
  | jobsetTimeout (job : Nat)
  /-- JOBCLOSE (R402): Stops further launches of the job on this package. -/
  | jobclose
  /-- JOBCANCEL (R405): Cancels the job's launches and collectives on every member. -/
  | jobcancel
  /-- DOORBELL (R366): A doorbell write makes queue packets visible, or is ignored and logged. -/
  | doorbell (ctx q : Nat) (v : Word)
  /-- IDLE_FLIT (R395): An idle flit arrives on a Kryong link. -/
  | idleFlit (link : Nat) (f : Flit)
  /-- DATA_FLIT (R397): A data flit arrives, is CRC-checked with link replay, and is reassembled. -/
  | dataFlit (link : Nat) (f : Flit)
  /-- COMBINE_FLIT (R400): A combined result flit arrives from the switch for a collective. -/
  | combineFlit (link : Nat) (f : Flit)
  /-- TIME_FLIT (R398): A time flit brings the master's GTC, stepping forward or slowing the local GTC. -/
  | timeFlit (link : Nat) (f : Flit)
  /-- MANAGEMENT_FLIT (R399): A management flit programs switch port sets. -/
  | managementFlit (link : Nat) (f : Flit)
  /-- LINK_DOWN (R396): A link failing 16 replays or untrained for 10 ms goes down and logs. -/
  | linkDown (link : Nat)
  /-- LINK_RETRAIN (R396): A down link retrains every 100 ms. -/
  | linkRetrain (link : Nat) (partner : Option Nat)
  /-- MEMBER_UNREACHABLE (R418): A member with no link for 1 ms fails the job's collectives and launches with FAULT. -/
  | memberUnreachable (addr : Nat)
  /-- ETH_WORK_REQUEST (R415): The host posts RoCEv2 work to an Ethernet queue pair. -/
  | ethWorkRequest (port qp : Nat) (w : EthWork)
  /-- QP_ERROR (R416): A queue pair exhausting retries enters error and completes its work with errors. -/
  | qpError (port qp : Nat)
  /-- THROTTLE (R394): The power controller lowers a die's CLKA on power, temperature or host cap. -/
  | throttle (die mhz : Nat)
  /-- THERMAL_TRIP (R394): A junction at 115 deg C stops every clock and sets STATE FAILED. -/
  | thermalTrip
  /-- BOOT (R393): Reset runs verified boot, training, cluster tests and link bring-up to READY or FAILED. -/
  | boot (fw : Firmware)
  /-- DIE_MANAGER_DISPOSITION (R196): The die manager resumes, kills or passes to the host an escalated frozen strand, by the same effects as STRES, STKILL or ESCAL. -/
  | dieManagerDisposition (q : Nat) (act : Disposition)
  /-- ETHERNET_PACKET_RECEIVE (R415): A RoCEv2 packet arrives on an Ethernet port: it is ICRC-checked, dropped on failure, and otherwise acts on its queue pair and on registered device memory. -/
  | ethernetPacketReceive (port : Nat) (p : EthPacket)
  /-- FENCE_TSO (R127): Acts as FENCE rw, rw. -/
  | fenceTso
  /-- FENCE_I (R128): Orders own stores before fetch, discards fetched instructions and the repetition buffer, and invalidates the L1 instruction cache. -/
  | fenceI
  /-- ECALL (R129): Traps with ECALL, tval 0. -/
  | ecall
  /-- EBREAK (R129): Traps with EBREAK, tval the pc. -/
  | ebreak
  /-- STEP (R342): Fences, releases and arrives at the superstep barrier, blocking until the landing. -/
  | step
  /-- STRET (R196): Ends the handler activation, escalating a still-valid packet and loading the next or sleeping. -/
  | stret
  deriving DecidableEq, Repr

end Sys2Proof
end

