-- ==== Sys2Proof/Machine/Form.lean ====
section
/-! DEFINITION. The encoding checks of R68: which field values of an instruction are malformed
(spec/03_encoding_and_assembly.md and the description of each instruction). -/

namespace Sys2Proof.Machine

/-- A type code of R80 is one of the twelve element types. -/
def tyOk (t : Nat) : Bool := t < 12
/-- The integer types i8 … n64 (R80). -/
def tyInt (t : Nat) : Bool := t < 8
/-- The floating-point types f16, bf16, f32, f64 (R80). -/
def tyFloat (t : Nat) : Bool := 8 ≤ t && t < 12
/-- Width in bits of an element type (R80). -/
def tyWidth (t : Nat) : Nat :=
  if t < 8 then 8 <<< (t % 4) else if t < 10 then 16 else if t = 10 then 32 else 64
/-- An index type of R163: i32, i64, n32, n64. -/
def tyIndex (t : Nat) : Bool := t = 2 || t = 3 || t = 6 || t = 7
/-- A field that names a GPR (R85). -/
def isGpr (v : BitVec 6) : Bool := v.toNat < 32
/-- A field that names an accumulator slot (R85). -/
def isSlot (v : BitVec 6) : Bool := v.toNat < 8
/-- A format code of R81. -/
def mxOk (t : Nat) : Bool := t < 6

/-- Registers of the group that holds 32 lanes of width w (R154). -/
def group32 (w : Nat) : Nat := w / 16
/-- A group base is a multiple of the group's size (R143). -/
def aligned (v : BitVec 6) (k : Nat) : Bool := v.toNat % k = 0

/-- The guard fields: zero when GE = 0 (R79). -/
def guardOk (f : X96) : Bool := f.ge || (f.gr = 0 && f.gb = 0 && !f.gs)
/-- No guard at all. -/
def noGuard (f : X96) : Bool := !f.ge && f.gr = 0 && f.gb = 0 && !f.gs
/-- No modifier on source 1. -/
def noMod1 (f : X96) : Bool := !f.n1 && !f.a1
/-- No modifier on source 2. -/
def noMod2 (f : X96) : Bool := !f.n2 && !f.a2
/-- No modifier on source 3. -/
def noMod3 (f : X96) : Bool := !f.n3 && !f.a3
/-- No modifiers at all. -/
def noMods (f : X96) : Bool := noMod1 f && noMod2 f && noMod3 f
/-- No rounding, saturation, clamp or scale. -/
def noRound (f : X96) : Bool := f.rm = 0 && !f.sat && f.clp = 0 && f.scl = 0
/-- CLP and SCL zero. -/
def noClamp (f : X96) : Bool := f.clp = 0 && f.scl = 0

/-- The sources a VARITH function reads (R150): 1, 2 or 3 of them. -/
def varithSources (fn : Nat) : Nat :=
  if fn = 3 then 3 else if 7 ≤ fn && fn ≤ 12 then 1 else 2

/-- The types a VARITH function accepts (R150). -/
def varithType (fn t : Nat) : Bool :=
  if fn = 7 then tyFloat t
  else if 8 ≤ fn && fn ≤ 12 then 8 ≤ t && t ≤ 10
  else if 16 ≤ fn && fn ≤ 18 then tyInt t
  else tyOk t

/-- Functions that do not round: bitwise, shifts, VSEL (R153). -/
def varithPlain (fn : Nat) : Bool := (13 ≤ fn && fn ≤ 17) || fn = 19

/-- VARITH (R149 to R153). `x160` says that source 2 is the literal. -/
def varithOk (fn : Nat) (x160 : Bool) (f : X96) : Bool :=
  let t := f.ty.toNat
  let n := varithSources fn
  guardOk f && fn < 20 && varithType fn t && f.ty2 = 0 && f.aux = 0 && !f.ord && f.rm ≠ 6 &&
  (n = 3 || (f.vs3 = 0 && noMod3 f)) && (n ≠ 1 || (f.vs2 = 0 && noMod2 f)) && (!x160 || (f.vs2 = 0 && n ≠ 1)) &&
  (if varithPlain fn then noMods f && noRound f
   else if tyInt t then f.rm = 0 && noClamp f && (!f.sat || fn < 4) else true)

/-- The literal of an X160 instruction: no bit above the lane width (R76). -/
def litOk (t : Nat) (lit : Word) : Bool := lit.toNat < 2 ^ tyWidth t

/-- The widths of a VCVT's destination and source (R82, R142, R155). -/
def vcvtWidths (f : X96) : Nat × Nat :=
  let k := f.aux.toNat % 8
  if k = 0 then (tyWidth f.ty.toNat, tyWidth f.ty2.toNat)
  else if bit f.aux.toNat 3 then (tyWidth f.ty.toNat, 8) else (8, tyWidth f.ty.toNat)

/-- VCVT (R82, R154, R155). -/
def vcvtOk (f : X96) : Bool :=
  let k := f.aux.toNat % 8
  let (wd, ws) := vcvtWidths f
  let wn := min wd ws
  guardOk f && f.vs2 = 0 && f.vs3 = 0 && noMod2 f && noMod3 f && !f.ord && f.rm ≠ 6 && f.aux.toNat < 16 &&
  (if k = 0 then f.aux = 0 && tyOk f.ty.toNat && tyOk f.ty2.toNat &&
      (!(tyInt f.ty.toNat && tyInt f.ty2.toNat) || (f.rm = 0 && noClamp f))
   else k ≠ 7 && f.ty2 = 0 && tyFloat f.ty.toNat) &&
  aligned f.vd (wd / wn) && aligned f.vs1 (ws / wn)

/-- VCONV (R154 to R161). -/
def vconvOk (fn : Nat) (f : X96) : Bool :=
  let t := f.ty.toNat
  let g := group32 (tyWidth t)
  if fn = 0 then vcvtOk f
  else guardOk f && f.ty2 = 0 && f.vs3 = 0 && noMod2 f && noMod3 f && noClamp f && !f.ord && f.rm ≠ 6 &&
    (match fn with
     | 1 => tyFloat t && mxOk f.aux.toNat && f.vs2 = 0 && aligned f.vs1 g
     | 2 => tyFloat t && mxOk f.aux.toNat && f.vs2 = 0 && aligned f.vd g
     | 3 => tyFloat t && mxOk f.aux.toNat && f.vs2 = 0 && aligned f.vs1 g && isGpr f.vd && f.rm = 0 && !f.sat && f.rs = 0
     | 4 => (tyFloat t || t = 2 || t = 3) && f.aux = 0 && isGpr f.vs2 && aligned f.vd 4 && aligned f.vs1 g
     | 5 => tyFloat t && f.aux = 0 && isGpr f.vs2 && aligned f.vd g && aligned f.vs1 4
     | 6 => (t = 6 || t = 10) && f.aux = 0 && f.vs1 = 0 && f.vs2 = 0 && noMod1 f && f.rm = 0 && !f.sat && f.rs = 0
     | _ => false)

/-- Registers of an index group: max(1, wi / w) (R163). -/
def indexRegs (f : X96) : Nat := max 1 (tyWidth f.ty2.toNat / tyWidth f.ty.toNat)

/-- VMEM (R163, R166, R167). -/
def vmemOk (fn : Nat) (f : X96) : Bool :=
  let t := f.ty.toNat
  guardOk f && noMods f && noClamp f && f.vs3 = 0 && f.aux.toNat < 4 &&
  (match fn with
   | 0 => tyOk t && tyIndex f.ty2.toNat && f.vs2 = 0 && f.rm = 0 && !f.sat && !f.ord && aligned f.vs1 (indexRegs f)
   | 1 => tyOk t && tyIndex f.ty2.toNat && f.vd = 0 && f.rm = 0 && !f.sat && !f.ord && aligned f.vs1 (indexRegs f)
   | 2 => t = 0 && f.ty2 = 0 && f.vs1 = 0 && isGpr f.vs2 && f.rm = 0 && !f.sat && !f.ord && aligned f.vd (2 ^ f.aux.toNat)
   | 3 => t = 0 && f.ty2 = 0 && f.vd = 0 && isGpr f.vs2 && f.rm = 0 && !f.sat && !f.ord && aligned f.vs1 (2 ^ f.aux.toNat)
   | 4 => (tyIndex t || t = 10 || t = 11) && tyIndex f.ty2.toNat && f.vd = 0 && f.rm ≠ 6 && aligned f.vs1 (indexRegs f) &&
       (if tyInt t then f.rm = 0 && !f.sat else f.rm ≠ 5)
   | _ => false)

/-- VLANE (R172 to R177). -/
def vlaneOk (fn : Nat) (f : X96) : Bool :=
  let t := f.ty.toNat
  let op := f.aux.toNat
  guardOk f && f.vs3 = 0 && noMod3 f && noClamp f && !f.ord && tyOk t && (fn = 4 || (noMod1 f && noMod2 f)) &&
  (match fn with
   | 0 | 1 => f.vs2 = 0 && f.ty2 = 0 && f.rs = 0 && op < 6 && f.rm ≠ 6 && (op = 0 || !f.sat) &&
       (if op = 0 && tyFloat t then f.rm ≠ 5 else f.rm = 0)
   | 2 => f.ty2 = 0 && f.rm = 0 && !f.sat && f.rs = 0 && f.aux = 0
   | 3 => f.ty2 = 0 && f.rm = 0 && !f.sat
   | 4 => isGpr f.vd && f.ty2.toNat < 9 && (tyFloat t || (f.ty2 ≠ 6 && f.ty2 ≠ 7)) && f.rm = 0 && !f.sat && f.rs = 0 && op < 64
   | 5 => f.vs1 = 0 && f.vs2 = 0 && tyInt t && f.ty2 = 0 && f.rm = 0 && !f.sat && op < 2
   | 6 => f.vs2 = 0 && f.ty2 = 0 && f.rm = 0 && !f.sat && f.aux = 0
   | 7 => isGpr f.vd && f.vs1 = 0 && f.vs2 = 0 && f.ty2 = 0 && f.rm = 0 && !f.sat && f.aux = 0
   | _ => false)

/-- The target fields of a drain or an MPEEK (R247). -/
def drainOk (f : X96) : Bool :=
  isSlot f.vd && isGpr f.vs1 && isGpr f.vs2 && f.rm ≠ 6 &&
  (match f.aux.toNat with
   | 0 => tyOk f.ty.toNat && f.ty2 = 0
   | 1 => f.ty = 0 && mxOk f.ty2.toNat
   | 2 => f.ty = 0 && f.ty2 = 0 && f.rm = 0 && !f.sat
   | _ => false)

/-- The operand fields of MMA and MMAG (R247): BSRC in AUX[0], TAB in AUX[2:1]. -/
def mmaOk (f : X96) : Bool :=
  isSlot f.vd && isGpr f.vs1 && isGpr f.vs2 && isGpr f.vs3 && mxOk f.ty.toNat && mxOk f.ty2.toNat &&
  f.rm = 0 && !f.sat && f.aux.toNat < 8 && (if bit f.aux.toNat 0 then f.ty2 ≠ 5 else f.aux = 0)

/-- MATRIX (R247, R268). -/
def matrixOk (fn : Nat) (f : X96) : Bool :=
  guardOk f && noMods f && noClamp f && !f.ord &&
  (match fn with
   | 0 => isSlot f.vd && f.vs1 = 0 && f.vs2 = 0 && f.vs3 = 0 && f.ty = 0 && f.ty2 = 0 && f.rm = 0 && !f.sat && f.aux = 0
   | 1 => mmaOk f && f.rs = 0
   | 2 => mmaOk f
   | 3 => drainOk f && f.vs3 = 0
   | 4 => drainOk f && isGpr f.vs3
   | 5 => drainOk f && isGpr f.vs3
   | 6 => isSlot f.vd && f.vs1 = 0 && f.vs2 = 0 && f.vs3 = 0 && f.ty = 0 && f.ty2 = 0 && f.rm = 0 && !f.sat && f.rs = 0 &&
       (f.aux = 1 || (f.aux = 0 && f.vd = 0))
   | 7 => f.vd = 0 && isGpr f.vs1 && f.vs2 = 0 && f.vs3 = 0 && f.ty = 0 && f.ty2.toNat < 5 && f.rm = 0 && !f.sat && f.rs = 0 &&
       f.aux.toNat < 8 && f.aux.toNat % 2 = 0
   | 8 => f.vd = 0 && isGpr f.vs1 && f.vs2 = 0 && f.vs3 = 0 && f.ty = 0 && f.ty2 = 0 && f.rm = 0 && !f.sat && f.rs = 0 &&
       f.aux.toNat < 8 && f.aux.toNat % 2 = 0
   | _ => false)

/-- Fields that no COPY, XFORM or NET function uses. -/
def engineBlank (f : X96) : Bool := guardOk f && noMods f && noClamp f && f.ty2 = 0

/-- COPY (R285). -/
def copyOk (fn : Nat) (f : X96) : Bool :=
  engineBlank f && f.ty = 0 && f.rm = 0 && !f.sat && f.vs3 = 0 && f.rs = 0 && f.aux = 0 &&
  isGpr f.vd && isGpr f.vs1 && isGpr f.vs2 && (!f.ord || fn = 1) &&
  (if fn < 3 then f.vd = 0 else fn < 5 && f.vs1 = 0)

/-- XFORM (R228). -/
def xformOk (fn : Nat) (f : X96) : Bool :=
  engineBlank f && f.ty = 0 && f.rm = 0 && !f.sat && f.vs1 = 0 && f.vs2 = 0 && f.vs3 = 0 && f.aux = 0 && !f.ord &&
  isGpr f.vd && fn < 3

/-- NET (R343, R406). -/
def netOk (fn : Nat) (f : X96) : Bool :=
  let t := f.ty.toNat
  engineBlank f && f.vd = 0 && f.rs = 0 && isGpr f.vs1 && isGpr f.vs2 &&
  (match fn with
   | 0 => isGpr f.vs3 && t = 0 && f.rm = 0 && !f.sat && f.aux = 0
   | 1 => isGpr f.vs3 && (tyIndex t || t = 10 || t = 11) && f.aux = 0 && (if tyInt t then f.rm = 0 else f.rm ≠ 5 && f.rm ≠ 6)
   | 2 => f.vs3 = 0 && t = 0 && f.rm = 0 && !f.sat && !f.ord && f.aux.toNat < 12 && f.aux.toNat ≠ 10
   | _ => false)

/-- The encoding checks of an X96 or X160 instruction by class and function (R84). -/
def x96Ok (cls fn : Nat) (f : X96) : Bool :=
  match cls with
  | 0 => varithOk fn false f
  | 1 => vconvOk fn f
  | 2 => vmemOk fn f
  | 3 => vlaneOk fn f
  | 4 => matrixOk fn f
  | 5 => copyOk fn f
  | 6 => xformOk fn f
  | 7 => netOk fn f
  | _ => false

/-- X160: the VARITH functions and VCMP (R76, R84). -/
def x160Ok (cls fn : Nat) (f : X96) (lit : Word) : Bool :=
  match cls with
  | 0 => varithOk fn true f && litOk f.ty.toNat lit
  | 3 => fn = 4 && vlaneOk fn f && f.vs2 = 0 && litOk f.ty.toNat lit
  | _ => false

/-- Class and function of an X96 instruction, with its fields (R84). -/
def x96Of : Instr → Option (Nat × Nat × X96)
  | .vadd f => some (0, 0, f)
  | .vsub f => some (0, 1, f)
  | .vmul f => some (0, 2, f)
  | .vfma f => some (0, 3, f)
  | .vmin f => some (0, 4, f)
  | .vmax f => some (0, 5, f)
  | .vdiv f => some (0, 6, f)
  | .vsqrt f => some (0, 7, f)
  | .vrcp f => some (0, 8, f)
  | .vrsq f => some (0, 9, f)
  | .vexp2 f => some (0, 10, f)
  | .vlog2 f => some (0, 11, f)
  | .vtanh f => some (0, 12, f)
  | .vand f => some (0, 13, f)
  | .vor f => some (0, 14, f)
  | .vxor f => some (0, 15, f)
  | .vshl f => some (0, 16, f)
  | .vshr f => some (0, 17, f)
  | .vmulh f => some (0, 18, f)
  | .vsel f => some (0, 19, f)
  | .vcvt f => some (1, 0, f)
  | .vpackmx f => some (1, 1, f)
  | .vunpkmx f => some (1, 2, f)
  | .vmxexp f => some (1, 3, f)
  | .vtobsi f => some (1, 4, f)
  | .vfrombsi f => some (1, 5, f)
  | .vrand f => some (1, 6, f)
  | .vgather f => some (2, 0, f)
  | .vscatter f => some (2, 1, f)
  | .vldm f => some (2, 2, f)
  | .vstm f => some (2, 3, f)
  | .vamoadd f => some (2, 4, f)
  | .vred f => some (3, 0, f)
  | .vscan f => some (3, 1, f)
  | .vperm f => some (3, 2, f)
  | .vslide f => some (3, 3, f)
  | .vcmp f => some (3, 4, f)
  | .viota f => some (3, 5, f)
  | .vcompress f => some (3, 6, f)
  | .vpopc f => some (3, 7, f)
  | .mzero f => some (4, 0, f)
  | .mma f => some (4, 1, f)
  | .mmag f => some (4, 2, f)
  | .mdrain f => some (4, 3, f)
  | .mdrains f => some (4, 4, f)
  | .mpeek f => some (4, 5, f)
  | .mwait f => some (4, 6, f)
  | .mtld f => some (4, 7, f)
  | .mtsv f => some (4, 8, f)
  | .cpy f => some (5, 0, f)
  | .cpyred f => some (5, 1, f)
  | .cpywb f => some (5, 2, f)
  | .cpyq f => some (5, 3, f)
  | .cpycan f => some (5, 4, f)
  | .xreq f => some (6, 0, f)
  | .xpoll f => some (6, 1, f)
  | .xwait f => some (6, 2, f)
  | .putx f => some (7, 0, f)
  | .putxadd f => some (7, 1, f)
  | .coll f => some (7, 2, f)
  | _ => none

/-- Class and function of an X160 instruction, with its fields and literal (R76, R84). -/
def x160Of : Instr → Option (Nat × Nat × X96 × Word)
  | .vaddX160 f lit => some (0, 0, f, lit)
  | .vsubX160 f lit => some (0, 1, f, lit)
  | .vmulX160 f lit => some (0, 2, f, lit)
  | .vfmaX160 f lit => some (0, 3, f, lit)
  | .vminX160 f lit => some (0, 4, f, lit)
  | .vmaxX160 f lit => some (0, 5, f, lit)
  | .vdivX160 f lit => some (0, 6, f, lit)
  | .vandX160 f lit => some (0, 13, f, lit)
  | .vorX160 f lit => some (0, 14, f, lit)
  | .vxorX160 f lit => some (0, 15, f, lit)
  | .vshlX160 f lit => some (0, 16, f, lit)
  | .vshrX160 f lit => some (0, 17, f, lit)
  | .vmulhX160 f lit => some (0, 18, f, lit)
  | .vselX160 f lit => some (0, 19, f, lit)
  | .vcmpX160 f lit => some (3, 4, f, lit)
  | _ => none

/-- The encoding checks of an instruction whose fields do not say it all (R68, R70, R72, R197). Events have no
encoding and nothing to check here. -/
def formOk (i : Instr) : Bool :=
  match x96Of i with
  | some (cls, fn, f) => x96Ok cls fn f
  | none =>
    match x160Of i with
    | some (cls, fn, f, lit) => x160Ok cls fn f lit
    | none =>
      match i with
      | .acq _ c _ _ => c.toNat < 4
      | .tryacq _ c _ _ => c.toNat < 4
      | .rel _ c _ _ => c.toNat < 4
      | .claimq _ c => c.toNat < 4
      | .loop _ n => n ≠ 0
      | .cancel scope => scope.toNat < 3
      | .phint f0 c0 f1 c1 _ _ => f0.toNat + c0.toNat ≤ 16 && f1.toNat + c1.toNat ≤ 16
      | _ => true

/-- A core of the package: die, cluster and core in one number. -/
def coreOk (c : Nat) : Bool := c < Config.dies * Config.dieCores
/-- A cluster of the package. -/
def clusterOk (c : Nat) : Bool := c < Config.dies * Config.clusters
/-- A bind record's place: a die and an entry of its slot table (R336). -/
def entryOk (die entry : Nat) : Bool := die < Config.dies && entry < 256
/-- A queue of a context (R366): 16 contexts, up to 64 queues each. -/
def queueOk (ctx q : Nat) : Bool := ctx < 16 && q < 64

/-- An event names a unit that the package has. -/
def eventOk (i : Instr) : Bool :=
  match i with
  | .preemptRequest core _ => coreOk core
  | .preemptWithdraw core _ => coreOk core
  | .fltpcWrite core _ => coreOk core
  | .faultPacketDeliver core => coreOk core
  | .handlerWake core => coreOk core
  | .bankDrowsy core _ => coreOk core
  | .icacheFill core => coreOk core
  | .storeRegister core => coreOk core
  | .coreFailed core => coreOk core
  | .claimWaitStall cl => clusterOk cl
  | .matrixTileStep cl _ => clusterOk cl
  | .mzeroExec cl => clusterOk cl
  | .drainConvert cl => clusterOk cl
  | .mtldExec cl => clusterOk cl
  | .mtsvExec cl => clusterOk cl
  | .wbRefreshOpen cl => clusterOk cl
  | .wbRefreshClose cl => clusterOk cl
  | .copyRowWrite cl _ _ => clusterOk cl
  | .xformStart cl => clusterOk cl
  | .xformComplete cl => clusterOk cl
  | .hardFault cl => clusterOk cl
  | .resume die entry => entryOk die entry
  | .bindRecordWrite die entry _ => entryOk die entry
  | .bindRecordWithdraw die entry => entryOk die entry
  | .bindCrew die entry => entryOk die entry
  | .pageWalk die => die < Config.dies
  | .throttle die _ => die < Config.dies
  | .retainExpiry ctx _ => ctx < 16
  | .doorbell ctx q _ => queueOk ctx q
  | .launchPacket ctx q => queueOk ctx q
  | .graphPacket ctx q => queueOk ctx q
  | .levelPacket ctx q => queueOk ctx q
  | .waitPacket ctx q => queueOk ctx q
  | .waitComplete ctx q => queueOk ctx q
  | .cancelPacket ctx q _ => queueOk ctx q
  | .stagePacket ctx q => queueOk ctx q
  | .signalPacket ctx q => queueOk ctx q
  | .replayPacket ctx q => queueOk ctx q
  | .idleFlit l _ => l < 36
  | .dataFlit l _ => l < 36
  | .combineFlit l _ => l < 36
  | .ackFlit l _ => l < 36
  | .nackFlit l _ => l < 36
  | .timeFlit l _ => l < 36
  | .managementFlit l _ => l < 36
  | .linkDown l => l < 36
  | .linkRetrain l _ => l < 36
  | .ethWorkRequest port _ _ => port < 6
  | .qpError port _ => port < 6
  | .ethernetPacketReceive port _ => port < 6
  | _ => true

end Sys2Proof.Machine
end

