-- ==== Sys2Proof/WellFormed.lean ====
section
/-! DEFINITION. Well-formed instructions: the encoding checks of R68 hold, and an event names a unit that exists. -/

namespace Sys2Proof

/-- An instruction or event that the machine can be given. -/
def wellFormed (i : Instr) : Bool := Machine.formOk i && Machine.eventOk i

end Sys2Proof
end

