-- ==== Sys2Proof/Decode.lean ====
section
/-! DEFINITION. The decoder and the encoder (spec/03_encoding_and_assembly.md; the base encodings of
spec/05_strand_scalar_and_control.md R118). The decoder is total on any bytes; a word that is no instruction is
rejected by name. -/

namespace Sys2Proof

/-- Why bytes are no instruction. All but `truncated` trap with ILLEGAL (R65, R68). -/
inductive DecodeError where
  /-- fewer bytes than the instruction's length -/
  | truncated
  /-- bits [1:0] are not 11, or a 48-bit or 64-bit form (R65) -/
  | noSuchLength
  /-- bits [6:0] are 1111111 and bits [14:12] are neither 001 nor 101 (R65) -/
  | noSuchContainer
  /-- a major opcode not listed in R68 -/
  | reservedOpcode
  /-- a funct3, funct7, class or function that is not listed (R68, R84, R118) -/
  | reservedFunction
  /-- a field holds a reserved value, or an unused field is nonzero (R68) -/
  | malformed
  deriving DecidableEq, Repr

/-- The length in parcels that the first parcel decides (R65). -/
def parcelCount (p : Parcel) : Except DecodeError Nat :=
  if p.extractLsb' 0 2 ≠ 3#2 then .error .noSuchLength
  else if p.extractLsb' 0 7 = 0x1F#7 ∨ p.extractLsb' 0 7 = 0x3F#7 then .error .noSuchLength
  else if p.extractLsb' 0 7 = 0x7F#7 then
    if p.extractLsb' 12 3 = 1#3 then .ok 3
    else if p.extractLsb' 12 3 = 5#3 then .ok 5
    else .error .noSuchContainer
  else .ok 1

/-- The immediate of the I format (R118). -/
def immI (p : Parcel) : BitVec 12 := p.extractLsb' 20 12
/-- The immediate of the S format. -/
def immS (p : Parcel) : BitVec 12 := p.extractLsb' 25 7 ++ p.extractLsb' 7 5
/-- The immediate of the U format. -/
def immU (p : Parcel) : BitVec 20 := p.extractLsb' 12 20
/-- The offset of the B format without bit 0. -/
def offB (p : Parcel) : BitVec 12 :=
  p.extractLsb' 31 1 ++ p.extractLsb' 7 1 ++ p.extractLsb' 25 6 ++ p.extractLsb' 8 4
/-- The offset of the J format without bit 0. -/
def offJ (p : Parcel) : BitVec 20 :=
  p.extractLsb' 31 1 ++ p.extractLsb' 12 8 ++ p.extractLsb' 20 1 ++ p.extractLsb' 21 10
/-- The offset of BBS and BBC without bit 0 (R71). -/
def offBit (p : Parcel) : BitVec 10 := p.extractLsb' 25 6 ++ p.extractLsb' 8 4
/-- The bit index of BBS and BBC (R71). -/
def bitIndex (p : Parcel) : BitVec 6 := p.extractLsb' 7 1 ++ p.extractLsb' 20 5

/-- MISC-MEM (R118, R127). -/
def decodeMiscMem (p : Parcel) : Except DecodeError Instr :=
  if p.extractLsb' 7 5 = 0 ∧ p.extractLsb' 15 5 = 0 then
    match (p.extractLsb' 12 3).toNat with
    | 0 =>
      if p.extractLsb' 28 4 = 0 then .ok (.fence (p.extractLsb' 24 4) (p.extractLsb' 20 4))
      else if p.extractLsb' 20 12 = 0x833 then .ok .fenceTso
      else .error .malformed
    | 1 => if p.extractLsb' 20 12 = 0 then .ok .fenceI else .error .malformed
    | _ => .error .reservedFunction
  else .error .malformed

/-- SYSTEM (R118). -/
def decodeSystem (p : Parcel) : Except DecodeError Instr :=
  let rd := p.extractLsb' 7 5
  let rs1 := p.extractLsb' 15 5
  let csr := p.extractLsb' 20 12
  match (p.extractLsb' 12 3).toNat with
  | 0 =>
    if rd = 0 ∧ rs1 = 0 ∧ csr = 0 then .ok .ecall
    else if rd = 0 ∧ rs1 = 0 ∧ csr = 1 then .ok .ebreak
    else .error .malformed
  | 1 => .ok (.csrrw rd csr rs1)
  | 2 => .ok (.csrrs rd csr rs1)
  | 3 => .ok (.csrrc rd csr rs1)
  | 5 => .ok (.csrrwi rd csr rs1)
  | 6 => .ok (.csrrsi rd csr rs1)
  | 7 => .ok (.csrrci rd csr rs1)
  | _ => .error .reservedFunction

/-- The SYNC group of XC (R72). -/
def decodeSync (p : Parcel) : Except DecodeError Instr :=
  let rd := p.extractLsb' 7 5
  let rs1 := p.extractLsb' 15 5
  let rs2 := p.extractLsb' 20 5
  if rd ≠ 0 then .error .malformed
  else
    match (p.extractLsb' 25 7).toNat with
    | 0 => if rs1 = 0 ∧ rs2 = 0 then .ok .step else .error .malformed
    | 1 => .ok (.fencex rs1 rs2)
    | 2 => if p.extractLsb' 21 4 = 0 then .ok (.halt rs1 (p.getLsbD 20)) else .error .malformed
    | 3 => if rs1 = 0 then .ok (.cancel rs2) else .error .malformed
    | _ => .error .reservedFunction

/-- The MSG/BAR group of XC (R72). -/
def decodeMsg (p : Parcel) : Except DecodeError Instr :=
  let rd := p.extractLsb' 7 5
  let rs1 := p.extractLsb' 15 5
  let rs2 := p.extractLsb' 20 5
  match (p.extractLsb' 25 7).toNat with
  | 0 => if rd = 0 then .ok (.sendS rs1 rs2) else .error .malformed
  | 1 => if rd = 0 then .ok (.sendM rs1 rs2) else .error .malformed
  | 2 => if rs1 = 0 ∧ rs2 = 0 then .ok (.recv rd) else .error .malformed
  | 3 => if rs1 = 0 ∧ rs2 = 0 then .ok (.tryrecv rd) else .error .malformed
  | 4 => if rd = 0 then .ok (.binit rs1 rs2) else .error .malformed
  | 5 => if rd = 0 then .ok (.barrive rs1 rs2) else .error .malformed
  | 6 => .ok (.bwait rd rs1 rs2)
  | 7 => .ok (.btest rd rs1 rs2)
  | _ => .error .reservedFunction

/-- The XC container (R70). -/
def decodeXC (p : Parcel) : Except DecodeError Instr :=
  let rd := p.extractLsb' 7 5
  let rs1 := p.extractLsb' 15 5
  let cls := p.extractLsb' 27 3
  let n := p.extractLsb' 20 7
  match (p.extractLsb' 12 3).toNat with
  | 0 =>
    match (p.extractLsb' 30 2).toNat with
    | 0 => .ok (.acq rd cls n rs1)
    | 1 => .ok (.tryacq rd cls n rs1)
    | 2 => .ok (.rel rd cls n rs1)
    | _ => if n = 0 ∧ rs1 = 0 then .ok (.claimq rd cls) else .error .malformed
  | 1 => if rd = 0 then .ok (.loop rs1 (immI p)) else .error .malformed
  | 2 => if rd = 0 ∧ p.extractLsb' 24 8 = 0 then .ok (.fhint rs1 (p.extractLsb' 20 4)) else .error .malformed
  | 3 => if rd = 0 then .ok (.repb rs1 (p.extractLsb' 20 4) (p.extractLsb' 24 4) (p.extractLsb' 28 4)) else .error .malformed
  | 4 => .ok (.bbs (p.getLsbD 31) rs1 (bitIndex p) (offBit p))
  | 5 => .ok (.bbc (p.getLsbD 31) rs1 (bitIndex p) (offBit p))
  | 6 => decodeSync p
  | _ => decodeMsg p

/-- The XV container (R73). -/
def decodeXV (p : Parcel) : Except DecodeError Instr :=
  let l := p.extractLsb' 7 5
  let rs1 := p.extractLsb' 15 5
  let v := p.extractLsb' 20 6
  let w := p.extractLsb' 26 2
  match (p.extractLsb' 12 3).toNat with
  | 0 => if l = 0 then .ok (.vld v rs1 (p.extractLsb' 26 6)) else .error .malformed
  | 1 => if l = 0 then .ok (.vst v rs1 (p.extractLsb' 26 6)) else .error .malformed
  | 2 => if p.extractLsb' 28 4 = 0 then .ok (.vlds w v rs1 l) else .error .malformed
  | 3 => if p.extractLsb' 28 4 = 0 then .ok (.vsts w v rs1 l) else .error .malformed
  | 4 => if p.extractLsb' 28 4 = 0 then .ok (.vins w v rs1 l) else .error .malformed
  | 5 => if p.extractLsb' 29 3 = 0 then .ok (.vext (p.getLsbD 28) w l v rs1) else .error .malformed
  | 6 =>
    if p.extractLsb' 28 4 = 0 ∧ l = 0 then .ok (.vsplat w v rs1)
    else if p.extractLsb' 28 4 = 1 ∧ rs1 = 0 then .ok (.vsplatImm w v l)
    else .error .malformed
  | _ => .error .reservedFunction

/-- The XS container (R74). -/
def decodeXS (p : Parcel) : Except DecodeError Instr :=
  let rs1 := p.extractLsb' 15 5
  if p.extractLsb' 20 12 = 0 ∧ p.extractLsb' 7 5 = 0 then
    match (p.extractLsb' 12 3).toNat with
    | 0 => .ok (.stres rs1)
    | 1 => .ok (.stkill rs1)
    | 2 => .ok (.escal rs1)
    | 3 => if rs1 = 0 then .ok .stret else .error .malformed
    | _ => .error .reservedFunction
  else .error .malformed

/-- An instruction of one parcel, by its major opcode (R68, R118). -/
def decode32 (p : Parcel) : Except DecodeError Instr :=
  let rd := p.extractLsb' 7 5
  let f3 := (p.extractLsb' 12 3).toNat
  let rs1 := p.extractLsb' 15 5
  let rs2 := p.extractLsb' 20 5
  let f7 := (p.extractLsb' 25 7).toNat
  let f6 := (p.extractLsb' 26 6).toNat
  let f5 := (p.extractLsb' 27 5).toNat
  match (p.extractLsb' 0 7).toNat with
  | 0x37 => .ok (.lui rd (immU p))
  | 0x17 => .ok (.auipc rd (immU p))
  | 0x6F => .ok (.jal rd (offJ p))
  | 0x67 =>
    match f3 with
    | 0 => .ok (.jalr rd rs1 (immI p))
    | _ => .error .reservedFunction
  | 0x63 =>
    match f3 with
    | 0 => .ok (.beq rs1 rs2 (offB p))
    | 1 => .ok (.bne rs1 rs2 (offB p))
    | 4 => .ok (.blt rs1 rs2 (offB p))
    | 5 => .ok (.bge rs1 rs2 (offB p))
    | 6 => .ok (.bltu rs1 rs2 (offB p))
    | 7 => .ok (.bgeu rs1 rs2 (offB p))
    | _ => .error .reservedFunction
  | 0x03 =>
    match f3 with
    | 0 => .ok (.lb rd rs1 (immI p))
    | 1 => .ok (.lh rd rs1 (immI p))
    | 2 => .ok (.lw rd rs1 (immI p))
    | 3 => .ok (.ld rd rs1 (immI p))
    | 4 => .ok (.lbu rd rs1 (immI p))
    | 5 => .ok (.lhu rd rs1 (immI p))
    | 6 => .ok (.lwu rd rs1 (immI p))
    | _ => .error .reservedFunction
  | 0x23 =>
    match f3 with
    | 0 => .ok (.sb rs1 rs2 (immS p))
    | 1 => .ok (.sh rs1 rs2 (immS p))
    | 2 => .ok (.sw rs1 rs2 (immS p))
    | 3 => .ok (.sd rs1 rs2 (immS p))
    | _ => .error .reservedFunction
  | 0x13 =>
    match f3 with
    | 0 => .ok (.addi rd rs1 (immI p))
    | 1 => if f6 = 0 then .ok (.slli rd rs1 (p.extractLsb' 20 6)) else .error .reservedFunction
    | 2 => .ok (.slti rd rs1 (immI p))
    | 3 => .ok (.sltiu rd rs1 (immI p))
    | 4 => .ok (.xori rd rs1 (immI p))
    | 5 => if f6 = 0 then .ok (.srli rd rs1 (p.extractLsb' 20 6)) else if f6 = 16 then .ok (.srai rd rs1 (p.extractLsb' 20 6)) else .error .reservedFunction
    | 6 => .ok (.ori rd rs1 (immI p))
    | 7 => .ok (.andi rd rs1 (immI p))
    | _ => .error .reservedFunction
  | 0x1B =>
    match f3 with
    | 0 => .ok (.addiw rd rs1 (immI p))
    | 1 => if f7 = 0 then .ok (.slliw rd rs1 rs2) else .error .reservedFunction
    | 5 => if f7 = 0 then .ok (.srliw rd rs1 rs2) else if f7 = 32 then .ok (.sraiw rd rs1 rs2) else .error .reservedFunction
    | _ => .error .reservedFunction
  | 0x33 =>
    match f3 with
    | 0 => if f7 = 0 then .ok (.add rd rs1 rs2) else if f7 = 32 then .ok (.sub rd rs1 rs2) else if f7 = 1 then .ok (.mul rd rs1 rs2) else .error .reservedFunction
    | 1 => if f7 = 0 then .ok (.sll rd rs1 rs2) else if f7 = 1 then .ok (.mulh rd rs1 rs2) else .error .reservedFunction
    | 2 => if f7 = 0 then .ok (.slt rd rs1 rs2) else if f7 = 1 then .ok (.mulhsu rd rs1 rs2) else .error .reservedFunction
    | 3 => if f7 = 0 then .ok (.sltu rd rs1 rs2) else if f7 = 1 then .ok (.mulhu rd rs1 rs2) else .error .reservedFunction
    | 4 => if f7 = 0 then .ok (.xor rd rs1 rs2) else if f7 = 1 then .ok (.div rd rs1 rs2) else .error .reservedFunction
    | 5 => if f7 = 0 then .ok (.srl rd rs1 rs2) else if f7 = 32 then .ok (.sra rd rs1 rs2) else if f7 = 1 then .ok (.divu rd rs1 rs2) else .error .reservedFunction
    | 6 => if f7 = 0 then .ok (.or rd rs1 rs2) else if f7 = 1 then .ok (.rem rd rs1 rs2) else .error .reservedFunction
    | 7 => if f7 = 0 then .ok (.and rd rs1 rs2) else if f7 = 1 then .ok (.remu rd rs1 rs2) else .error .reservedFunction
    | _ => .error .reservedFunction
  | 0x3B =>
    match f3 with
    | 0 => if f7 = 0 then .ok (.addw rd rs1 rs2) else if f7 = 32 then .ok (.subw rd rs1 rs2) else if f7 = 1 then .ok (.mulw rd rs1 rs2) else .error .reservedFunction
    | 1 => if f7 = 0 then .ok (.sllw rd rs1 rs2) else .error .reservedFunction
    | 4 => if f7 = 1 then .ok (.divw rd rs1 rs2) else .error .reservedFunction
    | 5 => if f7 = 0 then .ok (.srlw rd rs1 rs2) else if f7 = 32 then .ok (.sraw rd rs1 rs2) else if f7 = 1 then .ok (.divuw rd rs1 rs2) else .error .reservedFunction
    | 6 => if f7 = 1 then .ok (.remw rd rs1 rs2) else .error .reservedFunction
    | 7 => if f7 = 1 then .ok (.remuw rd rs1 rs2) else .error .reservedFunction
    | _ => .error .reservedFunction
  | 0x2F =>
    match f3 with
    | 2 =>
      match f5 with
      | 2 => if rs2 = 0 then .ok (.lrW rd rs1 (p.getLsbD 26) (p.getLsbD 25)) else .error .malformed
      | 3 => .ok (.scW rd rs1 rs2 (p.getLsbD 26) (p.getLsbD 25))
      | 1 => .ok (.amoswapW rd rs1 rs2 (p.getLsbD 26) (p.getLsbD 25))
      | 0 => .ok (.amoaddW rd rs1 rs2 (p.getLsbD 26) (p.getLsbD 25))
      | 4 => .ok (.amoxorW rd rs1 rs2 (p.getLsbD 26) (p.getLsbD 25))
      | 12 => .ok (.amoandW rd rs1 rs2 (p.getLsbD 26) (p.getLsbD 25))
      | 8 => .ok (.amoorW rd rs1 rs2 (p.getLsbD 26) (p.getLsbD 25))
      | 16 => .ok (.amominW rd rs1 rs2 (p.getLsbD 26) (p.getLsbD 25))
      | 20 => .ok (.amomaxW rd rs1 rs2 (p.getLsbD 26) (p.getLsbD 25))
      | 24 => .ok (.amominuW rd rs1 rs2 (p.getLsbD 26) (p.getLsbD 25))
      | 28 => .ok (.amomaxuW rd rs1 rs2 (p.getLsbD 26) (p.getLsbD 25))
      | _ => .error .reservedFunction
    | 3 =>
      match f5 with
      | 2 => if rs2 = 0 then .ok (.lrD rd rs1 (p.getLsbD 26) (p.getLsbD 25)) else .error .malformed
      | 3 => .ok (.scD rd rs1 rs2 (p.getLsbD 26) (p.getLsbD 25))
      | 1 => .ok (.amoswapD rd rs1 rs2 (p.getLsbD 26) (p.getLsbD 25))
      | 0 => .ok (.amoaddD rd rs1 rs2 (p.getLsbD 26) (p.getLsbD 25))
      | 4 => .ok (.amoxorD rd rs1 rs2 (p.getLsbD 26) (p.getLsbD 25))
      | 12 => .ok (.amoandD rd rs1 rs2 (p.getLsbD 26) (p.getLsbD 25))
      | 8 => .ok (.amoorD rd rs1 rs2 (p.getLsbD 26) (p.getLsbD 25))
      | 16 => .ok (.amominD rd rs1 rs2 (p.getLsbD 26) (p.getLsbD 25))
      | 20 => .ok (.amomaxD rd rs1 rs2 (p.getLsbD 26) (p.getLsbD 25))
      | 24 => .ok (.amominuD rd rs1 rs2 (p.getLsbD 26) (p.getLsbD 25))
      | 28 => .ok (.amomaxuD rd rs1 rs2 (p.getLsbD 26) (p.getLsbD 25))
      | _ => .error .reservedFunction
    | _ => .error .reservedFunction
  | 0x0F => decodeMiscMem p
  | 0x73 => decodeSystem p
  | 0x0B => decodeXC p
  | 0x2B => decodeXV p
  | 0x7B => decodeXS p
  | _ => .error .reservedOpcode

/-- The fields of an X96 instruction from its three parcels (R75). -/
def unpackX96 (p0 p1 p2 : Parcel) : X96 where
  vd := p0.extractLsb' 15 6
  vs1 := p0.extractLsb' 21 6
  vs2 := p1.extractLsb' 0 6
  vs3 := p1.extractLsb' 6 6
  ty := p1.extractLsb' 12 4
  ty2 := p1.extractLsb' 16 4
  rm := p1.extractLsb' 20 3
  sat := p1.getLsbD 23
  n1 := p1.getLsbD 24
  a1 := p1.getLsbD 25
  n2 := p1.getLsbD 26
  a2 := p1.getLsbD 27
  n3 := p1.getLsbD 28
  a3 := p1.getLsbD 29
  clp := p1.extractLsb' 30 2
  scl := p2.extractLsb' 0 5
  ge := p2.getLsbD 5
  gr := p2.extractLsb' 6 5
  gb := p2.extractLsb' 11 6
  gs := p2.getLsbD 17
  ord := p2.getLsbD 18
  rs := p2.extractLsb' 19 5
  aux := p2.extractLsb' 24 8

/-- The X96 instruction of a class and a function (R84). -/
def x96Instr (cls fn : Nat) (f : X96) : Option Instr :=
  match cls, fn with
  | 0, 0 => some (.vadd f)
  | 0, 1 => some (.vsub f)
  | 0, 2 => some (.vmul f)
  | 0, 3 => some (.vfma f)
  | 0, 4 => some (.vmin f)
  | 0, 5 => some (.vmax f)
  | 0, 6 => some (.vdiv f)
  | 0, 7 => some (.vsqrt f)
  | 0, 8 => some (.vrcp f)
  | 0, 9 => some (.vrsq f)
  | 0, 10 => some (.vexp2 f)
  | 0, 11 => some (.vlog2 f)
  | 0, 12 => some (.vtanh f)
  | 0, 13 => some (.vand f)
  | 0, 14 => some (.vor f)
  | 0, 15 => some (.vxor f)
  | 0, 16 => some (.vshl f)
  | 0, 17 => some (.vshr f)
  | 0, 18 => some (.vmulh f)
  | 0, 19 => some (.vsel f)
  | 1, 0 => some (.vcvt f)
  | 1, 1 => some (.vpackmx f)
  | 1, 2 => some (.vunpkmx f)
  | 1, 3 => some (.vmxexp f)
  | 1, 4 => some (.vtobsi f)
  | 1, 5 => some (.vfrombsi f)
  | 1, 6 => some (.vrand f)
  | 2, 0 => some (.vgather f)
  | 2, 1 => some (.vscatter f)
  | 2, 2 => some (.vldm f)
  | 2, 3 => some (.vstm f)
  | 2, 4 => some (.vamoadd f)
  | 3, 0 => some (.vred f)
  | 3, 1 => some (.vscan f)
  | 3, 2 => some (.vperm f)
  | 3, 3 => some (.vslide f)
  | 3, 4 => some (.vcmp f)
  | 3, 5 => some (.viota f)
  | 3, 6 => some (.vcompress f)
  | 3, 7 => some (.vpopc f)
  | 4, 0 => some (.mzero f)
  | 4, 1 => some (.mma f)
  | 4, 2 => some (.mmag f)
  | 4, 3 => some (.mdrain f)
  | 4, 4 => some (.mdrains f)
  | 4, 5 => some (.mpeek f)
  | 4, 6 => some (.mwait f)
  | 4, 7 => some (.mtld f)
  | 4, 8 => some (.mtsv f)
  | 5, 0 => some (.cpy f)
  | 5, 1 => some (.cpyred f)
  | 5, 2 => some (.cpywb f)
  | 5, 3 => some (.cpyq f)
  | 5, 4 => some (.cpycan f)
  | 6, 0 => some (.xreq f)
  | 6, 1 => some (.xpoll f)
  | 6, 2 => some (.xwait f)
  | 7, 0 => some (.putx f)
  | 7, 1 => some (.putxadd f)
  | 7, 2 => some (.coll f)
  | _, _ => none

/-- The X160 instruction of a class and a function (R76, R84). -/
def x160Instr (cls fn : Nat) (f : X96) (lit : Word) : Option Instr :=
  match cls, fn with
  | 0, 0 => some (.vaddX160 f lit)
  | 0, 1 => some (.vsubX160 f lit)
  | 0, 2 => some (.vmulX160 f lit)
  | 0, 3 => some (.vfmaX160 f lit)
  | 0, 4 => some (.vminX160 f lit)
  | 0, 5 => some (.vmaxX160 f lit)
  | 0, 6 => some (.vdivX160 f lit)
  | 0, 13 => some (.vandX160 f lit)
  | 0, 14 => some (.vorX160 f lit)
  | 0, 15 => some (.vxorX160 f lit)
  | 0, 16 => some (.vshlX160 f lit)
  | 0, 17 => some (.vshrX160 f lit)
  | 0, 18 => some (.vmulhX160 f lit)
  | 0, 19 => some (.vselX160 f lit)
  | 3, 4 => some (.vcmpX160 f lit)
  | _, _ => none

/-- PCHK: every field but RS is zero (R198). -/
def decodePchk (f : X96) : Except DecodeError Instr :=
  if f = { rs := f.rs } then .ok (.pchk f.rs) else .error .malformed

/-- PHINT: the ranges stand where the X96 fields VS2 to TY2 do (R197). -/
def decodePhint (p0 p1 p2 : Parcel) (lit : Word) : Except DecodeError Instr :=
  if p0.extractLsb' 15 12 = 0 ∧ p1.extractLsb' 9 7 = 0 ∧ p1.extractLsb' 25 7 = 0 ∧ p2.extractLsb' 0 24 = 0 then
    .ok (.phint (p1.extractLsb' 0 4) (p1.extractLsb' 4 5) (p1.extractLsb' 16 4) (p1.extractLsb' 20 5)
      (p2.extractLsb' 24 8) lit)
  else .error .malformed

/-- An instruction of three parcels. -/
def decode96 (p0 p1 p2 : Parcel) : Except DecodeError Instr :=
  let f := unpackX96 p0 p1 p2
  let cls := (p0.extractLsb' 7 5).toNat
  let fn := (p0.extractLsb' 27 5).toNat
  if cls = 8 ∧ fn = 1 then decodePchk f
  else
    match x96Instr cls fn f with
    | some i => .ok i
    | none => .error .reservedFunction

/-- An instruction of five parcels. -/
def decode160 (p0 p1 p2 p3 p4 : Parcel) : Except DecodeError Instr :=
  let f := unpackX96 p0 p1 p2
  let cls := (p0.extractLsb' 7 5).toNat
  let fn := (p0.extractLsb' 27 5).toNat
  if cls = 8 ∧ fn = 0 then decodePhint p0 p1 p2 (p4 ++ p3)
  else
    match x160Instr cls fn f (p4 ++ p3) with
    | some i => .ok i
    | none => .error .reservedFunction

/-- The encoding checks after the fields have been read (R68). -/
def checked (i : Instr) : Except DecodeError Instr :=
  if Machine.formOk i then .ok i else .error .malformed

/-- The instruction whose parcels are the whole list. -/
def decodeWhole : List Parcel → Except DecodeError Instr
  | [p] => decode32 p >>= checked
  | [p0, p1, p2] => decode96 p0 p1 p2 >>= checked
  | [p0, p1, p2, p3, p4] => decode160 p0 p1 p2 p3 p4 >>= checked
  | _ => .error .truncated

/-- One instruction from the front of a parcel stream, with the parcels after it (R64, R65). -/
def decodeParcels (ps : List Parcel) : Except DecodeError (Instr × List Parcel) :=
  match ps with
  | [] => .error .truncated
  | p :: _ =>
    match parcelCount p with
    | .error e => .error e
    | .ok n =>
      if ps.length < n then .error .truncated
      else
        match decodeWhole (ps.take n) with
        | .error e => .error e
        | .ok i => .ok (i, ps.drop n)

/-- The parcels of a byte string, little-endian (R64); a rest of fewer than four bytes makes no parcel. -/
def parcelsOf : List Byte → List Parcel
  | b0 :: b1 :: b2 :: b3 :: t => (b3 ++ b2 ++ b1 ++ b0) :: parcelsOf t
  | _ => []

/-- The bytes of a parcel, lowest address first. -/
def parcelBytes (p : Parcel) : List Byte :=
  [p.extractLsb' 0 8, p.extractLsb' 8 8, p.extractLsb' 16 8, p.extractLsb' 24 8]

/-- One instruction from the front of any byte string, with the bytes after it. -/
def decode (bs : List Byte) : Except DecodeError (Instr × List Byte) :=
  match decodeParcels (parcelsOf (bs.take 20)) with
  | .error e => .error e
  | .ok (i, rest) =>
    .ok (i, bs.drop (4 * ((parcelsOf (bs.take 20)).length - rest.length)))

/-- The first parcel of an X96 (len 1) or X160 (len 5) instruction (R75). -/
def packFirst (cls fn : BitVec 5) (len : BitVec 3) (f : X96) : Parcel :=
  fn ++ f.vs1 ++ f.vd ++ len ++ cls ++ 0x7F#7

/-- Its second parcel. -/
def packSecond (f : X96) : Parcel :=
  f.clp ++ BitVec.ofBool f.a3 ++ BitVec.ofBool f.n3 ++ BitVec.ofBool f.a2 ++ BitVec.ofBool f.n2 ++
    BitVec.ofBool f.a1 ++ BitVec.ofBool f.n1 ++ BitVec.ofBool f.sat ++ f.rm ++ f.ty2 ++ f.ty ++ f.vs3 ++ f.vs2

/-- Its third parcel. -/
def packThird (f : X96) : Parcel :=
  f.aux ++ f.rs ++ BitVec.ofBool f.ord ++ BitVec.ofBool f.gs ++ f.gb ++ f.gr ++ BitVec.ofBool f.ge ++ f.scl

/-- The one parcel of an RV, XC, XV or XS instruction; none for the other rows. -/
def encode32 : Instr → Option Parcel
  | .lui rd imm => some (imm ++ rd ++ (55#7))
  | .auipc rd imm => some (imm ++ rd ++ (23#7))
  | .jal rd off => some (off.extractLsb' 19 1 ++ off.extractLsb' 0 10 ++ off.extractLsb' 10 1 ++ off.extractLsb' 11 8 ++ rd ++ (111#7))
  | .jalr rd rs1 imm => some (imm ++ rs1 ++ (0#3) ++ rd ++ (103#7))
  | .beq rs1 rs2 off => some (off.extractLsb' 11 1 ++ off.extractLsb' 4 6 ++ rs2 ++ rs1 ++ (0#3) ++ off.extractLsb' 0 4 ++ off.extractLsb' 10 1 ++ (99#7))
  | .bne rs1 rs2 off => some (off.extractLsb' 11 1 ++ off.extractLsb' 4 6 ++ rs2 ++ rs1 ++ (1#3) ++ off.extractLsb' 0 4 ++ off.extractLsb' 10 1 ++ (99#7))
  | .blt rs1 rs2 off => some (off.extractLsb' 11 1 ++ off.extractLsb' 4 6 ++ rs2 ++ rs1 ++ (4#3) ++ off.extractLsb' 0 4 ++ off.extractLsb' 10 1 ++ (99#7))
  | .bge rs1 rs2 off => some (off.extractLsb' 11 1 ++ off.extractLsb' 4 6 ++ rs2 ++ rs1 ++ (5#3) ++ off.extractLsb' 0 4 ++ off.extractLsb' 10 1 ++ (99#7))
  | .bltu rs1 rs2 off => some (off.extractLsb' 11 1 ++ off.extractLsb' 4 6 ++ rs2 ++ rs1 ++ (6#3) ++ off.extractLsb' 0 4 ++ off.extractLsb' 10 1 ++ (99#7))
  | .bgeu rs1 rs2 off => some (off.extractLsb' 11 1 ++ off.extractLsb' 4 6 ++ rs2 ++ rs1 ++ (7#3) ++ off.extractLsb' 0 4 ++ off.extractLsb' 10 1 ++ (99#7))
  | .lb rd rs1 imm => some (imm ++ rs1 ++ (0#3) ++ rd ++ (3#7))
  | .lh rd rs1 imm => some (imm ++ rs1 ++ (1#3) ++ rd ++ (3#7))
  | .lw rd rs1 imm => some (imm ++ rs1 ++ (2#3) ++ rd ++ (3#7))
  | .ld rd rs1 imm => some (imm ++ rs1 ++ (3#3) ++ rd ++ (3#7))
  | .lbu rd rs1 imm => some (imm ++ rs1 ++ (4#3) ++ rd ++ (3#7))
  | .lhu rd rs1 imm => some (imm ++ rs1 ++ (5#3) ++ rd ++ (3#7))
  | .lwu rd rs1 imm => some (imm ++ rs1 ++ (6#3) ++ rd ++ (3#7))
  | .sb rs1 rs2 imm => some (imm.extractLsb' 5 7 ++ rs2 ++ rs1 ++ (0#3) ++ imm.extractLsb' 0 5 ++ (35#7))
  | .sh rs1 rs2 imm => some (imm.extractLsb' 5 7 ++ rs2 ++ rs1 ++ (1#3) ++ imm.extractLsb' 0 5 ++ (35#7))
  | .sw rs1 rs2 imm => some (imm.extractLsb' 5 7 ++ rs2 ++ rs1 ++ (2#3) ++ imm.extractLsb' 0 5 ++ (35#7))
  | .sd rs1 rs2 imm => some (imm.extractLsb' 5 7 ++ rs2 ++ rs1 ++ (3#3) ++ imm.extractLsb' 0 5 ++ (35#7))
  | .addi rd rs1 imm => some (imm ++ rs1 ++ (0#3) ++ rd ++ (19#7))
  | .slti rd rs1 imm => some (imm ++ rs1 ++ (2#3) ++ rd ++ (19#7))
  | .sltiu rd rs1 imm => some (imm ++ rs1 ++ (3#3) ++ rd ++ (19#7))
  | .xori rd rs1 imm => some (imm ++ rs1 ++ (4#3) ++ rd ++ (19#7))
  | .ori rd rs1 imm => some (imm ++ rs1 ++ (6#3) ++ rd ++ (19#7))
  | .andi rd rs1 imm => some (imm ++ rs1 ++ (7#3) ++ rd ++ (19#7))
  | .slli rd rs1 sh => some ((0#6) ++ sh ++ rs1 ++ (1#3) ++ rd ++ (19#7))
  | .srli rd rs1 sh => some ((0#6) ++ sh ++ rs1 ++ (5#3) ++ rd ++ (19#7))
  | .srai rd rs1 sh => some ((16#6) ++ sh ++ rs1 ++ (5#3) ++ rd ++ (19#7))
  | .addiw rd rs1 imm => some (imm ++ rs1 ++ (0#3) ++ rd ++ (27#7))
  | .slliw rd rs1 sh => some ((0#7) ++ sh ++ rs1 ++ (1#3) ++ rd ++ (27#7))
  | .srliw rd rs1 sh => some ((0#7) ++ sh ++ rs1 ++ (5#3) ++ rd ++ (27#7))
  | .sraiw rd rs1 sh => some ((32#7) ++ sh ++ rs1 ++ (5#3) ++ rd ++ (27#7))
  | .add rd rs1 rs2 => some ((0#7) ++ rs2 ++ rs1 ++ (0#3) ++ rd ++ (51#7))
  | .sub rd rs1 rs2 => some ((32#7) ++ rs2 ++ rs1 ++ (0#3) ++ rd ++ (51#7))
  | .sll rd rs1 rs2 => some ((0#7) ++ rs2 ++ rs1 ++ (1#3) ++ rd ++ (51#7))
  | .slt rd rs1 rs2 => some ((0#7) ++ rs2 ++ rs1 ++ (2#3) ++ rd ++ (51#7))
  | .sltu rd rs1 rs2 => some ((0#7) ++ rs2 ++ rs1 ++ (3#3) ++ rd ++ (51#7))
  | .xor rd rs1 rs2 => some ((0#7) ++ rs2 ++ rs1 ++ (4#3) ++ rd ++ (51#7))
  | .srl rd rs1 rs2 => some ((0#7) ++ rs2 ++ rs1 ++ (5#3) ++ rd ++ (51#7))
  | .sra rd rs1 rs2 => some ((32#7) ++ rs2 ++ rs1 ++ (5#3) ++ rd ++ (51#7))
  | .or rd rs1 rs2 => some ((0#7) ++ rs2 ++ rs1 ++ (6#3) ++ rd ++ (51#7))
  | .and rd rs1 rs2 => some ((0#7) ++ rs2 ++ rs1 ++ (7#3) ++ rd ++ (51#7))
  | .mul rd rs1 rs2 => some ((1#7) ++ rs2 ++ rs1 ++ (0#3) ++ rd ++ (51#7))
  | .mulh rd rs1 rs2 => some ((1#7) ++ rs2 ++ rs1 ++ (1#3) ++ rd ++ (51#7))
  | .mulhsu rd rs1 rs2 => some ((1#7) ++ rs2 ++ rs1 ++ (2#3) ++ rd ++ (51#7))
  | .mulhu rd rs1 rs2 => some ((1#7) ++ rs2 ++ rs1 ++ (3#3) ++ rd ++ (51#7))
  | .div rd rs1 rs2 => some ((1#7) ++ rs2 ++ rs1 ++ (4#3) ++ rd ++ (51#7))
  | .divu rd rs1 rs2 => some ((1#7) ++ rs2 ++ rs1 ++ (5#3) ++ rd ++ (51#7))
  | .rem rd rs1 rs2 => some ((1#7) ++ rs2 ++ rs1 ++ (6#3) ++ rd ++ (51#7))
  | .remu rd rs1 rs2 => some ((1#7) ++ rs2 ++ rs1 ++ (7#3) ++ rd ++ (51#7))
  | .addw rd rs1 rs2 => some ((0#7) ++ rs2 ++ rs1 ++ (0#3) ++ rd ++ (59#7))
  | .subw rd rs1 rs2 => some ((32#7) ++ rs2 ++ rs1 ++ (0#3) ++ rd ++ (59#7))
  | .sllw rd rs1 rs2 => some ((0#7) ++ rs2 ++ rs1 ++ (1#3) ++ rd ++ (59#7))
  | .srlw rd rs1 rs2 => some ((0#7) ++ rs2 ++ rs1 ++ (5#3) ++ rd ++ (59#7))
  | .sraw rd rs1 rs2 => some ((32#7) ++ rs2 ++ rs1 ++ (5#3) ++ rd ++ (59#7))
  | .mulw rd rs1 rs2 => some ((1#7) ++ rs2 ++ rs1 ++ (0#3) ++ rd ++ (59#7))
  | .divw rd rs1 rs2 => some ((1#7) ++ rs2 ++ rs1 ++ (4#3) ++ rd ++ (59#7))
  | .divuw rd rs1 rs2 => some ((1#7) ++ rs2 ++ rs1 ++ (5#3) ++ rd ++ (59#7))
  | .remw rd rs1 rs2 => some ((1#7) ++ rs2 ++ rs1 ++ (6#3) ++ rd ++ (59#7))
  | .remuw rd rs1 rs2 => some ((1#7) ++ rs2 ++ rs1 ++ (7#3) ++ rd ++ (59#7))
  | .lrW rd rs1 aq rl => some ((2#5) ++ BitVec.ofBool aq ++ BitVec.ofBool rl ++ (0#5) ++ rs1 ++ (2#3) ++ rd ++ (47#7))
  | .lrD rd rs1 aq rl => some ((2#5) ++ BitVec.ofBool aq ++ BitVec.ofBool rl ++ (0#5) ++ rs1 ++ (3#3) ++ rd ++ (47#7))
  | .scW rd rs1 rs2 aq rl => some ((3#5) ++ BitVec.ofBool aq ++ BitVec.ofBool rl ++ rs2 ++ rs1 ++ (2#3) ++ rd ++ (47#7))
  | .scD rd rs1 rs2 aq rl => some ((3#5) ++ BitVec.ofBool aq ++ BitVec.ofBool rl ++ rs2 ++ rs1 ++ (3#3) ++ rd ++ (47#7))
  | .amoswapW rd rs1 rs2 aq rl => some ((1#5) ++ BitVec.ofBool aq ++ BitVec.ofBool rl ++ rs2 ++ rs1 ++ (2#3) ++ rd ++ (47#7))
  | .amoswapD rd rs1 rs2 aq rl => some ((1#5) ++ BitVec.ofBool aq ++ BitVec.ofBool rl ++ rs2 ++ rs1 ++ (3#3) ++ rd ++ (47#7))
  | .amoaddW rd rs1 rs2 aq rl => some ((0#5) ++ BitVec.ofBool aq ++ BitVec.ofBool rl ++ rs2 ++ rs1 ++ (2#3) ++ rd ++ (47#7))
  | .amoaddD rd rs1 rs2 aq rl => some ((0#5) ++ BitVec.ofBool aq ++ BitVec.ofBool rl ++ rs2 ++ rs1 ++ (3#3) ++ rd ++ (47#7))
  | .amoxorW rd rs1 rs2 aq rl => some ((4#5) ++ BitVec.ofBool aq ++ BitVec.ofBool rl ++ rs2 ++ rs1 ++ (2#3) ++ rd ++ (47#7))
  | .amoxorD rd rs1 rs2 aq rl => some ((4#5) ++ BitVec.ofBool aq ++ BitVec.ofBool rl ++ rs2 ++ rs1 ++ (3#3) ++ rd ++ (47#7))
  | .amoandW rd rs1 rs2 aq rl => some ((12#5) ++ BitVec.ofBool aq ++ BitVec.ofBool rl ++ rs2 ++ rs1 ++ (2#3) ++ rd ++ (47#7))
  | .amoandD rd rs1 rs2 aq rl => some ((12#5) ++ BitVec.ofBool aq ++ BitVec.ofBool rl ++ rs2 ++ rs1 ++ (3#3) ++ rd ++ (47#7))
  | .amoorW rd rs1 rs2 aq rl => some ((8#5) ++ BitVec.ofBool aq ++ BitVec.ofBool rl ++ rs2 ++ rs1 ++ (2#3) ++ rd ++ (47#7))
  | .amoorD rd rs1 rs2 aq rl => some ((8#5) ++ BitVec.ofBool aq ++ BitVec.ofBool rl ++ rs2 ++ rs1 ++ (3#3) ++ rd ++ (47#7))
  | .amominW rd rs1 rs2 aq rl => some ((16#5) ++ BitVec.ofBool aq ++ BitVec.ofBool rl ++ rs2 ++ rs1 ++ (2#3) ++ rd ++ (47#7))
  | .amominD rd rs1 rs2 aq rl => some ((16#5) ++ BitVec.ofBool aq ++ BitVec.ofBool rl ++ rs2 ++ rs1 ++ (3#3) ++ rd ++ (47#7))
  | .amomaxW rd rs1 rs2 aq rl => some ((20#5) ++ BitVec.ofBool aq ++ BitVec.ofBool rl ++ rs2 ++ rs1 ++ (2#3) ++ rd ++ (47#7))
  | .amomaxD rd rs1 rs2 aq rl => some ((20#5) ++ BitVec.ofBool aq ++ BitVec.ofBool rl ++ rs2 ++ rs1 ++ (3#3) ++ rd ++ (47#7))
  | .amominuW rd rs1 rs2 aq rl => some ((24#5) ++ BitVec.ofBool aq ++ BitVec.ofBool rl ++ rs2 ++ rs1 ++ (2#3) ++ rd ++ (47#7))
  | .amominuD rd rs1 rs2 aq rl => some ((24#5) ++ BitVec.ofBool aq ++ BitVec.ofBool rl ++ rs2 ++ rs1 ++ (3#3) ++ rd ++ (47#7))
  | .amomaxuW rd rs1 rs2 aq rl => some ((28#5) ++ BitVec.ofBool aq ++ BitVec.ofBool rl ++ rs2 ++ rs1 ++ (2#3) ++ rd ++ (47#7))
  | .amomaxuD rd rs1 rs2 aq rl => some ((28#5) ++ BitVec.ofBool aq ++ BitVec.ofBool rl ++ rs2 ++ rs1 ++ (3#3) ++ rd ++ (47#7))
  | .fence pred succ => some (0#4 ++ pred ++ succ ++ 0#5 ++ 0#3 ++ 0#5 ++ (15#7))
  | .fenceTso => some (8#4 ++ 3#4 ++ 3#4 ++ 0#5 ++ 0#3 ++ 0#5 ++ (15#7))
  | .fenceI => some (0#12 ++ 0#5 ++ 1#3 ++ 0#5 ++ (15#7))
  | .ecall => some (0#12 ++ 0#5 ++ 0#3 ++ 0#5 ++ (115#7))
  | .ebreak => some (1#12 ++ 0#5 ++ 0#3 ++ 0#5 ++ (115#7))
  | .csrrw rd csr rs1 => some (csr ++ rs1 ++ (1#3) ++ rd ++ (115#7))
  | .csrrs rd csr rs1 => some (csr ++ rs1 ++ (2#3) ++ rd ++ (115#7))
  | .csrrc rd csr rs1 => some (csr ++ rs1 ++ (3#3) ++ rd ++ (115#7))
  | .csrrwi rd csr uimm => some (csr ++ uimm ++ (5#3) ++ rd ++ (115#7))
  | .csrrsi rd csr uimm => some (csr ++ uimm ++ (6#3) ++ rd ++ (115#7))
  | .csrrci rd csr uimm => some (csr ++ uimm ++ (7#3) ++ rd ++ (115#7))
  | .acq rd cls n rs1 => some ((0#2) ++ cls ++ n ++ rs1 ++ (0#3) ++ rd ++ (11#7))
  | .tryacq rd cls n rs1 => some ((1#2) ++ cls ++ n ++ rs1 ++ (0#3) ++ rd ++ (11#7))
  | .rel rd cls n rs1 => some ((2#2) ++ cls ++ n ++ rs1 ++ (0#3) ++ rd ++ (11#7))
  | .claimq rd cls => some (3#2 ++ cls ++ 0#7 ++ 0#5 ++ 0#3 ++ rd ++ (11#7))
  | .loop rs1 n => some (n ++ rs1 ++ 1#3 ++ 0#5 ++ (11#7))
  | .fhint rs1 k => some (0#8 ++ k ++ rs1 ++ 2#3 ++ 0#5 ++ (11#7))
  | .repb rs1 n stride mask => some (mask ++ stride ++ n ++ rs1 ++ 3#3 ++ 0#5 ++ (11#7))
  | .bbs h rs1 b off => some (BitVec.ofBool h ++ off.extractLsb' 4 6 ++ b.extractLsb' 0 5 ++ rs1 ++ (4#3) ++ off.extractLsb' 0 4 ++ b.extractLsb' 5 1 ++ (11#7))
  | .bbc h rs1 b off => some (BitVec.ofBool h ++ off.extractLsb' 4 6 ++ b.extractLsb' 0 5 ++ rs1 ++ (5#3) ++ off.extractLsb' 0 4 ++ b.extractLsb' 5 1 ++ (11#7))
  | .step => some (0#7 ++ 0#5 ++ 0#5 ++ 6#3 ++ 0#5 ++ (11#7))
  | .fencex a b => some (1#7 ++ b ++ a ++ 6#3 ++ 0#5 ++ (11#7))
  | .halt rs1 retain => some (2#7 ++ 0#4 ++ BitVec.ofBool retain ++ rs1 ++ 6#3 ++ 0#5 ++ (11#7))
  | .cancel scope => some (3#7 ++ scope ++ 0#5 ++ 6#3 ++ 0#5 ++ (11#7))
  | .sendS rs1 rs2 => some (0#7 ++ rs2 ++ rs1 ++ 7#3 ++ 0#5 ++ (11#7))
  | .sendM rs1 rs2 => some (1#7 ++ rs2 ++ rs1 ++ 7#3 ++ 0#5 ++ (11#7))
  | .recv rd => some (2#7 ++ 0#5 ++ 0#5 ++ 7#3 ++ rd ++ (11#7))
  | .tryrecv rd => some (3#7 ++ 0#5 ++ 0#5 ++ 7#3 ++ rd ++ (11#7))
  | .binit rs1 rs2 => some (4#7 ++ rs2 ++ rs1 ++ 7#3 ++ 0#5 ++ (11#7))
  | .barrive rs1 rs2 => some (5#7 ++ rs2 ++ rs1 ++ 7#3 ++ 0#5 ++ (11#7))
  | .bwait rd rs1 rs2 => some (6#7 ++ rs2 ++ rs1 ++ 7#3 ++ rd ++ (11#7))
  | .btest rd rs1 rs2 => some (7#7 ++ rs2 ++ rs1 ++ 7#3 ++ rd ++ (11#7))
  | .vld v rs1 imm => some (imm ++ v ++ rs1 ++ 0#3 ++ 0#5 ++ (43#7))
  | .vst v rs1 imm => some (imm ++ v ++ rs1 ++ 1#3 ++ 0#5 ++ (43#7))
  | .vlds w v rs1 rs2 => some (0#4 ++ w ++ v ++ rs1 ++ 2#3 ++ rs2 ++ (43#7))
  | .vsts w v rs1 rs2 => some (0#4 ++ w ++ v ++ rs1 ++ 3#3 ++ rs2 ++ (43#7))
  | .vins w v rs1 rs2 => some (0#4 ++ w ++ v ++ rs1 ++ 4#3 ++ rs2 ++ (43#7))
  | .vext u w rd v rs1 => some (0#3 ++ BitVec.ofBool u ++ w ++ v ++ rs1 ++ 5#3 ++ rd ++ (43#7))
  | .vsplat w v rs1 => some (0#4 ++ w ++ v ++ rs1 ++ 6#3 ++ 0#5 ++ (43#7))
  | .vsplatImm w v imm => some (1#4 ++ w ++ v ++ 0#5 ++ 6#3 ++ imm ++ (43#7))
  | .stres rs1 => some (0#12 ++ rs1 ++ 0#3 ++ 0#5 ++ (123#7))
  | .stkill rs1 => some (0#12 ++ rs1 ++ 1#3 ++ 0#5 ++ (123#7))
  | .escal rs1 => some (0#12 ++ rs1 ++ 2#3 ++ 0#5 ++ (123#7))
  | .stret => some (0#12 ++ 0#5 ++ 3#3 ++ 0#5 ++ (123#7))
  | _ => none

/-- The parcels of an instruction; an event has none. -/
def encode (i : Instr) : List Parcel :=
  match encode32 i with
  | some p => [p]
  | none =>
    match Machine.x96Of i with
    | some (cls, fn, f) => [packFirst (.ofNat 5 cls) (.ofNat 5 fn) 1 f, packSecond f, packThird f]
    | none =>
      match Machine.x160Of i with
      | some (cls, fn, f, lit) =>
        [packFirst (.ofNat 5 cls) (.ofNat 5 fn) 5 f, packSecond f, packThird f,
          lit.extractLsb' 0 32, lit.extractLsb' 32 32]
      | none =>
        match i with
        | .pchk rd => [packFirst 8 1 1 {}, 0, packThird { rs := rd }]
        | .phint f0 c0 f1 c1 smask vmask =>
          [packFirst 8 0 5 {}, 0#7 ++ c1 ++ f1 ++ 0#7 ++ c0 ++ f0, smask ++ 0#24,
            vmask.extractLsb' 0 32, vmask.extractLsb' 32 32]
        | _ => []

/-- The bytes of an instruction in memory (R64). -/
def encodeBytes (i : Instr) : List Byte := (encode i).flatMap parcelBytes

/-- The instruction of a word numbered as spec/opcode_table.json numbers it: the first parcel is bits [31:0]. -/
def decodeTableWord (nbits w : Nat) : Option Instr :=
  let bits := BitVec.ofNat 160 (w % 2 ^ nbits)
  match decode ((List.range 20).map (fun k => bits.extractLsb' (8 * k) 8)) with
  | .ok (i, _) => some i
  | .error _ => none

end Sys2Proof
end

