-- ==== Sys2Proof/Machine/State.lean ====
section
/-! DEFINITION. The state of one package (spec/04 R98, spec/08, spec/10 to 13, spec/17, spec/18, spec/20, spec/21), as
plain data, and the machine right after reset. Numbers: die d is 0 to 3; cluster C = die × 96 + die-local cluster;
core K = C × 8 + index, so that K mod 768 is the die-local core number; run numbers count launches. -/

namespace Sys2Proof.Machine

/-- A storage space. An address is a byte number in it: device or host physical address; core × 196,608 + P for the
scratchpads (R187); cluster × 8 MiB + offset for the weight buffers (R262). -/
inductive Space where
  | dev | host | spad | wbuf
  deriving DecidableEq, Repr

/-- The states of a strand's life (R113). SAVED and RETAINED strands hold no slot. -/
inductive Life where
  | running | blocked | frozen | saved | retained | ended
  deriving DecidableEq, Repr

/-- Who issues: a strand, or a core's handler context (R178, R191). -/
inductive Party where
  | strand (k : StrandKey)
  | handler (core : Nat)
  deriving DecidableEq, Repr

/-- A fault packet (R192). `key` is the trapping strand; a handler context's own packet has `ofHandler` set. -/
structure Packet where
  key : StrandKey := ⟨0, 0⟩
  cause : BitVec 8 := 0
  fetch : Bool := false
  phys : Nat := 0
  pc : Word := 0
  tval : Word := 0
  gtc : Nat := 0
  launch : Nat := 0
  job : Nat := 0
  ofHandler : Bool := false
  deriving DecidableEq, Repr

/-- A load-reserved reservation (R123): width, address, space and number of its 8-byte word, cycle of the LR. -/
structure Reservation where
  width : Nat
  ea : Word
  space : Space
  word : Nat
  cycle : Nat
  deriving DecidableEq, Repr

/-- The operation of a base atomic (R122). -/
inductive AmoOp where
  | swap | add | xor | and | or | min | max | minu | maxu
  deriving DecidableEq, Repr

/-- A base atomic as the home serves it: LR, SC or an AMO (R122, R123). -/
inductive Atomic where
  | lr
  | sc (v : Word)
  | amo (op : AmoOp) (v : Word)
  deriving DecidableEq, Repr

/-- The destination and conversion of a drain or peek (R253 to R255). `rows` pairs slot rows with sg1 offsets. -/
structure DrainOp where
  kind : Nat
  ty : Nat
  ty2 : Nat
  mode : Nat
  sat : Bool
  row0 : Nat
  col0 : Nat
  tensor : Nat
  step : Nat
  rows : List (Nat × Nat)
  deriving DecidableEq, Repr

/-- What a BLOCKED strand waits on, with all that its instruction still has to do. -/
inductive Wait where
  /-- a claim request in a queue (R219) -/
  | acq (rd : BitVec 5)
  /-- a release that waits for earlier commands (R223) -/
  | rel (rd : BitVec 5) (cls amount : Nat)
  /-- BWAIT on barrier bytes (R298) -/
  | bwait (rd : BitVec 5) (ptr : Word) (phase : Nat)
  /-- RECV (R302) -/
  | recv (rd : BitVec 5)
  /-- SEND to a strand, by form (R301), with the instruction's first parcel -/
  | send (multi : Bool) (target : Nat) (payload parcel : Word)
  /-- XWAIT on a request block (R235) -/
  | xwait (rd : BitVec 5) (ptr : Word)
  /-- STEP before its arrival, and after it (R342) -/
  | stepFence
  | stepLanding
  /-- MWAIT (R257): one slot, or every command -/
  | mwait (slot : Option Nat)
  /-- MDRAIN or MDRAINS (R256), MTSV (R270): the command, and the slot whose faults it covers -/
  | drain (id : Nat) (slot : Option Nat)
  /-- MPEEK (R256): the crew's slot, the count GPR, and the conversion -/
  | peek (slot : Nat) (rd : BitVec 5) (op : DrainOp)
  /-- HALT before it ends the strand (R138), with its first parcel -/
  | halt (tag : Word) (retain : Bool) (parcel : Word)
  /-- FENCEX masks (R327) -/
  | fencex (a b : Nat)
  /-- an atomic that its home holds for an arrival round or a replay (R384, R388) -/
  | atomic (op : Atomic) (width : Nat) (rd : BitVec 5) (ea : Word) (aq rl : Bool)
  deriving DecidableEq, Repr

/-- An active repetition (R184): where the body starts, its instructions with their byte offsets and lengths, the
position, and the fields of `repst`. -/
structure Rep where
  base : Word
  body : List (Instr × Nat × Nat)
  idx : Nat
  pass : Nat
  count : Nat
  stride : Nat
  mask : Nat
  deriving DecidableEq, Repr

/-- An engine fault that waits for its completion point (R259, R288, R411). `order` is the strand's issue order. -/
structure PendFault where
  order : Nat
  cause : BitVec 8
  fetch : Bool
  tval : Word
  /-- the crew slot it stands at, for matrix faults (an MTLD fault has none) -/
  slot : Option Nat
  /-- the barrier it is reported at, for copy and COLL faults; a matrix unit fault has none -/
  barrier : Option Word
  /-- the source and the logged address of its event record -/
  src : Nat
  addr : Nat
  deriving DecidableEq, Repr

/-- A strand (R98). -/
structure Strand where
  key : StrandKey
  ctx : Nat := 0
  life : Life := .running
  /-- its core, and its slot there -/
  core : Nat := 0
  slot : Nat := 0
  pc : Word := 0
  x : Tab Word := []
  dead : BitVec 32 := 0
  v : Tab VReg := []
  /-- granted VREG blocks (R101) -/
  vblocks : Nat := 0
  /-- physical granules in grant order (R111) -/
  granules : List Nat := []
  lpcount : Word := 0
  lpstart : Word := 0
  lpend : Word := 0
  deadmask : Word := 0
  vxflags : Word := 0
  vxrm : Word := 0
  srtensor : Word := 0
  srstep : Word := 0
  ringbase : Word := 0
  ringsize : Word := 0
  ringhead : Word := 0
  ringsend : Word := 0
  repst : Word := 0
  ringtail : Nat := 0
  draw : Word := 0
  /-- sg0 to sg15; an unlisted one holds the all-zero descriptor (R107) -/
  segs : Tab DescBits := []
  resv : Option Reservation := none
  wait : Option (Nat × Wait) := none
  rep : Option Rep := none
  /-- the body must be captured again before the next issue (R186) -/
  recapture : Bool := false
  /-- the last fault packet (R194) and who disposes of it -/
  packet : Option Packet := none
  escalated : Bool := false
  /-- the ring's recorded sender, and the strands that have sent to it since it was configured (R299, R303) -/
  ringFrom : Option Nat := none
  ringSenders : List Nat := []
  /-- VAMOADD.o sequence number (R169), transfer sequence number (R344) -/
  ordSeq : Nat := 0
  putSeq : Nat := 0
  /-- engine commands issued so far: the issue order of commands -/
  issued : Nat := 0
  faults : List PendFault := []
  /-- transform requests that ended in ERROR: block, cause, logged address (R232, R235) -/
  xerrors : List (Word × BitVec 8 × Word) := []
  /-- pending delivery faults: destination pointers (R348) -/
  deliveries : List Word := []
  /-- cycle at which the present pre-emption request began to count (R199), and at which it began to wait (R222, R351) -/
  preSince : Option Nat := none
  /-- cycle of the last freeze (R114: frozen cycles do not count) and a cancel that waits for a pass boundary (R140) -/
  frozenAt : Nat := 0
  cancelPending : Bool := false
  waitSince : Nat := 0
  /-- cycle at which the present instruction blocked (R388), and the manifest index at which the strand has diverged -/
  blockedAt : Nat := 0
  diverged : Option Nat := none
  /-- order-sensitive accesses made, by location number (R384) -/
  rounds : Tab Nat := []
  /-- save area: address and size (R200) -/
  saveAddr : Nat := 0
  saveSize : Nat := 0
  /-- live set named by the PHINT that began the save: registers, granules, slots; and whether it is forced (R197, R199) -/
  saving : Option (BitVec 64 × BitVec 16 × BitVec 8 × Bool) := none
  arrived : Bool := false
  /-- RETAINED before: the strand that has inherited its holding, and how many of the inherited granules that one still has
  (R170, R226) -/
  heir : Option (StrandKey × Nat) := none
  deriving DecidableEq, Repr

/-- An accumulator slot (R28, R103, R256, R259). W and N by element number row × 128 + column. -/
structure SlotSt where
  w : Tab Int := []
  n : Tab Bool := []
  anchor : Int := 0
  ovf : Bool := false
  master : Option StrandKey := none
  opened : Bool := false
  poisoned : Bool := false
  steps : Nat := 0
  /-- its storage holds an uncorrectable error that no unit has read yet (R260) -/
  bad : Bool := false
  deriving DecidableEq, Repr

/-- An MMA or MMAG (R250 to R252): sg1 offsets of the operands, the list of rows, the decoder table or none. -/
structure MmaOp where
  fa : Nat
  fb : Nat
  k : Nat
  stride : Nat
  a : Nat
  b : Nat
  rows : Option (List Nat)
  tab : Option Nat
  step : Nat
  deriving DecidableEq, Repr

inductive MatrixOp where
  | mzero (anchor : Int)
  | mma (op : MmaOp)
  | drain (op : DrainOp)
  | mtld (tab fmt ptr : Nat)
  | mtsv (tab ptr : Nat)
  deriving DecidableEq, Repr

/-- A matrix command in a core's queue (R239). `slot` is the cluster's slot; `m` its name in the crew. -/
structure MatrixCmd where
  id : Nat
  key : StrandKey
  order : Nat
  core : Nat
  granules : List Nat
  slot : Option Nat
  m : Nat
  op : MatrixOp
  deriving DecidableEq, Repr

/-- A decoder table (R267): 0 EMPTY, 1 VALID, 2 INVALID. -/
structure DecTable where
  state : Nat := 0
  fmt : Nat := 0
  freq : List Nat := []
  deriving DecidableEq, Repr

/-- A copy command (R279): 0 CPY, 1 CPYRED.u, 2 CPYRED.o, 3 CPYWB. -/
structure CopyCmd where
  id : Nat
  key : StrandKey
  order : Nat
  kind : Nat
  record : List Byte
  barrier : Word
  instr : List Byte
  total : Nat
  done : Nat
  /-- destination bytes of one element -/
  unit : Nat
  /-- the ordered sequence number it took, when its additions may have to be posted (R290) -/
  seq : Option Nat
  /-- whether every addition is posted: issued after the OVERFLOW record into GLOBAL -/
  posts : Bool
  /-- the source bytes of the row in hand, with their poison, once they are read (R287, assumption 64) -/
  row : Option (List Byte × List Bool) := none
  /-- the cycle at which it last went on (R388) -/
  since : Nat := 0
  deriving DecidableEq, Repr

/-- A transform request (R227 to R232). STATE 1 QUEUED or 2 RUNNING. -/
structure XformReq where
  key : StrandKey
  ptr : Word
  block : List Byte
  state : Nat
  /-- the pieces done, the byte of DST at which ENCODE's next stream starts, and the bytes credited to the barrier (R232, R236) -/
  piece : Nat := 0
  pos : Nat := 0
  credited : Nat := 0
  deriving DecidableEq, Repr

/-- A blocked claim request (R221). -/
structure ClaimReq where
  key : StrandKey
  cls : Nat
  amount : Nat
  since : Nat
  recorded : Bool
  deriving DecidableEq, Repr

/-- A cached translation (R334). -/
structure TlbEntry where
  ctx : Nat
  size : Nat
  vpn : Nat
  pa : Nat
  host : Bool
  r : Bool
  w : Bool
  x : Bool
  dirty : Bool
  deriving DecidableEq, Repr

/-- A cached instruction line (R180). -/
structure ILine where
  ctx : Nat
  line : Nat
  bytes : List Byte
  /-- the step of the demand fill that brought it, or 0 after a hint fill (R182) -/
  demand : Nat
  deriving DecidableEq, Repr

/-- A line in the hint queue (R182): its context and number, the strand that asked, and the step of the hint. -/
structure Hint where
  ctx : Nat
  line : Nat
  key : StrandKey
  step : Nat
  deriving DecidableEq, Repr

/-- A word of an L1 data line that is not I (R316), by its word number: O when `own`, else V. `seen` names the moment whose home it
shows, until the core owns it there: its fill, or the revoke (R323, R324; assumption 62). -/
structure L1Word where
  own : Bool
  data : BitVec 32
  seen : Nat := 0
  deriving DecidableEq, Repr

/-- A store sent to its home and not yet registered (R317). -/
structure PendStore where
  key : StrandKey
  pa : Nat
  data : List Byte
  deriving DecidableEq, Repr

/-- A core (spec/08). -/
structure Core where
  /-- the party the issue pointer names: 0 to 3 the slots, 4 the handler (R178) -/
  pointer : Nat := 0
  l1 : Tab L1Word := []
  /-- the 32-byte lines that the L1 data cache holds, the most recently used first (R189) -/
  l1order : List Nat := []
  stores : List PendStore := []
  icache : List ILine := []
  /-- hint lines waiting for their fill (R182) -/
  hints : List Hint := []
  utlb : List TlbEntry := []
  /-- storage that drowses, and the cycle of the last access to each unit, by number (R190) -/
  drowsy : List PowerUnit := []
  lastUse : Tab Nat := []
  failed : Bool := false
  -- the handler context (R191)
  hx : Tab Word := []
  hpc : Word := 0
  hawake : Bool := false
  hfrozen : Bool := false
  hresv : Option Reservation := none
  /-- fault queue and packets that wait to be sent (R192) -/
  faultq : List Packet := []
  outq : List Packet := []
  loaded : Option Packet := none
  valid : Bool := false
  /-- pairtab; none while it holds its reset value, the core's own number xor 1 (R193) -/
  pairtab : Option (BitVec 10) := none
  mxwt : BitVec 4 := 1
  req : BitVec 4 := 0
  savingBits : BitVec 4 := 0
  refused : BitVec 4 := 0
  aborted : BitVec 4 := 0
  deriving DecidableEq, Repr

/-- A crew's holdings and completion (R103, R139, R202). -/
structure Crew where
  run : Nat
  crew : Nat
  cluster : Nat
  mslots : List Nat := []
  xq : Nat := 0
  live : Bool := true
  /-- whether it has surrendered its claims, the strand that was saved last, whose area records them (R202), and the tables (R267) -/
  saved : Bool := false
  lastSaved : Option StrandKey := none
  savedTables : Tab DecTable := []
  /-- of each slot that it surrendered, in grant order: its master and whether it was open (R103, R202) -/
  savedSlots : List (Option StrandKey × Bool) := []
  /-- the die and the entry of the bind record that bound it last (R338) -/
  boundBy : Option (Nat × Nat) := none
  deriving DecidableEq, Repr

/-- A retained holding (R113, R226). -/
structure Retained where
  ctx : Nat
  tag : Word
  key : StrandKey
  core : Nat
  v : Tab VReg
  vblocks : Nat
  granules : List Nat
  mslots : List Nat
  xq : Nat
  since : Nat
  deriving DecidableEq, Repr

/-- Granules that undelivered postings of an ended strand name, by logical number (R350). -/
structure PostHold where
  run : Nat
  crew : Nat
  key : StrandKey
  core : Nat
  granules : Tab Nat
  deriving DecidableEq, Repr

/-- A cluster (spec/10 to 13). -/
structure Cluster where
  slots : Tab SlotSt := []
  mq : Tab (List MatrixCmd) := []
  arbPtr : Nat := 7
  arbCredit : Nat := 0
  tables : Tab DecTable := []
  tablesCtx : Option Nat := none
  /-- tables of the contexts that held the cluster before, as they last stood (R267) -/
  ctxTables : Tab (Tab DecTable) := []
  copies : List CopyCmd := []
  xq : List XformReq := []
  claimq : List ClaimReq := []
  stalled : Bool := false
  refresh : Bool := false
  tlb : List TlbEntry := []
  outOfService : Bool := false
  /-- cycles of MACHINE steps (R392) -/
  machine : List Nat := []
  deriving DecidableEq, Repr

/-- A bind record and its progress (R337, R338): the next crew to bind. -/
structure BindEntry where
  record : BitVec 256
  next : Nat
  deriving DecidableEq, Repr

/-- A queued table walk for a hint line (R335). -/
structure WalkReq where
  core : Nat
  ctx : Nat
  line : Nat
  deriving DecidableEq, Repr

/-- A die. -/
structure Die where
  /-- CLKA cycles since reset (R265), its copy of the GTC (R389), and the clock (R394) -/
  cycles : Nat := 0
  gtc : Nat := 0
  mhz : Nat := 2700
  table : Tab (Option BindEntry) := []
  walkq : List WalkReq := []
  dwinBase : Nat := 0
  handlerRoot : Nat := 0
  saveTable : Nat := 0
  /-- escalated faults that the die manager holds (R196) -/
  escalated : List Packet := []
  /-- the failed walks that its pool has logged: virtual address, level, physical address of the entry (R332) -/
  walkLog : List (Nat × Nat × Nat) := []
  deriving DecidableEq, Repr

/-- A loaded kernel (R369, R371) and its declarations. -/
structure Kernel where
  entry : Nat
  size : Nat
  name : List Byte
  strands : Nat
  steps : Bool
  claims : List Nat
  segs : List (Nat × Nat × Nat × Nat)
  ordered : Bool
  deriving DecidableEq, Repr

/-- A global symbol of an object (R370): name, weak, whether it stands in `.text`, code offset, size. -/
structure Symbol where
  name : List Byte
  weak : Bool
  code : Bool
  offset : Nat
  size : Nat
  deriving DecidableEq, Repr

/-- A relocation site kept for the promise scan and for weak replacement (R370, R371): its sg0 offset, its type, the global
it names, or the place and size of the object's own symbol, and the addend. -/
structure RelocSite where
  offset : Nat
  kind : Nat
  name : List Byte
  target : Option (Nat × Nat)
  addend : Int
  deriving DecidableEq, Repr

/-- A loaded object (R369). -/
structure LoadedObj where
  handle : Nat
  base : Nat
  size : Nat
  kernels : List Kernel
  symbols : List Symbol
  relocs : List RelocSite
  deriving DecidableEq, Repr

/-- A staged shard in a cluster's weight buffer (R262, R264). -/
structure Shard where
  ctx : Nat
  image : Nat
  shard : Nat
  cluster : Nat
  base : Nat
  size : Nat
  deriving DecidableEq, Repr

/-- A staged image: shard count and shard bytes (R262, R373). -/
structure Image where
  id : Nat
  nsh : Nat
  shsz : Nat
  deriving DecidableEq, Repr

/-- A replay in force (R387): its manifest, and the session in which launches use its records up together (assumption 96). -/
structure Replay where
  base : Nat
  size : Nat
  session : Nat
  deriving DecidableEq, Repr

/-- What an ended launch, graph or job is named by. -/
inductive CoverKind where
  | launch | graph | job
  deriving DecidableEq, Repr

/-- What ends a queue's packets when they are reached (R377): those of a launch, graph or job id that were visible up to a tail, or, after
a divergence (R3), all that are still to come; and the status they complete with. -/
structure Covered where
  what : CoverKind
  id : Nat
  tail : Option Nat
  status : Nat
  deriving DecidableEq, Repr

/-- A command queue (R366): head, tail, next index to start, packets started and not completed, whether it stopped. -/
structure Queue where
  head : Nat := 0
  tail : Nat := 0
  next : Nat := 0
  running : List Nat := []
  finished : List Nat := []
  stopped : Bool := false
  /-- what cancels, and the end of jobs, cover of its packets (R377) -/
  cancelled : List Covered := []
  /-- the REPLAY in force (R387) -/
  replay : Option Replay := none
  /-- a LEVEL, STAGE, REPLAY or WAIT that holds every later packet (R368) -/
  hold : Option Nat := none
  deriving DecidableEq, Repr

/-- A host context (R365). -/
structure Context where
  root : Nat
  code : Nat
  codeSize : Nat
  mani : Nat
  maniSize : Nat
  save : Nat
  saveSize : Nat
  level : Nat
  queues : List Queue
  objects : List LoadedObj := []
  images : List Image := []
  /-- replay sessions begun so far (R387) -/
  replays : Nat := 0
  maniPos : Nat := 0
  maniRaised : Bool := false
  overflow : Bool := false
  deriving DecidableEq, Repr

/-- What a run belongs to (R376): a queue's packet, or a node of a graph. -/
inductive Origin where
  | packet (q idx : Nat)
  | node (g : Nat) (addr : Word)
  deriving DecidableEq, Repr

/-- A posted PUTX or PUTXADD (R344). -/
structure Posting where
  gls : Nat
  seq : Nat
  src : Nat
  target : Nat
  toff : Nat
  len : Nat
  add : Bool
  ordered : Bool
  ty : Nat
  mode : Nat
  sat : Bool
  dst : Word
  deriving DecidableEq, Repr

/-- A posted addition of VAMOADD.o or of an overflowed CPYRED.u (R169, R290). -/
structure AddPost where
  gls : Nat
  seq : Nat
  lane : Nat
  space : Space
  addr : Nat
  /-- the element's sg1 offset, when it lies in the strand's scratchpad: its place is found when the posting is applied -/
  off : Option Nat
  /-- its further bytes, when they do not follow the first one (R289) -/
  more : List (Space × Nat) := []
  value : Nat
  /-- the exact source value's type, when it is not the element type -/
  ty : Nat
  srcTy : Nat
  mode : Nat
  sat : Bool
  deriving DecidableEq, Repr

/-- How far a launch has come. -/
inductive RunStage where
  | queued | passed | gangWait | bound | landing | done
  deriving DecidableEq, Repr

/-- A launch (R373 to R376); a staging launch has `staging` set. -/
structure Run where
  ctx : Nat
  origin : Origin
  staging : Bool
  /-- address of its launch record (R373) -/
  recAddr : Nat := 0
  counter : Nat
  tag : Nat
  irq : Bool
  stage : RunStage := .queued
  launchid : Nat := 0
  jobid : Nat := 0
  ncrew : Nat := 0
  nstrand : Nat := 0
  seed : Word := 0
  image : Nat := 0
  nsh : Nat := 0
  shdiv : Nat := 0
  shsz : Nat := 0
  inherit : Word := 0
  level : Nat := 0
  replay : Option Replay := none
  steps : Bool := false
  claims : List Nat := []
  segs : Tab DescBits := []
  entry : Nat := 0
  handle : Nat := 0
  /-- first cause that ended it: status, GTC, source (R375) -/
  status : Option (Nat × Nat × Nat) := none
  cancelled : Bool := false
  crewsDone : List Nat := []
  postings : List Posting := []
  adds : List AddPost := []
  since : Nat := 0
  /-- it has waited 2^20 cycles for its gang admission (R341) -/
  priority : Bool := false
  /-- the clusters reserved for its gang admission (R340) -/
  reserved : List Nat := []
  /-- indices of the records of its replayed manifest that have been served, with the cycle of the service (R388) -/
  served : List (Nat × Nat) := []
  /-- VAMOADD.u additions whose home holds them for their record, and the cycle at which the first of them came first (R388) -/
  heldAdds : List AddPost := []
  heldSince : Nat := 0
  deriving DecidableEq, Repr

/-- A graph run (R378 to R381): nodes still to start, launches of nodes (each with the node's successors), JOIN arrivals,
COND nodes already started. -/
structure Graph where
  ctx : Nat
  q : Nat
  idx : Nat
  gid : Nat
  counter : Nat
  tag : Nat
  irq : Bool
  ready : List Word := []
  running : List (Nat × Word × Word) := []
  joins : List (Word × Nat) := []
  conds : List Word := []
  /-- the first cause that ended it: status, GTC, source (R375) -/
  cause : Option (Nat × Nat × Nat) := none
  ending : Bool := false
  done : Bool := false
  deriving DecidableEq, Repr

/-- A job (R402, R403). -/
structure Job where
  ctx : Nat
  id : Nat
  npkg : Nat
  rank : Nat
  ngrp : Nat
  counter : Nat
  ctimeout : Nat
  addrs : List Nat
  groups : List (BitVec 256)
  closed : Bool := false
  /-- the tails of its context's queues at JOBCLOSE: a packet rung after it starts no launch of the job (R402, assumption 97) -/
  closedAt : List Nat := []
  /-- members whose identical table is known, by rank, with the GTC of their JOBSETs; the JOBSET command waits for all of them -/
  agreed : List (Nat × Nat) := []
  isSet : Bool := false
  since : Nat := 0
  /-- members known complete, and the earliest ending cause: status, GTC, source -/
  membersDone : List Nat := []
  status : Option (Nat × Nat × Nat) := none
  /-- the launches that had completed when the job was set: none of them belongs to it -/
  past : List Nat := []
  deriving DecidableEq, Repr

/-- A COLL instance on this package (R407 to R411), and its result. -/
structure Coll where
  id : Nat
  key : StrandKey
  order : Nat
  ctx : Nat
  job : Nat
  group : Nat
  seq : Nat
  op : Nat
  kind : Nat
  count : Nat
  root : Nat
  mask : BitVec 256
  src : Word
  dst : Word
  recPtr : Word
  barrier : Word
  since : Nat
  /-- this participant's SRC, once it has been read and sent -/
  own : Option (List Byte) := none
  /-- the computed result with its flags, once it exists -/
  result : Option (List Byte × Nat)
  deriving DecidableEq, Repr

/-- A Kryong link (R395, R396). -/
structure Link where
  up : Bool := false
  partner : Option Nat := none
  sendSeq : Nat := 0
  recvSeq : Nat := 0
  buffer : List Flit := []
  out : List Flit := []
  inbox : List Flit := []
  replays : Nat := 0
  /-- flits that wait for room in the replay buffer (R396) -/
  waiting : List Flit := []
  /-- whether it has gone down, and the GTC at which it went down or training was last begun (R396) -/
  down : Bool := false
  since : Nat := 0
  /-- port sets that this package has programmed on its plane: context, job, group, ports (R403) -/
  sets : List (Nat × Nat × Nat × BitVec 256) := []
  deriving DecidableEq, Repr

/-- A packet that awaits its acknowledgement: its request, and the last sequence number that it takes. -/
structure EthSent where
  id : Nat
  psn : Nat
  packet : EthPacket
  deriving DecidableEq, Repr

/-- A completion entry: the work's id, whether it succeeded, and for a receive buffer the bytes put into it and the immediate. -/
structure EthDone where
  id : Nat
  ok : Bool
  len : Nat := 0
  imm : Option Nat := none
  deriving DecidableEq, Repr

/-- An Ethernet queue pair (R415, R416). -/
structure QueuePair where
  port : Nat
  qp : Nat
  error : Bool := false
  /-- its work and completion rings in host memory: their addresses and their number of entries; entries written so far -/
  rings : Option (Nat × Nat × Nat) := none
  posted : Nat := 0
  ended : Nat := 0
  work : List EthWork := []
  /-- receive buffers posted and not yet taken, and the bytes of the arriving message that the first one holds -/
  recvs : List EthWork := []
  filled : Nat := 0
  completions : List EthDone := []
  /-- packets put on the wire, oldest first, and those that await an acknowledgement -/
  out : List EthPacket := []
  unacked : List EthSent := []
  nextPsn : Nat := 0
  retries : Nat := 0
  /-- the sequence number that the receiver expects -/
  expected : Nat := 0
  /-- bytes of the oldest READ that have arrived -/
  got : Nat := 0
  deriving DecidableEq, Repr

/-- An event record (R390). -/
structure Event where
  gtc : Nat
  src : Nat
  kind : Nat
  cause : Nat := 0
  launch : Nat := 0
  ids : Nat := 0
  seq : Nat := 0
  addr : Nat := 0
  deriving DecidableEq, Repr

/-- What a unit or the outside world does of its own accord, beside the events of the opcode table. -/
inductive Act where
  /-- the home drops the owner record of a device word (R317) -/
  | ownerDrop (word : Nat)
  /-- held additions are looked at again (R388) -/
  | serveAdds (run : Nat)
  /-- the host writes its own memory, the words being poisoned by a poisoned write (R362) -/
  | hostWrite (pa : Nat) (data : List Byte) (bad : Bool)
  /-- the host refuses accesses to a range of its memory, or to none any more (R288) -/
  | hostRefuse (base len : Nat)
  | hostAllow
  /-- the die manager writes a handler-context CSR of a core through its management path (R193) -/
  | manage (core csr : Nat) (v : Word)
  /-- the die manager pre-empts a crew that is held by strands of unbound crews (R384) -/
  | preemptHeld (run crew : Nat)
  /-- the units of a core, a die and a cluster that act without being asked: a hint line's fill (R182), a queued walk (R335), the refresh
  window (R265), and the die manager's answer to a hard fault (R392) -/
  | hintFill (core : Nat)
  | walk (die : Nat)
  | refresh (cl : Nat)
  | hardFault (cl : Nat)
  /-- what passes with time alone: a reservation's 65,536 cycles (R123), the record of a long claim wait (R222), a gang launch's priority
  (R341), and storage that begins to drowse (R190) -/
  | expireResv (k : StrandKey)
  | recordWait (k : StrandKey)
  | raisePriority (run : Nat)
  | drowse (core : Nat) (unit : PowerUnit)
  /-- the running transform request goes on by one piece (R236) -/
  | xformPiece (cl : Nat)
  /-- a flit on a die-to-die link has passed, or its replay has failed (R392) -/
  | dieLink (link : Nat) (ok : Bool)
  /-- a Kryong link loses its training (R396) -/
  | linkLost (link : Nat)
  /-- the time master sends time flits (R398) -/
  | sendTime
  /-- the host registers a region of device memory for its Ethernet ports, and the rings of a queue pair (R415) -/
  | ethRegion (pa len : Nat)
  | ethRings (port qp work comp entries : Nat)
  /-- no acknowledgement has come in time (R415) -/
  | ethTimeout (port qp : Nat)
  deriving DecidableEq, Repr

/-- Whose turn comes next: an event of a unit or of the outside world, one instruction of a party, or another act. -/
inductive Turn where
  | event (i : Instr)
  | issue (p : Party)
  | act (a : Act)
  deriving DecidableEq, Repr

/-- The package. -/
structure State where
  strands : List Strand := []
  crews : List Crew := []
  retained : List Retained := []
  postHolds : List PostHold := []
  cores : Tab Core := []
  clusters : Tab Cluster := []
  dies : Tab Die := []
  runs : List Run := []
  graphs : List Graph := []
  contexts : Tab (Option Context) := []
  jobs : List Job := []
  colls : List Coll := []
  links : Tab Link := []
  /-- flits that wait for a link to come up (R397) -/
  parked : List Flit := []
  qps : List QueuePair := []
  /-- registered regions of device memory: base, bytes (R415) -/
  regions : List (Nat × Nat) := []
  /-- failed replays in a row on each die-to-die link (R392) -/
  d2d : Tab Nat := []
  shards : List Shard := []
  -- storage
  dev : Tab Byte := []
  host : Tab Byte := []
  spad : Tab Byte := []
  wbuf : Tab Byte := []
  /-- poisoned 64-bit words by word number (R391) -/
  devBad : Tab Bool := []
  hostBad : Tab Bool := []
  spadBad : Tab Bool := []
  wbufBad : Tab Bool := []
  /-- owner of each 4-byte device word: 0 NONE, else core + 1 (R317) -/
  owner : Tab Nat := []
  /-- host physical ranges (base, bytes) that the host refuses (R288) -/
  hostDeny : List (Nat × Nat) := []
  -- BAR0 and the event log (R363, R390)
  /-- 0 BOOTING, 1 READY, 2 FAILED -/
  status : Nat := 0
  diesUp : BitVec 4 := 0
  faultPend : Bool := false
  cmdAddr : Word := 0
  cmdBusy : Bool := false
  /-- the command block that CMDGO started -/
  cmdBlock : Nat := 0
  cmdStatus : Nat := 0
  cmdResult : Nat := 0
  logBase : Word := 0
  logSize : Word := 0
  logTail : Word := 0
  logHead : Word := 0
  logLost : Word := 0
  /-- per-source record counts (R390) -/
  recCount : Tab Nat := []
  /-- MSI-X vectors raised, newest first -/
  vectors : List Nat := []
  gtc : Nat := 0
  /-- ticks for which the GTC still counts at half rate, to match the master's; odd when half a tick has been counted (R398) -/
  gtcSlow : Nat := 0
  fabricAddr : Nat := 0
  /-- the lowest fabric address that a time flit has named (R398) -/
  masterAddr : Option Nat := none
  /-- the number of the next engine command, and the next object handle -/
  nextId : Nat := 1
  nextHandle : Nat := 1
  -- the model's own fields: scheduling and free values
  /-- the party whose instruction runs -/
  cur : Party := .handler 0
  schedule : List Turn := []
  due : List Instr := []
  steps : Nat := 0
  /-- the response of the last debug-window read (R194): the value, or none for the error response -/
  response : Option VReg := none
  deriving DecidableEq, Repr

/-- Why the machine stops with a fault. -/
inductive Fault where
  /-- An event names a unit that the package does not have; raised by the events' meanings. Safe: the device has no
  such unit, so nothing of the device is left out. -/
  | noSuchUnit
  deriving DecidableEq, Repr

/-- Why an instruction has no meaning. -/
inductive Refusal where
  /-- An instruction whose meaning has not been written; raised by exec's arms only. Safe: the model stops. -/
  | notModelled (mnemonic : String)
  deriving DecidableEq, Repr

/-- The machine right after reset (R363 and the reset columns of R103 to R108, R193, R240, R267): no strand, nothing
in memory, STATE BOOTING. -/
def State.reset : State := {}

end Sys2Proof.Machine
end

