-- ==== Sys2Proof/Machine/Memory.lean ====
section
/-! DEFINITION. Storage: reading and writing bytes at their homes, poison, ownership, the L1 data cache, descriptors,
segment checks and page translation (spec/04 R107 to R112, spec/17 R314 to R324, spec/18 R330 to R335, spec/20 R391). -/

namespace Sys2Proof.Machine

/-- What an access that fails leaves in the logs: a walk of a die's pool, by virtual address, level and entry, with whether the
entry was poisoned (R332); or an error response to a unit, by address (R194, R391). `outside`: no page could hold the address. -/
inductive Failure where
  | walk (die va level entry : Nat) (bad : Bool)
  | response (src addr : Nat)
  | outside
  deriving DecidableEq, Repr

/-- A trap before it is taken: cause and tval of R116, the fetch flag, and what the failed access logs. With `stall` no trap is taken: the
instruction waits and issues again. -/
structure Trap where
  cause : Nat
  tval : Word := 0
  fetch : Bool := false
  note : Option Failure := none
  stall : Bool := false
  deriving DecidableEq, Repr

/-- The trap causes of R116. -/
def cIllegal : Nat := 0x00
def cMisaligned : Nat := 0x01
def cSegment : Nat := 0x02
def cPage : Nat := 0x03
def cAccess : Nat := 0x04
def cEcall : Nat := 0x05
def cEbreak : Nat := 0x06
def cClaim : Nat := 0x07
def cDeadlock : Nat := 0x08
def cDecode : Nat := 0x09
def cEngine : Nat := 0x0A
def cReplay : Nat := 0x0B
def cMachine : Nat := 0x0C
def cPriv : Nat := 0x0D

/-- The kinds of access that R110 and R332 tell apart. -/
inductive Access where
  | load | store | amo | fetch | eread | ewrite
  deriving DecidableEq, Repr

/-- Where a segment check leads (R110). -/
inductive Target where
  | scratch (off : Nat)
  | virt (va : Nat) (host : Bool)
  | peer (off : Nat)
  | weight (off : Nat)
  deriving DecidableEq, Repr

/-- One byte of storage. -/
abbrev Loc := Space × Nat

/-! ### Units by number -/

def coreOf (s : State) (k : Nat) : Core := tget {} s.cores k
def setCore (s : State) (k : Nat) (f : Core → Core) : State := { s with cores := tins s.cores k (f (tget {} s.cores k)) }
def clusterOf (s : State) (c : Nat) : Cluster := tget {} s.clusters c
def setCluster (s : State) (c : Nat) (f : Cluster → Cluster) : State := { s with clusters := tins s.clusters c (f (tget {} s.clusters c)) }
def dieOf (s : State) (d : Nat) : Die := tget {} s.dies d
def setDie (s : State) (d : Nat) (f : Die → Die) : State := { s with dies := tins s.dies d (f (tget {} s.dies d)) }
/-- The GTC as a die reads it: die 0's count, or the die's copy of it (R389). -/
def gtcOf (s : State) (d : Nat) : Nat := if d = 0 then s.gtc else (dieOf s d).gtc

/-- The die of a core, its cluster, and the die of a cluster. -/
def dieOfCore (k : Nat) : Nat := k / Config.dieCores
def clusterOfCore (k : Nat) : Nat := k / Config.cores
def dieOfCluster (c : Nat) : Nat := c / Config.clusters

/-- CLKA cycles that a core has seen. -/
def now (s : State) (core : Nat) : Nat := (dieOf s (dieOfCore core)).cycles

/-! ### Bytes at their homes -/

def spaceOf (s : State) : Space → Tab Byte
  | .dev => s.dev
  | .host => s.host
  | .spad => s.spad
  | .wbuf => s.wbuf

def setSpace (s : State) (sp : Space) (t : Tab Byte) : State :=
  match sp with
  | .dev => { s with dev := t }
  | .host => { s with host := t }
  | .spad => { s with spad := t }
  | .wbuf => { s with wbuf := t }

def badOf (s : State) : Space → Tab Bool
  | .dev => s.devBad
  | .host => s.hostBad
  | .spad => s.spadBad
  | .wbuf => s.wbufBad

def setBad (s : State) (sp : Space) (t : Tab Bool) : State :=
  match sp with
  | .dev => { s with devBad := t }
  | .host => { s with hostBad := t }
  | .spad => { s with spadBad := t }
  | .wbuf => { s with wbufBad := t }

/-- One byte at its home; a byte that nothing has written reads as 0 (assumption 2). -/
def peek (s : State) (sp : Space) (a : Nat) : Byte := tget 0 (spaceOf s sp) a

/-- n bytes at their home, lowest address first. -/
def peekN (s : State) (sp : Space) (a n : Nat) : List Byte := tabulate n (fun i => peek s sp (a + i))

/-- Little-endian number of n bytes at a home. -/
def peekNat (s : State) (sp : Space) (a n : Nat) : Nat := leNat (peekN s sp a n)

/-- A table of bytes with a run of bytes written. -/
def pokeTab : Tab Byte → Nat → List Byte → Tab Byte
  | t, _, [] => t
  | t, a, b :: bs => pokeTab (tset 0 t a b) (a + 1) bs

/-- The 64-bit words that n bytes at a touch: first, and count. -/
def wordSpan (a n : Nat) : Nat × Nat := (a / 8, (a + n + 7) / 8 - a / 8)

/-- Whether a poisoned word holds one of the n bytes at a (R391). -/
def poisoned (s : State) (sp : Space) (a n : Nat) : Bool :=
  n ≠ 0 && (badOf s sp).any (fun e => a / 8 ≤ e.1 && e.1 ≤ (a + n - 1) / 8)

/-- A write of all 8 bytes clears a word's poison; a part of them leaves it (R391). -/
def clearPoison (t : Tab Bool) (a n : Nat) : Tab Bool :=
  t.filter (fun e => !(a ≤ 8 * e.1 && 8 * e.1 + 8 ≤ a + n))

/-- Writes bytes at their home, with the rule of R391 for poison. -/
def poke (s : State) (sp : Space) (a : Nat) (bs : List Byte) : State :=
  setBad (setSpace s sp (pokeTab (spaceOf s sp) a bs)) sp (clearPoison (badOf s sp) a bs.length)

/-- Writes bytes and keeps what poison the words have: a read-modify-write (R391). -/
def pokeKeep (s : State) (sp : Space) (a : Nat) (bs : List Byte) : State :=
  setSpace s sp (pokeTab (spaceOf s sp) a bs)

/-- Poisons every word that n bytes at a touch (R391). -/
def poison (s : State) (sp : Space) (a n : Nat) : State :=
  let (w, k) := wordSpan a n
  setBad s sp (forUpTo k (badOf s sp) (fun i t => tset false t (w + i) true))

/-- The spaces, in their order. -/
def spaces : List Space := [.dev, .host, .spad, .wbuf]

/-- The canonical form of storage: every table of bytes, of poisoned words and of owners has strictly rising keys and no
entry equal to what an unlisted key reads as. -/
def Memory.wf (s : State) : Bool :=
  spaces.all (fun sp => twf 0 (spaceOf s sp) && twf false (badOf s sp)) && twf 0 s.owner

/-! ### Reservations and owners -/

/-- A reservation whose word meets n bytes at a is lost (R123). -/
def dropResv (sp : Space) (a n : Nat) (r : Option Reservation) : Option Reservation :=
  match r with
  | none => none
  | some v => if v.space = sp && a / 8 ≤ v.word && v.word ≤ (a + n - 1) / 8 && n ≠ 0 then none else some v

/-- Every reservation on a word that n bytes at a touch becomes invalid (R123). -/
def breakResv (s : State) (sp : Space) (a n : Nat) : State :=
  { s with
    strands := s.strands.map (fun t => { t with resv := dropResv sp a n t.resv })
    cores := s.cores.map (fun e => (e.1, { e.2 with hresv := dropResv sp a n e.2.hresv })) }

/-- The names of the moments at which a fill and a revoke of this step take place. -/
def fillMoment (s : State) : Nat := 2 * s.steps
def revokeMoment (s : State) : Nat := 2 * s.steps + 1

/-- A revoke from the home makes the former owner's word V (R316). It shows the home as it was until then. -/
def revoke (s : State) (core word : Nat) : State :=
  setCore s core (fun c =>
    match tfind c.l1 word with
    | some w => { c with l1 := tins c.l1 word { own := false, data := w.data, seen := revokeMoment s } }
    | none => c)

/-- The new owner of the words that n bytes at a touch: 0 NONE, else the package-wide number of the core + 1 (assumption 126); former owners
are revoked (R317). -/
def setOwner (s : State) (who a n : Nat) : State :=
  if n = 0 then s
  else forUpTo ((a + n - 1) / 4 + 1 - a / 4) s (fun i s =>
    let w := a / 4 + i
    let old := tget 0 s.owner w
    let s1 : State := { s with owner := tset 0 s.owner w who }
    if old = 0 || old = who then s1 else revoke s1 (old - 1) w)

/-- A write by an engine, a home operation or the outside world: bytes, poison, reservations and owner NONE. It is at its home at once
(assumption 115). -/
def writeHome (s : State) (sp : Space) (a : Nat) (bs : List Byte) : State :=
  let s1 := breakResv (poke s sp a bs) sp a bs.length
  if sp = .dev then setOwner s1 0 a bs.length else s1

/-- A write whose data is poisoned: the words it touches are poisoned, with reservations and owner as for any write. -/
def spoilHome (s : State) (sp : Space) (a n : Nat) : State :=
  let s1 := breakResv (poison s sp a n) sp a n
  if sp = .dev then setOwner s1 0 a n else s1

/-- The same for a read-modify-write, which keeps a word's poison. -/
def updateHome (s : State) (sp : Space) (a : Nat) (bs : List Byte) : State :=
  let s1 := breakResv (pokeKeep s sp a bs) sp a bs.length
  if sp = .dev then setOwner s1 0 a bs.length else s1

/-! ### Lists of located bytes -/

/-- Consecutive located bytes: maximal runs (space, first, count). -/
def runs : List Loc → List (Space × Nat × Nat)
  | [] => []
  | (sp, a) :: t =>
    match runs t with
    | (sp2, b, n) :: r => if sp = sp2 && b = a + 1 then (sp, a, n + 1) :: r else (sp, a, 1) :: (sp2, b, n) :: r
    | [] => [(sp, a, 1)]

/-- Reads located bytes at their homes; none when one of their words is poisoned. -/
def readLocs (s : State) (ls : List Loc) : Option (List Byte) :=
  if ls.any (fun l => poisoned s l.1 l.2 1) then none else some (ls.map (fun l => peek s l.1 l.2))

/-- Writes located bytes at their homes, run by run. -/
def writeRuns (f : State → Space → Nat → List Byte → State) :
    List (Space × Nat × Nat) → List Byte → State → State
  | [], _, s => s
  | (sp, a, n) :: t, bs, s => writeRuns f t (bs.drop n) (f s sp a (bs.take n))

/-- Engine writes of located bytes. -/
def writeLocs (s : State) (ls : List Loc) (bs : List Byte) : State := writeRuns writeHome (runs ls) bs s

/-- Poisons the words of located bytes. -/
def poisonLocs (s : State) (ls : List Loc) : State :=
  ls.foldl (fun s l => poison s l.1 l.2 1) s

/-! ### Power states of storage in use (R190) -/

/-- A unit's number in `lastUse`: granules, then the register blocks of each slot, then those of holdings. -/
def unitNo (u : PowerUnit) : Nat :=
  match u with
  | .granule g => g
  | .vreg slot b => 16 + 8 * slot + b
  | .held run gls b => 48 + 8 * (run * 2 ^ 29 + gls) + b

/-- The unit that bears a number. -/
def unitOf (n : Nat) : PowerUnit :=
  if n < 16 then .granule n
  else if n < 48 then .vreg ((n - 16) / 8) ((n - 16) % 8)
  else .held ((n - 48) / 8 / 2 ^ 29) ((n - 48) / 8 % 2 ^ 29) ((n - 48) % 8)

/-- An access wakes a unit, and its idle time starts again. -/
def wake (s : State) (core : Nat) (u : PowerUnit) : State :=
  setCore s core (fun c =>
    { c with drowsy := c.drowsy.filter (fun v => decide (v ≠ u)), lastUse := tins c.lastUse (unitNo u) (now s core) })

/-- An access to a scratchpad byte wakes its granule. -/
def wakeLoc (s : State) (l : Loc) : State :=
  if l.1 = .spad then
    wake s (l.2 / Config.spadBytes) (.granule (l.2 % Config.spadBytes / Config.granule))
  else s

/-- An access to a run of bytes wakes every granule that the run touches: those of its two ends and each between them (R190). -/
def wakeRun (s : State) (r : Space × Nat × Nat) : State :=
  let first := r.2.1 / Config.granule
  (List.range ((r.2.1 + (r.2.2 - 1)) / Config.granule + 1 - first)).foldl (fun s i => wakeLoc s (r.1, (first + i) * Config.granule)) s

/-- Engine accesses wake the granules they touch (R190). -/
def wakeLocs (s : State) (ls : List Loc) : State := (runs ls).foldl wakeRun s

/-- A unit goes on under another name: its power state and its idle time with it. -/
def renameUnit (s : State) (core : Nat) (u v : PowerUnit) : State :=
  setCore s core (fun c =>
    { c with drowsy := c.drowsy.map (fun x => if x = u then v else x)
             lastUse := tins (tdel c.lastUse (unitNo u)) (unitNo v) (tget 0 c.lastUse (unitNo u)) })

/-! ### The L1 data cache and stores (R316, R317) -/

/-- The word updated with a byte at position i of it. -/
def mergeByte (w : BitVec 32) (i : Nat) (b : Byte) : BitVec 32 :=
  BitVec.ofNat 32 (putFld w.toNat (8 * i) 8 b.toNat)

/-- Whether two runs of bytes share one. -/
def meets (a n b m : Nat) : Bool := n ≠ 0 && m ≠ 0 && a < b + m && b < a + n

/-- Whether a store touches a 4-byte word. -/
def PendStore.touches (p : PendStore) (word : Nat) : Bool := meets p.pa p.data.length (4 * word) 4

/-- The 4-byte words that n bytes at a touch. -/
def wordsOf (a n : Nat) : List Nat := if n = 0 then [] else tabulate ((a + n - 1) / 4 + 1 - a / 4) (fun i => a / 4 + i)

/-- One byte as its home and the pending stores of a core give it: the newest pending store of the byte, else the home. -/
def coreByte (s : State) (core a : Nat) : Byte :=
  (coreOf s core).stores.foldl (fun b p => if p.pa ≤ a && a < p.pa + p.data.length then p.data.getD (a - p.pa) 0 else b)
    (peek s .dev a)

/-- One word of device memory as `coreByte` gives it. -/
def coreWord (s : State) (core word : Nat) : BitVec 32 :=
  BitVec.ofNat 32 (leNat (tabulate 4 (fun i => coreByte s core (4 * word + i))))

/-- A word of a core's L1 as the home and the core's pending stores have it now; its state stays (assumption 62). -/
def freshWord (s : State) (core word : Nat) (w : L1Word) : L1Word := { w with data := coreWord s core word, seen := fillMoment s }

/-- A word that a core has just come to own, and that another agent may have written since the core's L1 got it, takes the merged word. -/
def refreshWord (core : Nat) (s : State) (word : Nat) : State :=
  match tfind (coreOf s core).l1 word with
  | some w => setCore s core (fun c => { c with l1 := tins c.l1 word (freshWord s core word w) })
  | none => s

/-- A pending store of a core registers at its home (R317): its bytes are merged, the core becomes the owner, and of the words it
did not own before its L1 keeps no older byte. One that registers behind an LR of its strand to the same word, though it was issued before,
ends the reservation as any store to the word does (R123, assumption 114). -/
def registerStore (core : Nat) (s : State) (p : PendStore) : State :=
  let s1 := setCore s core (fun c => { c with stores := c.stores.erase p })
  let s2 := setOwner (breakResv (poke s1 .dev p.pa p.data) .dev p.pa p.data.length) (core + 1) p.pa p.data.length
  ((wordsOf p.pa p.data.length).filter (fun w => decide (tget 0 s.owner w ≠ core + 1))).foldl (refreshWord core) s2

/-- The oldest pending store of a core registers at its home, also where a newer one is to other bytes (assumption 118). -/
def registerOne (s : State) (core : Nat) : State :=
  match (coreOf s core).stores with
  | [] => s
  | p :: _ => registerStore core s p

/-- The pending stores, oldest first, that a test wants, with every older one that shares a byte with one of them: the order of
writes to a byte stays. -/
def wantedStores (want : PendStore → Bool) : List PendStore → List PendStore
  | [] => []
  | p :: r =>
    let l := wantedStores want r
    if want p || l.any (fun q => meets p.pa p.data.length q.pa q.data.length) then p :: l else l

/-- The pending stores of a core that a test wants register. -/
def registerWhere (s : State) (core : Nat) (want : PendStore → Bool) : State :=
  (wantedStores want (coreOf s core).stores).foldl (registerStore core) s

/-- Every pending store of a core registers. -/
def drainStores (s : State) (core : Nat) : State := registerWhere s core (fun _ => true)

/-- The core's stores to the words of n bytes register: an access at the home comes after them. -/
def registerAt (s : State) (core a n : Nat) : State :=
  registerWhere s core (fun p => (wordsOf a n).any p.touches)

/-- A line leaves a core's L1: its words become I (R316). -/
def Core.evict (c : Core) (line : Nat) : Core :=
  { c with l1 := c.l1.filter (fun e => decide (e.1 / 8 ≠ line)), l1order := c.l1order.filter (fun l => decide (l ≠ line)) }

/-- A line becomes the most recent of its set; the ninth of a set displaces the least recent (R189, assumption 7). -/
def Core.useLine (c : Core) (line : Nat) : Core :=
  let rest := c.l1order.filter (fun l => decide (l ≠ line))
  let c1 := match (rest.filter (fun l => decide (l % 128 = line % 128)))[7]? with
    | some old => ({ c with l1order := rest } : Core).evict old
    | none => { c with l1order := rest }
  { c1 with l1order := line :: c1.l1order }

/-- Whether a core's L1 holds a word that the core owns at its home: it is then as new as the home. -/
def l1Owned (s : State) (core word : Nat) : Bool :=
  (tfind (coreOf s core).l1 word).any (·.own) && decide (tget 0 s.owner word = core + 1)

/-- Whether a load of some words hits in a core's L1: it owns them all, or holds them all as they were at one moment, so that no aligned
piece mixes two writes (R121, R323, R324; assumption 62). -/
def l1Hits (s : State) (core : Nat) (ws : List Nat) : Bool :=
  ws.all (l1Owned s core) ||
  ((ws.filterMap (tfind (coreOf s core).l1)).head?).any (fun e =>
    ws.all (fun w => !l1Owned s core w && (tfind (coreOf s core).l1 w).any (fun x => decide (x.seen = e.seen))))

/-- The words of one line become readable in a core's L1. Where they do not hit, the core's stores to them register, and those that the core
does not own are filled from their home together (R316). None when a word to be filled is poisoned. -/
def l1Line (core line : Nat) (ws : List Nat) (s : State) : Option State :=
  if l1Hits s core ws then some (setCore s core (fun c => c.useLine line))
  else
    let s1 := registerWhere s core (fun p => ws.any p.touches)
    let fills := ws.filter (fun w => !(tfind (coreOf s1 core).l1 w).any (·.own))
    if fills.any (fun w => poisoned s1 .dev (4 * w) 4) then none
    else
      some (setCore s1 core (fun c =>
        let c1 := c.useLine line
        { c1 with l1 := fills.foldl (fun l w =>
            tins l w { own := false, data := BitVec.ofNat 32 (peekNat s1 .dev (4 * w) 4), seen := fillMoment s1 }) c1.l1 }))

/-- The same for a list of lines. -/
def l1Lines (core : Nat) (ws : List Nat) : List Nat → State → Option State
  | [], s => some s
  | l :: r, s => (l1Line core l (ws.filter (fun w => decide (w / 8 = l))) s).bind (l1Lines core ws r)

/-- The words of located device bytes. -/
def devWords (ls : List Loc) : List Nat := ((ls.filter (fun l => decide (l.1 = .dev))).map (fun l => l.2 / 4)).eraseDups

/-- One byte as a party of the core reads it, once its word is present. -/
def loadByte (s : State) (core : Nat) (l : Loc) : Byte :=
  if l.1 = .dev then
    match tfind (coreOf s core).l1 (l.2 / 4) with
    | some w => BitVec.ofNat 8 (w.data.toNat >>> (8 * (l.2 % 4)))
    | none => peek s .dev l.2
  else peek s l.1 l.2

/-- The position of the lowest located byte that a load of them finds poisoned: the core's stores to their words have registered, and an
O word is read from the L1. -/
def poisonAt (s : State) (core : Nat) (ls : List Loc) : Nat :=
  let ws := devWords ls
  let s1 := registerWhere s core (fun p => ws.any p.touches)
  ls.findIdx (fun l => poisoned s1 l.1 l.2 1 && !(l.1 = .dev && (tfind (coreOf s1 core).l1 (l.2 / 4)).any (·.own)))

/-- Bytes as a party of the core loads them, as one access; none when one of them is poisoned. -/
def loadLocs (core : Nat) (s : State) (ls : List Loc) : Option (List Byte × State) :=
  let ws := devWords ls
  match l1Lines core ws ((ws.map (· / 8)).eraseDups) s with
  | none => none
  | some s1 =>
    if ls.any (fun l => decide (l.1 ≠ .dev) && poisoned s1 l.1 l.2 1) then none
    else some (ls.map (loadByte s1 core), ls.foldl wakeLoc s1)

/-- A store's bytes update the words that the core's L1 holds, which become O (R316). -/
def l1Store (s : State) (core : Nat) (pa : Nat) (bs : List Byte) : State :=
  setCore s core (fun c => { c with l1 := go c.l1 pa bs })
where
  go : Tab L1Word → Nat → List Byte → Tab L1Word
    | t, _, [] => t
    | t, a, b :: r =>
      let t1 := match tfind t (a / 4) with
        | some w => tins t (a / 4) { own := true, data := mergeByte w.data (a % 4) b, seen := w.seen }
        | none => t
      go t1 (a + 1) r

/-- The key under which a handler context's stores are sent: none of the launches' keys. -/
def handlerKey (core : Nat) : StrandKey := { run := 2 ^ 64, gls := core }

/-- A store of a run of bytes by a party of the core: to a device home through the store queue, to a scratchpad or
host byte at once. The party's own reservation on the word is lost, a handler context's too (R123, R191). -/
def storeRun (core : Nat) (key : StrandKey) (s : State) (sp : Space) (a : Nat) (bs : List Byte) : State :=
  match sp with
  | .dev =>
    let s1 := l1Store s core a bs
    let s2 := setCore s1 core (fun c => { c with
      stores := c.stores ++ [{ key := key, pa := a, data := bs }]
      hresv := if key = handlerKey core then dropResv sp a bs.length c.hresv else c.hresv })
    let s3 : State := { s2 with due := s2.due ++ [.storeRegister core] }
    { s3 with strands := s3.strands.map (fun t =>
        if t.key = key then { t with resv := dropResv sp a bs.length t.resv } else t) }
  | _ => wakeRun (writeHome s sp a bs) (sp, a, bs.length)

/-- A store of located bytes by a party of the core. -/
def storeLocs (s : State) (core : Nat) (key : StrandKey) (ls : List Loc) (bs : List Byte) : State :=
  writeRuns (storeRun core key) (runs ls) bs s

/-- A release by a party: its stores register at their homes (R318). -/
def release (s : State) (core : Nat) (key : StrandKey) : State := registerWhere s core (fun p => decide (p.key = key))

/-- An acquire: a V word becomes I, an O word stays O; one that the core does not own at its home yet is read from there, with the core's
own pending stores (R316, R319; assumption 62). -/
def acquire (s : State) (core : Nat) : State :=
  setCore s core (fun c =>
    { c with l1 := (c.l1.filter (·.2.own)).map (fun e => if tget 0 s.owner e.1 = core + 1 then e else (e.1, freshWord s core e.1 e.2)) })

/-- A word performed at its home leaves the core's L1 (R316). -/
def l1Drop (s : State) (core a n : Nat) : State :=
  setCore s core (fun c => { c with l1 := c.l1.filter (fun e => !(a / 4 ≤ e.1 && e.1 ≤ (a + n - 1) / 4)) })

/-- An operation at the home of n device bytes on behalf of a core: the core's own stores to their words register first, and
the words leave its L1 (R122, R316, R320). -/
def toHome (s : State) (core a n : Nat) : State := l1Drop (registerAt s core a n) core a n

/-- The home drops the owner record of a word, and revokes the owner first (R317). -/
def dropOwner (s : State) (word : Nat) : State := setOwner s 0 (4 * word) 4

/-! ### Descriptors (R108) -/

def dBase (d : DescBits) : Nat := fld d.toNat 36 0
def dLimit (d : DescBits) : Nat := fld d.toNat 86 37
def dKind (d : DescBits) : Nat := fld d.toNat 89 87
def dR (d : DescBits) : Bool := bit d.toNat 90
def dW (d : DescBits) : Bool := bit d.toNat 91
def dX (d : DescBits) : Bool := bit d.toNat 92
def dStride (d : DescBits) : Nat := fld d.toNat 127 93

/-- A descriptor from its fields (R108). -/
def descOf (base limit kind : Nat) (r w x : Bool) (stride : Nat) : DescBits :=
  BitVec.ofNat 128 (base + limit * 2 ^ 37 + kind * 2 ^ 87 + b2n r * 2 ^ 90 + b2n w * 2 ^ 91 + b2n x * 2 ^ 92 + stride * 2 ^ 93)

/-- The kinds of R109. -/
def kGlobal : Nat := 0
def kScratch : Nat := 1
def kPeer : Nat := 2
def kWeight : Nat := 3
def kHost : Nat := 4
def kConst : Nat := 5

/-- Whether a descriptor grants what an access needs (R110). -/
def permits (d : DescBits) : Access → Bool
  | .load => dR d
  | .store => dW d
  | .amo => dR d && dW d
  | .fetch => dX d
  | .eread => dR d
  | .ewrite => dW d

/-- The segment of an effective address, and its offset. -/
def segOf (st : Strand) (ea : Word) : DescBits := tget 0 st.segs (ea.toNat / 2 ^ 60)
def offOf (ea : Word) : Nat := ea.toNat % 2 ^ 60

/-- The device virtual address of an offset (R109). -/
def segVa (st : Strand) (d : DescBits) (off : Nat) : Nat :=
  dBase d * 2 ^ 13 + (if dKind d = kGlobal then st.key.gls * dStride d * 64 else 0) + off

/-- The checks of R110 up to PageTranslate. `eng` lets an engine reach PEER and `wgt` lets MMA, MMAG and CPYWB reach
WEIGHT. -/
def segCheck (st : Strand) (ea : Word) (n : Nat) (acc : Access) (eng wgt : Bool) : Except Trap Target :=
  let d := segOf st ea
  let off := offOf ea
  let seg : Trap := { cause := cSegment, tval := ea }
  if !permits d acc then .error seg
  else if dKind d = kPeer && !eng then .error seg
  else if dKind d = kWeight && !wgt then .error seg
  else if dLimit d + 1 < off + n then .error seg
  else if dKind d = kScratch then
    if n ≠ 0 && st.granules.length ≤ (off + n - 1) / Config.granule then .error { cause := cClaim, tval := ea }
    else .ok (.scratch off)
  else if dKind d = kPeer then .ok (.peer off)
  else if dKind d = kWeight then .ok (.weight off)
  else
    let va := segVa st d off
    if 2 ^ 50 < va + n then .error seg else .ok (.virt va (dKind d = kHost))

/-- The physical place of an sg1 offset (R111, R187). -/
def scratchAddr (core : Nat) (granules : List Nat) (off : Nat) : Nat :=
  core * Config.spadBytes + granules.getD (off / Config.granule) 0 * Config.granule + off % Config.granule

/-- The located bytes of a scratch range. -/
def scratchLocs (core : Nat) (granules : List Nat) (off n : Nat) : List Loc :=
  tabulate n (fun i => (.spad, scratchAddr core granules (off + i)))

/-! ### Page tables (R330 to R335) -/

/-- Which translations a requester may use: the context tag and the root of its table tree. A handler context has the
tag 16 + die. -/
structure Space64 where
  tag : Nat
  root : Nat
  deriving DecidableEq, Repr

/-- What one entry of a table says. -/
structure Pte where
  at_ : Nat
  raw : Nat
  deriving DecidableEq, Repr

def pteV (e : Nat) : Bool := bit e 0
def pteLeaf (e : Nat) : Bool := bit e 1
def ptePa (e : Nat) : Nat := fld e 50 9 * 2 ^ 9
/-- Reserved bits, and the leaf-only bits of an entry that points on (R331). -/
def pteBad (e : Nat) : Bool :=
  bit e 8 || fld e 63 51 ≠ 0 || (!pteLeaf e && (fld e 6 2 ≠ 0 || bit e 7))

/-- The permissions an access needs of an entry (R332). -/
def ptePermits (e : Nat) : Access → Bool
  | .load | .eread => bit e 2
  | .store | .ewrite => bit e 3
  | .amo => bit e 2 && bit e 3
  | .fetch => bit e 4

def writesPage : Access → Bool
  | .store | .amo | .ewrite => true
  | _ => false

/-- The failed walk of a die's pool at level n, whose entry stands at a. -/
def badWalk (die va n a : Nat) : Failure := .walk die va n a false

/-- Reads entries from the root down: the entries read, with the last one's page size, or a failure. -/
def walkEntries (s : State) (die root va : Nat) : Except Failure (List Pte × Nat) :=
  let a0 := root + 8 * fld va 49 31
  if poisoned s .dev a0 8 then .error (.walk die va 0 a0 true)
  else
    let e0 := peekNat s .dev a0 8
    if !(pteV e0 && !pteLeaf e0) then .ok ([⟨a0, e0⟩], 31)
    else
      let a1 := ptePa e0 + 8 * fld va 30 25
      if poisoned s .dev a1 8 then .error (.walk die va 1 a1 true)
      else
        let e1 := peekNat s .dev a1 8
        if !(pteV e1 && !pteLeaf e1) then .ok ([⟨a1, e1⟩, ⟨a0, e0⟩], 25)
        else
          let a2 := ptePa e1 + 8 * fld va 24 19
          if poisoned s .dev a2 8 then .error (.walk die va 2 a2 true)
          else
            let e2 := peekNat s .dev a2 8
            if !pteLeaf e2 then .error (badWalk die va 2 a2) else .ok ([⟨a2, e2⟩, ⟨a1, e1⟩, ⟨a0, e0⟩], 19)

/-- Whether the last entry of a walk, of page size 2^size, serves no access of a kind (R332). -/
def pteFails (r : Nat) (up : List Pte) (size : Nat) (acc : Access) (host : Bool) : Bool :=
  !pteV r || pteBad r || up.any (fun p => pteBad p.raw) || decide (ptePa r % 2 ^ size ≠ 0) || !ptePermits r acc ||
  decide (host ≠ bit r 7) || (!bit r 7 && decide (Config.deviceBytes < ptePa r + 2 ^ size))

/-- PageTranslate (R332) by a walker of a die: the translation, and the state with A and D set. `quiet` is the walk of a hint,
which sets nothing. -/
def walkPage (s : State) (die : Nat) (sp : Space64) (va : Nat) (acc : Access) (host quiet : Bool) :
    Except Failure (TlbEntry × State) :=
  match walkEntries s die sp.root va with
  | .error e => .error e
  | .ok ([], _) => .error .outside
  | .ok (e :: up, size) =>
    let r := e.raw
    if pteFails r up size acc host then .error (badWalk die va up.length e.at_)
    else
      let wr := writesPage acc
      let r2 := r ||| 0x20 ||| (if wr then 0x40 else 0)
      let s2 := if !quiet && (!bit r 5 || (wr && !bit r 6)) then updateHome s .dev e.at_ (leBytes 8 r2) else s
      .ok ({ ctx := sp.tag, size := size, vpn := va / 2 ^ size, pa := ptePa r, host := bit r 7,
             r := bit r 2, w := bit r 3, x := bit r 4, dirty := wr || bit r 6 }, s2)

/-- A cached entry that serves this access: the right page, the permissions, and D set before a write. -/
def tlbServes (tag va : Nat) (acc : Access) (host : Bool) (e : TlbEntry) : Bool :=
  e.ctx = tag && va / 2 ^ e.size = e.vpn && e.host = host &&
  (match acc with
   | .load | .eread => e.r
   | .store | .ewrite => e.w && e.dirty
   | .amo => e.r && e.w && e.dirty
   | .fetch => e.x)

/-- An entry enters a cache at its most recent end; its page's older entry and the least recent one leave. -/
def tlbPut (cap : Nat) (e : TlbEntry) (t : List TlbEntry) : List TlbEntry :=
  (e :: t.filter (fun x => !(x.ctx = e.ctx && x.size = e.size && x.vpn = e.vpn))).take cap

/-- The cluster TLB: the set of an entry is its page number mod 64, and a set holds 8 (R334, assumption 8). -/
def tlbPutSet (e : TlbEntry) (t : List TlbEntry) : List TlbEntry :=
  let same := t.filter (fun x => x.vpn % 64 = e.vpn % 64)
  let others := t.filter (fun x => x.vpn % 64 ≠ e.vpn % 64)
  tlbPut 8 e same ++ others

/-- One page's translation through the caches of R334: the core's micro-TLB when a core asks, then the cluster TLB,
then a walk. -/
def translate (s : State) (cluster : Nat) (core : Option Nat) (sp : Space64) (va : Nat) (acc : Access) (host quiet : Bool) :
    Except Failure (Nat × State) :=
  let micro := match core with
    | some k => (coreOf s k).utlb.find? (tlbServes sp.tag va acc host)
    | none => none
  match micro with
  | some e =>
    .ok (e.pa + va % 2 ^ e.size, match core with
      | some k => setCore s k (fun c => { c with utlb := tlbPut 16 e c.utlb })
      | none => s)
  | none =>
    let put (e : TlbEntry) (s : State) : State :=
      let s1 := setCluster s cluster (fun c => { c with tlb := tlbPutSet e c.tlb })
      match core with
      | some k => setCore s1 k (fun c => { c with utlb := tlbPut 16 e c.utlb })
      | none => s1
    match (clusterOf s cluster).tlb.find? (tlbServes sp.tag va acc host) with
    | some e => .ok (e.pa + va % 2 ^ e.size, put e s)
    | none =>
      match walkPage s (dieOfCluster cluster) sp va acc host quiet with
      | .error e => .error e
      | .ok (e, s1) => .ok (e.pa + va % 2 ^ e.size, put e s1)

/-- The trap of an access that fails (R116, R332). -/
def walkTrap (f : Failure) (ea : Word) (acc : Access) : Trap :=
  match f with
  | .walk d va n a false => { cause := cPage, tval := ea, fetch := acc = .fetch, note := some (.walk d va n a false) }
  | .outside => { cause := cPage, tval := ea, fetch := acc = .fetch }
  | f => { cause := cAccess, tval := ea, note := some f }

/-- Bytes up to the next page boundary of the smallest page. -/
def pageRest (va : Nat) : Nat := 2 ^ 19 - va % 2 ^ 19

/-- The first of n host bytes at a that the host refuses, by its distance (R288, R332). -/
def refusedAt (s : State) (a n : Nat) : Option Nat :=
  (List.range n).find? (fun i => s.hostDeny.any (fun r => decide (r.1 ≤ a + i ∧ a + i < r.1 + r.2)))

/-- The located bytes of n bytes at a virtual address, page by page. tval names the lowest failing address (R120, R288). -/
def virtLocs (cluster : Nat) (core : Option Nat) (sp : Space64) (acc : Access) (host : Bool) :
    Nat → State → Nat → Word → Nat → Except Trap (List Loc × State)
  | 0, s, _, _, _ => .ok ([], s)
  | fuel + 1, s, va, ea, n =>
    if n = 0 then .ok ([], s)
    else
      match translate s cluster core sp va acc host false with
      | .error e => .error (walkTrap e ea acc)
      | .ok (pa, s1) =>
        let k := min n (pageRest va)
        match if host && !s.hostDeny.isEmpty then refusedAt s pa k else none with
        | some i => .error { cause := cAccess, tval := ea + BitVec.ofNat 64 i }
        | none =>
        match virtLocs cluster core sp acc host fuel s1 (va + k) (ea + BitVec.ofNat 64 k) (n - k) with
        | .error e => .error e
        | .ok (ls, s2) =>
          .ok (tabulate k (fun i => ((if host then Space.host else Space.dev), pa + i)) ++ ls, s2)

/-- Context tag and root of a host context. -/
def ctxSpace (s : State) (ctx : Nat) : Space64 :=
  { tag := ctx, root := match tget none s.contexts ctx with
      | some c => c.root
      | none => 0 }

/-- The trap of a strand's own access: refused data names the access's EA (R116). -/
def ownTrap (ea : Word) (t : Trap) : Trap := if t.cause = cAccess && t.note.isNone then { t with tval := ea } else t

/-- Whether a home holds an addition of the strand to one of some located bytes for its record: an access that comes after it in the
strand waits (R320, R388). -/
def heldAt (s : State) (st : Strand) (ls : List Loc) : Bool :=
  (s.runs[st.key.run]?).any (fun r => r.heldAdds.any (fun p => p.gls = st.key.gls &&
    ls.any (fun l => l.1 = p.space && decide (p.addr ≤ l.2 ∧ l.2 < p.addr + tyWidth p.ty / 8))))

/-- The access that waits for an addition of its strand. -/
def heldTrap : Trap := { cause := 0, stall := true }

/-- The bytes of a strand's own access, unless it has to wait. -/
def unlessHeld (st : Strand) (r : List Loc × State) : Except Trap (List Loc × State) :=
  if heldAt r.2 st r.1 then .error heldTrap else .ok r

/-- The whole of R110 for an access of a strand's own: the located bytes. -/
def locate (s : State) (st : Strand) (ea : Word) (n : Nat) (acc : Access) : Except Trap (List Loc × State) :=
  match segCheck st ea n acc false false with
  | .error t => .error t
  | .ok (.scratch off) => unlessHeld st (scratchLocs st.core st.granules off n, s)
  | .ok (.virt va host) =>
    match virtLocs (clusterOfCore st.core) (some st.core) (ctxSpace s st.ctx) acc host (n / 2 ^ 19 + 2) s va ea n with
    | .error t => .error (ownTrap ea t)
    | .ok r => unlessHeld st r
  | .ok _ => .error { cause := cSegment, tval := ea }

/-- A handler context's translations: device virtual addresses through its die's own tree (R191). -/
def handlerSpace (s : State) (core : Nat) : Space64 :=
  { tag := 16 + dieOfCore core, root := (dieOf s (dieOfCore core)).handlerRoot }

/-- A handler context's access: no segments; an address of 2^50 or more is in no page (R191). -/
def locateHandler (s : State) (core : Nat) (ea : Word) (n : Nat) (acc : Access) : Except Trap (List Loc × State) :=
  if 2 ^ 50 < ea.toNat + n then .error (walkTrap .outside ea acc)
  else virtLocs (clusterOfCore core) (some core) (handlerSpace s core) acc false 3 s ea.toNat ea n

/-! ### Events (R363, R390) -/

/-- Event source number of a unit of a cluster (R211), and of a core. -/
def unitSource (cluster unit : Nat) : Nat := cluster * 16 + unit
def coreSource (core : Nat) : Nat := unitSource (clusterOfCore core) (core % Config.cores)
/-- The event source of the host interface. -/
def hostSource : Nat := 6149

/-- The die of an event source (R390); those of the package as a whole read die 0's count. -/
def sourceDie (src : Nat) : Nat :=
  if src < 6144 then src / 16 / Config.clusters
  else if src < 6148 then src - 6144
  else if 6150 ≤ src && src < 6154 then src - 6150
  else if 6160 ≤ src && src < 6184 then (src - 6160) / 6
  else 0

/-- Raises an MSI-X vector. -/
def raiseVector (s : State) (v : Nat) : State := { s with vectors := v :: s.vectors }

/-- The 32 bytes of an event record. -/
def eventBytes (e : Event) : List Byte :=
  leBytes 8 e.gtc ++ leBytes 2 e.src ++ leBytes 1 e.kind ++ leBytes 1 e.cause ++ leBytes 4 e.launch ++
  leBytes 4 e.ids ++ leBytes 4 e.seq ++ leBytes 8 e.addr

/-- Writes an event record, or counts it lost when the log is full or disabled (R363). -/
def logEvent (s : State) (e : Event) : State :=
  let seq := tget 0 s.recCount e.src
  let s1 : State := { s with recCount := tset 0 s.recCount e.src ((seq + 1) % 2 ^ 32) }
  let size := s.logSize.toNat
  if size = 0 || (s.logTail - s.logHead).toNat = size then { s1 with logLost := s1.logLost + 1 }
  else
    let a := s.logBase.toNat + 32 * (s.logTail.toNat % size)
    let s2 := writeHome s1 .host a (eventBytes { e with gtc := gtcOf s (sourceDie e.src), seq := seq })
    { s2 with logTail := s2.logTail + 1, faultPend := true }

/-- A failed access is logged (R194, R332, R391; assumption 26): a walk with its virtual address, level and entry in the die's
list too. -/
def noteFailure (s : State) (f : Failure) : State :=
  match f with
  | .walk d va n a bad =>
    logEvent (setDie s d (fun x => { x with walkLog := x.walkLog ++ [(va, n, a)] }))
      { gtc := 0, src := 6150 + d, kind := 3, cause := if bad then cAccess else cPage, addr := a }
  | .response src a => logEvent s { gtc := 0, src := src, kind := 3, cause := cAccess, addr := a }
  | .outside => s

/-- What a trap logs. -/
def noteTrap (s : State) (t : Trap) : State := t.note.elim s (noteFailure s)

/-- The error response to a load of a core that finds located bytes poisoned. -/
def badLoad (s : State) (core : Nat) (ea : Word) (ls : List Loc) : Trap :=
  { cause := cAccess, tval := ea, note := some (.response (coreSource core) ((ls.map (·.2)).getD (poisonAt s core ls) 0)) }

end Sys2Proof.Machine
end

