-- ==== Sys2Proof/Machine/Ops.lean ====
section
/-! DEFINITION. Operations shared by the meanings: strands and their registers, taking a trap and returning from one,
and how an instruction ends (spec/04 R98 to R116, spec/05 R131 to R135, spec/08 R184 to R196). -/

namespace Sys2Proof.Machine

/-! ### Strands -/

def findStrand (s : State) (k : StrandKey) : Option Strand := s.strands.find? (fun t => t.key = k)

/-- The strand of a key; a fresh one when none has the key. -/
def strandOf (s : State) (k : StrandKey) : Strand := (findStrand s k).getD { key := k }

/-- Replaces the strand of a key by `f` of it. -/
def setStrand (s : State) (k : StrandKey) (f : Strand → Strand) : State :=
  { s with strands := lmodWhere (fun t => t.key = k) f s.strands }

/-- A launch with nothing in it. -/
def noRun : Run := { ctx := 0, origin := .packet 0 0, staging := false, counter := 0, tag := 0, irq := false }
def runOf (s : State) (r : Nat) : Run := (s.runs[r]?).getD noRun
def setRun (s : State) (r : Nat) (f : Run → Run) : State := { s with runs := lmod f s.runs r }

/-- Logical crew and strand numbers of a key (R109). -/
def crewNo (k : StrandKey) : Nat := k.gls / 32
def strandNo (k : StrandKey) : Nat := k.gls % 32

def findCrew (s : State) (run crew : Nat) : Option Crew := s.crews.find? (fun c => c.run = run && c.crew = crew)
def crewOf (s : State) (k : StrandKey) : Crew :=
  (findCrew s k.run (crewNo k)).getD { run := k.run, crew := crewNo k, cluster := 0, live := false }
def setCrew (s : State) (run crew : Nat) (f : Crew → Crew) : State :=
  { s with crews := lmodWhere (fun c => c.run = run && c.crew = crew) f s.crews }

/-- Whether a strand stands in a slot: RUNNING, BLOCKED or FROZEN. -/
def onCore (t : Strand) : Bool := t.life = .running || t.life = .blocked || t.life = .frozen

/-- The strand in a slot of a core. -/
def slotStrand (s : State) (core slot : Nat) : Option Strand :=
  s.strands.find? (fun t => t.core = core && t.slot = slot && onCore t)

/-- Die-local physical strand number, and PHYS of R192. -/
def physLocal (t : Strand) : Nat := t.core % Config.dieCores * Config.slots + t.slot
def physOf (t : Strand) : Nat := dieOfCore t.core * 2 ^ 12 + physLocal t

/-- The strand in physical strand number q of a die (R194). -/
def physStrand (s : State) (die q : Nat) : Option Strand :=
  slotStrand s (die * Config.dieCores + q / Config.slots) (q % Config.slots)

/-! ### General-purpose registers (R99) -/

/-- x[r] of a strand: x0 and a dead register read as zero. -/
def gx (t : Strand) (r : Nat) : Word := if r = 0 || t.dead.getLsbD r then 0 else tget 0 t.x r

/-- x[r] := v: x0 ignores it, any other write clears the dead bit. -/
def sx (t : Strand) (r : Nat) (v : Word) : Strand :=
  if r = 0 then t
  else { t with x := tset 0 t.x r v, dead := t.dead &&& ~~~(1#32 <<< r) }

/-- x[r] of the party that issues; a handler context has its own registers. -/
def xGet (s : State) (r : BitVec 5) : Word :=
  match s.cur with
  | .strand k => gx (strandOf s k) r.toNat
  | .handler c => if r = 0 then 0 else tget 0 (coreOf s c).hx r.toNat

def xSet (s : State) (r : BitVec 5) (v : Word) : State :=
  match s.cur with
  | .strand k => setStrand s k (fun t => sx t r.toNat v)
  | .handler c => if r = 0 then s else setCore s c (fun h => { h with hx := tset 0 h.hx r.toNat v })

/-- The address of the instruction that issues. -/
def pcOf (s : State) : Word :=
  match s.cur with
  | .strand k => (strandOf s k).pc
  | .handler c => (coreOf s c).hpc

/-- The core of the party that issues. -/
def curCore (s : State) : Nat :=
  match s.cur with
  | .strand k => (strandOf s k).core
  | .handler c => c

/-- The key under which the party's stores are sent. -/
def curKey (s : State) : StrandKey :=
  match s.cur with
  | .strand k => k
  | .handler c => handlerKey c

/-- The dead marking of a completed call or return (R100). -/
def markDead (s : State) : State :=
  match s.cur with
  | .strand k => setStrand s k (fun t => { t with dead := t.dead ||| (t.deadmask.truncate 32 &&& 0xFFFFFFF8#32) })
  | .handler _ => s

/-! ### Length and first parcel of an instruction -/

def instrLen (i : Instr) : Nat := 4 * (encode i).length
def firstParcel (i : Instr) : Word := ((encode i).headD 0).setWidth 64

/-! ### How an instruction ends -/

/-- Where the party continues. -/
inductive Next where
  | seq
  | jump (t : Word)
  | fall (t : Word)
  | stay
  deriving DecidableEq, Repr

/-- What an instruction does: it completes with its effects, it traps (with what the trap itself keeps), or it waits. -/
inductive Res where
  | ok (s : State) (n : Next)
  | trap (s : State) (t : Trap)
  | wait (s : State) (w : Wait)

/-- Falling through to an address: the end-of-body test of the hardware loop (R133). -/
def fallThrough (t : Strand) (a : Word) : Strand :=
  if t.lpcount ≠ 0 && a = t.lpend then
    let c := t.lpcount - 1
    { t with lpcount := c, pc := if c ≠ 0 then t.lpstart else t.lpend }
  else { t with pc := a }

/-- The end of the body of a repetition. -/
def repEnd (r : Rep) : Nat := r.body.foldl (fun _ e => e.2.1 + e.2.2) 0

/-- The next place in a repetition, or the fall-through that ends it (R184, R185). -/
def repAdvance (t : Strand) (r : Rep) : Strand :=
  if r.idx + 1 < r.body.length then
    { t with rep := some { r with idx := r.idx + 1 }
             pc := r.base + BitVec.ofNat 64 ((r.body[r.idx + 1]?).elim 0 (fun e => e.2.1)) }
  else if r.pass + 1 < r.count then
    { t with rep := some { r with idx := 0, pass := r.pass + 1 }, pc := r.base }
  else fallThrough { t with rep := none } (r.base + BitVec.ofNat 64 (repEnd r))

/-- The strand after it has completed an instruction of `len` bytes. -/
def advance (t : Strand) (len : Nat) (n : Next) : Strand :=
  match n with
  | .stay => t
  | .jump a => { t with pc := a }
  | .fall a => fallThrough t a
  | .seq =>
    match t.rep with
    | some r => repAdvance t r
    | none => fallThrough t (t.pc + BitVec.ofNat 64 len)

/-- The party that issued has completed an instruction of `len` bytes. -/
def complete (s : State) (len : Nat) (n : Next) : State :=
  match s.cur with
  | .strand k => setStrand s k (fun t => advance t len n)
  | .handler c => setCore s c (fun h => { h with hpc := match n with
      | .seq => h.hpc + BitVec.ofNat 64 len
      | .jump a => a
      | .fall a => a
      | .stay => h.hpc })

/-! ### Taking a trap (R115, R191, R192) -/

/-- `repst` as a trap or a save writes it (R186). -/
def repstOf (t : Strand) : Word :=
  match t.rep with
  | none => 0
  | some r => BitVec.ofNat 64
      (1 + (r.body.length - 1) * 2 ^ 1 + r.idx * 2 ^ 5 + r.pass * 2 ^ 9 + (r.count - 1) * 2 ^ 15 + r.stride * 2 ^ 21 +
       r.mask * 2 ^ 25 + (r.body[r.idx]?).elim 0 (fun e => e.2.1) * 2 ^ 32)

/-- The packet of a trapping strand (R192). -/
def packetOf (s : State) (t : Strand) (tr : Trap) : Packet :=
  let r := runOf s t.key.run
  { key := t.key, cause := BitVec.ofNat 8 tr.cause, fetch := tr.fetch, phys := physOf t, pc := t.pc, tval := tr.tval,
    gtc := gtcOf s (dieOfCore t.core), launch := r.launchid, job := r.jobid }

/-- A packet waits at its core until the buddy's fault queue takes it (R192). -/
def sendPacket (s : State) (core : Nat) (p : Packet) : State :=
  let s1 := setCore s core (fun c => { c with outq := c.outq ++ [p] })
  { s1 with due := s1.due ++ [.faultPacketDeliver core] }

/-- The trapping strand becomes FROZEN: `repst` written, the reservation lost, its packet made (R115, R123, R186). A save that had begun
is given up, its request pending until STRES (R114). -/
def freeze (s : State) (t : Strand) (tr : Trap) : Strand :=
  { t with
    life := .frozen
    saving := none
    repst := if t.recapture then t.repst else repstOf t
    rep := none
    recapture := false
    wait := none
    resv := none
    packet := some (packetOf s t tr)
    escalated := false
    frozenAt := now s t.core }

/-- A strand's place in its core's request bits. -/
def slotBit (t : Strand) : Nat := t.slot % 4

def setBit4 (v : BitVec 4) (i : Nat) (b : Bool) : BitVec 4 :=
  if b then v ||| (1#4 <<< i) else v &&& ~~~(1#4 <<< i)

/-- SAVING of a strand's slot is cleared when its save is given up. -/
def clearSaving (s : State) (t : Strand) : State :=
  if t.saving.isSome then setCore s t.core (fun c => { c with savingBits := setBit4 c.savingBits (slotBit t) false }) else s

/-- A strand takes a trap. -/
def takeTrap (s : State) (k : StrandKey) (tr : Trap) : State :=
  match findStrand s k with
  | none => s
  | some t => noteTrap (sendPacket (setStrand (clearSaving s t) k (fun t => freeze s t tr)) t.core (packetOf s t tr)) tr

/-- A trap in a handler context freezes it; its packet goes to the die manager (R191). The packet's PHYS names the die alone, a handler
context having no physical strand number (assumption 86). -/
def handlerTrap (s : State) (core : Nat) (tr : Trap) : State :=
  let p : Packet := { cause := BitVec.ofNat 8 tr.cause, fetch := tr.fetch, phys := dieOfCore core * 2 ^ 12
                      pc := (coreOf s core).hpc, tval := tr.tval, gtc := gtcOf s (dieOfCore core), ofHandler := true }
  let s1 := setCore s core (fun c => { c with hfrozen := true, hresv := none })
  noteTrap (setDie s1 (dieOfCore core) (fun d => { d with escalated := d.escalated ++ [p] })) tr

/-- The party that issues takes a trap. -/
def trapCur (s : State) (tr : Trap) : State :=
  match s.cur with
  | .strand k => takeTrap s k tr
  | .handler c => handlerTrap s c tr

/-- The party that issues becomes BLOCKED on an instruction of `len` bytes (R113). -/
def blockCur (s : State) (len : Nat) (w : Wait) : State :=
  match s.cur with
  | .strand k => setStrand s k (fun t => { t with life := .blocked, wait := some (len, w), waitSince := now s t.core, blockedAt := now s t.core })
  | .handler _ => s

/-- The end of every instruction. -/
def retire (len : Nat) (r : Res) : Host.Outcome State Fault Refusal :=
  match r with
  | .ok s n => .next (complete s len n)
  | .trap s t => .next (if t.stall then s else trapCur s t)
  | .wait s w => .next (blockCur s len w)

/-- The first parcel of the instruction that issues: inside a repetition, of the captured instruction (R184). -/
def curParcel (s : State) (i : Instr) : Word :=
  match s.cur with
  | .handler _ => firstParcel i
  | .strand k =>
    match (strandOf s k).rep with
    | some r => (r.body[r.idx]?).elim (firstParcel i) (fun e => firstParcel e.1)
    | none => firstParcel i

/-- The trap of R68 and of every check whose tval is the first parcel. -/
def parcelTrap (cause : Nat) (s : State) (i : Instr) : Trap := { cause := cause, tval := curParcel s i }
def illegal (s : State) (i : Instr) : Trap := parcelTrap cIllegal s i

/-- An instruction that strands execute: a handler context traps with ILLEGAL (R191), and so does a malformed
encoding (R68). A party that does not exist issues nothing. -/
def runStrand (i : Instr) (s : State) (f : Strand → Res) : Host.Outcome State Fault Refusal :=
  match s.cur with
  | .handler _ => retire (instrLen i) (.trap s (illegal s i))
  | .strand k =>
    match findStrand s k with
    | none => .next s
    | some t => if formOk i then retire (instrLen i) (f t) else retire (instrLen i) (.trap s (illegal s i))

/-- An instruction that strands and handler contexts execute (R5, R191). -/
def runParty (i : Instr) (s : State) (r : Res) : Host.Outcome State Fault Refusal :=
  match s.cur with
  | .handler _ => retire (instrLen i) r
  | .strand k =>
    match findStrand s k with
    | none => .next s
    | some _ => retire (instrLen i) r

/-- An instruction that handler contexts alone execute: a strand traps with PRIV (R69). -/
def runHandler (i : Instr) (s : State) (f : Nat → Res) : Host.Outcome State Fault Refusal :=
  match s.cur with
  | .handler c => retire (instrLen i) (f c)
  | .strand k =>
    match findStrand s k with
    | none => .next s
    | some _ => retire (instrLen i) (.trap s (parcelTrap cPriv s i))

/-- An event: a unit that the package does not have is a fault of the model; else the unit acts. -/
def runEvent (unit : Bool) (f : State) : Host.Outcome State Fault Refusal :=
  if unit then .next f else .fault .noSuchUnit

/-! ### Accesses of the party that issues -/

/-- Segment or handler translation of the party's access. -/
def locateCur (s : State) (ea : Word) (n : Nat) (acc : Access) : Except Trap (List Loc × State) :=
  match s.cur with
  | .strand k => locate s (strandOf s k) ea n acc
  | .handler c => locateHandler s c ea n acc

/-- A load of n bytes by the party: translation, then the bytes; a poisoned byte traps with ACCESS (R120). -/
def loadCur (s : State) (ea : Word) (n : Nat) : Except Trap (List Byte × State) :=
  match locateCur s ea n .load with
  | .error t => .error t
  | .ok (ls, s1) =>
    match loadLocs (curCore s) s1 ls with
    | none => .error (badLoad s1 (curCore s) ea ls)
    | some r => .ok r

/-- A store by the party. -/
def storeCur (s : State) (ea : Word) (bs : List Byte) : Except Trap State :=
  match locateCur s ea bs.length .store with
  | .error t => .error t
  | .ok (ls, s1) => .ok (storeLocs s1 (curCore s) (curKey s) ls bs)

/-- A load by a named strand, as a CORE-path access of its core (R110: records read at issue). -/
def loadAs (s : State) (t : Strand) (ea : Word) (n : Nat) : Except Trap (List Byte × State) :=
  match locate s t ea n .load with
  | .error t => .error t
  | .ok (ls, s1) =>
    match loadLocs t.core s1 ls with
    | none => .error (badLoad s1 t.core ea ls)
    | some r => .ok r

/-- A store by a named strand. -/
def storeAs (s : State) (t : Strand) (ea : Word) (bs : List Byte) : Except Trap State :=
  match locate s t ea bs.length .store with
  | .error t => .error t
  | .ok (ls, s1) => .ok (storeLocs s1 t.core t.key ls bs)

/-! ### Engine work that is outstanding -/

/-- The cluster that a strand's core is in. -/
def clusterOfStrand (t : Strand) : Nat := clusterOfCore t.core
def copiesOf (s : State) (t : Strand) : List CopyCmd := (clusterOf s (clusterOfStrand t)).copies.filter (fun c => c.key = t.key)
def xformsOf (s : State) (t : Strand) : List XformReq := (clusterOf s (clusterOfStrand t)).xq.filter (fun c => c.key = t.key)
def matrixOf (s : State) (t : Strand) : List MatrixCmd := (tget [] (clusterOf s (clusterOfStrand t)).mq t.core).filter (fun c => c.key = t.key)
def collsOf (s : State) (t : Strand) : List Coll := s.colls.filter (fun c => c.key = t.key)

/-- Whether a home still holds an addition of the strand for its record (R388): a write that no release may pass (R318). -/
def writesHeld (s : State) (t : Strand) : Bool := (runOf s t.key.run).heldAdds.any (fun p => decide (p.gls = t.key.gls))

/-- The same for the party that issues. -/
def curHeld (s : State) : Bool :=
  match s.cur with
  | .strand k => writesHeld s (strandOf s k)
  | .handler _ => false

/-- Whether every earlier access of the classes in a mask has completed (R315, R327). The strand's stores register when the
waiting instruction completes. -/
def classesDone (s : State) (t : Strand) (mask : Nat) : Bool :=
  (!bit mask 0 || !writesHeld s t) && (!bit mask 1 || !(coreOf s t.core).hints.any (fun h => decide (h.key = t.key))) &&
  (!bit mask 2 || ((copiesOf s t).isEmpty && (xformsOf s t).isEmpty)) &&
  (!bit mask 3 || (matrixOf s t).isEmpty) && (!bit mask 4 || (collsOf s t).isEmpty)

/-! ### Units of clusters (R211) -/


/-- An event record with the identities of a strand (R390). -/
def logStrand (s : State) (src kind cause : Nat) (k : StrandKey) (addr : Nat) : State :=
  logEvent s { gtc := 0, src := src, kind := kind, cause := cause, launch := (runOf s k.run).launchid
               ids := crewNo k + strandNo k * 2 ^ 24, addr := addr }

/-- MSI-X vectors (R363). -/
def queueVector (ctx q : Nat) : Nat := 64 * ctx + q
def ctxVector (ctx : Nat) : Nat := 1024 + ctx
def packageVector : Nat := 1040

/-- An event of the package as a whole: its record, and the package's vector (assumption 78). -/
def packageEvent (s : State) (e : Event) : State := raiseVector (logEvent s e) packageVector

end Sys2Proof.Machine
end

