-- ==== Sys2Proof/Machine/Flags.lean ====
section
/-! DEFINITION. The sticky floating-point conditions of `vxflags` (spec/02 R47, spec/04 R106, spec/06 R144). -/

namespace Sys2Proof.Machine

/-- ORs conditions into `vxflags`. -/
def orFlags (t : Strand) (fl : Nat) : Strand := { t with vxflags := t.vxflags ||| BitVec.ofNat 64 (fl % 32) }

/-- All conditions of a list of results. -/
def allFlags (l : List (Nat × Nat)) : Nat := l.foldl (fun acc r => acc ||| r.2) 0

/-- Integer saturation: the clamped result, with overflow when it was clamped (R152). -/
def clampInt (signed : Bool) (w : Nat) (i : Int) : Nat × Nat :=
  let lo : Int := if signed then -((2 ^ (w - 1) : Nat) : Int) else 0
  let hi : Int := if signed then ((2 ^ (w - 1) : Nat) : Int) - 1 else ((2 ^ w : Nat) : Int) - 1
  if i < lo then (ulow w lo, fOF) else if hi < i then (ulow w hi, fOF) else (ulow w i, 0)

/-- An integer result, clamped or wrapped (R152). -/
def intResult (signed : Bool) (w : Nat) (sat : Bool) (i : Int) : Nat × Nat :=
  if sat then clampInt signed w i else (ulow w i, 0)

end Sys2Proof.Machine
end

