-- ==== Sys2Proof/Machine/Special.lean ====
section
/-! DEFINITION. The special functions VEXP2, VLOG2, VRCP, VRSQ and VTANH (spec/02_arithmetic_and_rounding.md R55 to
R62): the f32 algorithms step by step, and the exact function values to more bits than any rounding reads. -/

namespace Sys2Proof.Machine

/-- One step of an f32 algorithm: rounded to FP32 by RNE, SAT off (R56). -/
def f32Round (v : Exact) : Exact := valueOf fp32 (convertTo fp32 0 0 false true v).1
/-- FMA with a single rounding (R56). -/
def f32Fma (a b c : Exact) : Exact := f32Round (exFma false a b c).1
/-- One rounded product. -/
def f32Mul (a b : Exact) : Exact := f32Round (exMul a b).1
/-- The value of an FP32 constant. -/
def f32Const (c : Nat) : Exact := valueOf fp32 c
/-- The negation of a value. -/
def exNegate (v : Exact) : Exact := exModify true false v

/-- The polynomial coefficients of R57. -/
def coefEx1 : Exact := f32Const 0x3F317218
def coefEx2 : Exact := f32Const 0x3E75FDF0
def coefEx3 : Exact := f32Const 0x3D635847
def coefLg1 : Exact := f32Const 0x3FB8AA3B
def coefLg2 : Exact := f32Const 0x3F38AA3B
def coefLg3 : Exact := f32Const 0x3EF6384F
def coefLg4 : Exact := f32Const 0x3EB8AA3B
def coefLg5 : Exact := f32Const 0x3E93BB63
def coefRs1 : Exact := f32Const 0x3F000000
def coefRs2 : Exact := f32Const 0x3EC00000
def coefRs3 : Exact := f32Const 0x3EA00000
def coefRs4 : Exact := f32Const 0x3E8C0000
def coefTh3 : Exact := f32Const 0xBEAAAAAB
def coefTh5 : Exact := f32Const 0x3E088889
def coefTh7 : Exact := f32Const 0xBD5D0DD1
def coefTh9 : Exact := f32Const 0x3CB327A4
def coefTh11 : Exact := f32Const 0xBC11371B

/-- Fraction bits of the fixed-point numbers below. -/
def fixBits : Nat := 256
/-- floor(ln 2 × 2^256). -/
def fixLn2 : Nat := 0xb17217f7d1cf79abc9e3b39803f2f6af40f343267298b62d8a0d175b8baafa2b

/-- The sum of x^n / n! from n = k on, for `term` = x^(k-1) / (k-1)!, in fixed point. -/
def expTail : Nat → Nat → Nat → Nat → Nat
  | 0, _, _, _ => 0
  | fuel + 1, k, x, term =>
    let t := (term * x) >>> fixBits / k
    t + expTail fuel (k + 1) x t

/-- e^x in fixed point, for x < 1. -/
def expFix (x : Nat) : Nat := 2 ^ fixBits + expTail 64 1 x (2 ^ fixBits)

/-- The sum of z^(2k+1) / (2k+1), for `p` = z^(2k+1), in fixed point. -/
def atanhTail : Nat → Nat → Nat → Nat → Nat
  | 0, _, _, _ => 0
  | fuel + 1, k, zz, p => p / (2 * k + 1) + atanhTail fuel (k + 1) zz ((p * zz) >>> fixBits)

/-- log2(a / 2^b) in fixed point, for 1 ≤ a / 2^b < 2: 2 atanh((x - 1) / (x + 1)) / ln 2. -/
def log2Fix (a b : Nat) : Nat :=
  let z := ((a - 2 ^ b) <<< fixBits) / (a + 2 ^ b)
  let l := 2 * atanhTail 90 0 ((z * z) >>> fixBits) z
  (l <<< fixBits) / fixLn2

/-- floor of a fixed-point number's 2^y split: y = k + f gives 2^f in fixed point. -/
def pow2Fix (f : Nat) : Nat := expFix ((f * fixLn2) >>> fixBits)

/-- Guard bits dropped from an approximation, which leaves more bits than any rounding reads. -/
def guardBits : Nat := 40

/-- 2^x of a finite value: exact for an integer, else 216 fraction bits and a sticky rest (R55). -/
def exExp2 (neg : Bool) (mag : Nat) (exp : Int) : Exact :=
  if 10 < magLog mag exp ∧ mag ≠ 0 then
    -- far outside every format: 2^600 overflows it, and 2^-600 lies below it
    if neg then .fin false (2 ^ 100) (-700) true else .fin false 1 600 false
  else
    let whole := decide (0 ≤ exp) || decide (mag % 2 ^ (-exp).toNat = 0)
    let m : Int := if 0 ≤ exp then (mag <<< exp.toNat : Nat) else (mag >>> (-exp).toNat : Nat)
    if whole then .fin false 1 (if neg then -m else m) false
    else
      -- the value times 2^256, rounded down
      let s := exp + fixBits
      let lo : Int := if 0 ≤ s then (mag <<< s.toNat : Nat) else (mag >>> (-s).toNat : Nat)
      let y : Int := if neg then -lo - (if 0 ≤ s then 0 else 1) else lo
      let k := y / (2 ^ fixBits : Nat)
      let f := (y % ((2 ^ fixBits : Nat) : Int)).toNat
      .fin false (pow2Fix f >>> guardBits) (k - (fixBits - guardBits : Nat)) true

/-- log2 of a positive finite value: exact for a power of two (R55). -/
def exLog2 (mag : Nat) (exp : Int) : Exact :=
  let b := log2 mag
  let e := magLog mag exp
  if mag = 2 ^ b then exInt e 0
  else
    let y : Int := e * ((2 ^ fixBits : Nat) : Int) + (log2Fix mag b : Nat)
    .fin (y < 0) (y.natAbs >>> guardBits) (-((fixBits - guardBits : Nat) : Int)) true

/-- tanh of a positive finite value (R55). -/
def exTanh (neg : Bool) (mag : Nat) (exp : Int) : Exact :=
  let k := magLog mag exp
  if mag = 0 then .fin neg 0 0 false
  else if 6 < k then .fin neg (2 ^ 200 - 1) (-200) true
  else if k < -40 then .fin neg (mag * 2 ^ 80 - 1) (exp - 80) true
  else
    -- e^(2x) = 2^(2x / ln 2)
    let s := exp + 1 + fixBits
    let x := if 0 ≤ s then mag <<< s.toNat else mag >>> (-s).toNat
    let y := (x <<< fixBits) / fixLn2
    let g := pow2Fix (y % 2 ^ fixBits) <<< (y >>> fixBits)
    .fin neg ((((g - 2 ^ fixBits) <<< fixBits) / (g + 2 ^ fixBits)) >>> guardBits) (-((fixBits - guardBits : Nat) : Int)) true

/-- 1 / sqrt of a positive finite value, exact for an even power of two (R55). -/
def exRsq (mag : Nat) (exp : Int) : Exact :=
  let e := if exp % 2 = 0 then exp else exp - 1
  let m := if exp % 2 = 0 then mag else 2 * mag
  let n := 2 ^ (400 + 2 * log2 m)
  let r := isqrt (n / m)
  .fin false r (-(e / 2) - (200 + log2 m : Nat)) (decide (r * r * m ≠ n))

/-- Table entries of R56: the FP32 value nearest to the exact real. -/
def tableE (j : Nat) : Exact := f32Round (exExp2 false j (-6))
def tableQ (j : Nat) : Exact := f32Round (exDiv exOne (.fin false (64 + j) (-6) false)).1
def tableL (j : Nat) : Exact :=
  match tableQ j with
  | .fin _ m e _ => if j = 0 then exZero else exNegate (f32Round (exLog2 m e))
  | v => v
def tableS (j : Nat) : Exact := f32Round (if j < 32 then exRsq (32 + j) (-5) else exRsq j (-4))
def tableH (j : Nat) : Exact := f32Round (exTanh false j (-2))

/-- floor(m × 2^k) of a nonnegative exact value. -/
def floorAt (mag : Nat) (exp k : Int) : Nat :=
  if 0 ≤ exp + k then mag <<< (exp + k).toNat else mag >>> (-(exp + k)).toNat

/-- VEXP2 on f32 up to its Final rounding (R58). -/
def f32Exp2 (neg : Bool) (mag : Nat) (exp : Int) : Exact × Nat :=
  let v : Exact := .fin neg mag exp false
  let x := if exLt (exInt 128 0) v then exInt 128 0 else if exLt v (exInt (-152) 0) then exInt (-152) 0 else v
  match x with
  | .fin xn xm xe _ =>
    let a : Int := alignTo (min xe (-6)) xn xm xe
    let n := a / (2 ^ (-6 - min xe (-6)).toNat : Nat)
    let k := n / 64
    let j := (n % 64).toNat
    let f := (exAdd false x (exInt (-n) (-6))).1
    let p := f32Fma f coefEx3 coefEx2
    let p := f32Fma f p coefEx1
    let p := f32Mul f p
    let y := (exFma false (tableE j) p (tableE j)).1
    (exScale y k, if j = 0 && isZero f then 0 else fNX)
  | v => (v, 0)

/-- VRCP on f32 up to its Final rounding (R59). -/
def f32Rcp (neg : Bool) (mag : Nat) (exp : Int) : Exact × Nat :=
  let b := log2 mag
  let m : Exact := .fin false mag (-b) false
  let j := floorAt mag (-b) 6 - 64
  let w := f32Fma (exNegate m) (tableQ j) exOne
  let q := f32Fma w exOne exOne
  let q := f32Fma w q exOne
  let q := f32Fma w q exOne
  let p := f32Mul w q
  let y := (exFma false (tableQ j) p (tableQ j)).1
  (exModify neg false (exScale y (-(magLog mag exp))), if mag = 2 ^ b then 0 else fNX)

/-- VLOG2 on f32 up to its Final rounding (R60). -/
def f32Log2 (mag : Nat) (exp : Int) : Exact × Nat :=
  let b := log2 mag
  let m : Exact := .fin false mag (-b) false
  let j := floorAt mag (-b) 6 - 64
  let w := f32Fma (exNegate m) (tableQ j) exOne
  let q := f32Fma w coefLg5 coefLg4
  let q := f32Fma w q coefLg3
  let q := f32Fma w q coefLg2
  let q := f32Fma w q coefLg1
  let y := f32Fma (exNegate w) q (tableL j)
  ((exAdd false y (exInt (magLog mag exp) 0)).1, if mag = 2 ^ b then 0 else fNX)

/-- VRSQ on f32 up to its Final rounding (R61). -/
def f32Rsq (mag : Nat) (exp : Int) : Exact × Nat :=
  let b := log2 mag
  let e := magLog mag exp
  let odd := e % 2 ≠ 0
  let me : Int := if odd then 1 - b else -b
  let e := if odd then e - 1 else e
  let m : Exact := .fin false mag me false
  let j := if odd then floorAt mag me 4 else floorAt mag me 5 - 32
  let t := f32Mul (tableS j) (tableS j)
  let w := f32Fma (exNegate m) t exOne
  let q := f32Fma w coefRs4 coefRs3
  let q := f32Fma w q coefRs2
  let q := f32Fma w q coefRs1
  let p := f32Mul w q
  let y := (exFma false (tableS j) p (tableS j)).1
  (exScale y (-(e / 2)), if mag = 2 ^ b && !odd then 0 else fNX)

/-- VTANH on f32 up to its Final rounding (R62). -/
def f32Tanh (neg : Bool) (mag : Nat) (exp : Int) : Exact × Nat :=
  if 16 ≤ floorAt mag exp 0 then (if neg then exNegOne else exOne, fNX)
  else
    let j := floorAt mag exp 2
    let h := (exAdd false (.fin false mag exp false) (exInt (-(j : Int)) (-2))).1
    let h2 := f32Mul h h
    let q := f32Fma h2 coefTh11 coefTh9
    let q := f32Fma h2 q coefTh7
    let q := f32Fma h2 q coefTh5
    let q := f32Fma h2 q coefTh3
    let g := f32Mul h h2
    let th := f32Fma g q h
    let n := f32Round (exAdd false (tableH j) th).1
    let d := f32Fma (tableH j) th exOne
    (exModify neg true (exDiv n d).1, fNX)

/-- A special function of an exact operand (R55 to R62): the value before the last rounding and the conditions found
before it. `single` selects the f32 algorithms, where every result but the cases that a function names exact raises inexact
(R56; assumption 84); fn is the function code of R84 (8 VRCP … 12 VTANH). -/
def specialFn (single : Bool) (fn : Nat) (v : Exact) : Exact × Nat :=
  let nx := if single then fNX else 0
  match v with
  | .nan => (.nan, nx)
  | .inf neg =>
    match fn with
    | 8 => (.fin neg 0 0 false, 0)
    | 9 => if neg then (.nan, fNV ||| nx) else (exZero, 0)
    | 10 => if neg then (exZero, 0) else (.inf false, nx)
    | 11 => if neg then (.nan, fNV ||| nx) else (.inf false, 0)
    | _ => (if neg then exNegOne else exOne, nx)
  | .fin neg mag exp _ =>
    match fn with
    | 8 => if mag = 0 then (.inf neg, fDZ ||| nx) else if single then f32Rcp neg mag exp else ((exDiv exOne v).1, 0)
    | 9 =>
      if mag = 0 then (.inf neg, fDZ ||| nx) else if neg then (.nan, fNV ||| nx)
      else if single then f32Rsq mag exp else (exRsq mag exp, 0)
    | 10 => if single then f32Exp2 neg mag exp else (exExp2 neg mag exp, 0)
    | 11 =>
      if mag = 0 then (.inf true, fDZ ||| nx) else if neg then (.nan, fNV ||| nx)
      else if single then f32Log2 mag exp else (exLog2 mag exp, 0)
    | _ => if mag = 0 then (v, 0) else if single then f32Tanh neg mag exp else (exTanh neg mag exp, 0)

end Sys2Proof.Machine
end

