-- ==== Sys2Proof/Machine/Operands.lean ====
section
/-! DEFINITION. Operand forms of X96 and X160 instructions: guards, rounding modes, draws, register groups, element
modifiers, MX blocks (spec/02 R38 to R54, spec/03 R75 to R79, spec/06 R142 to R161). -/

namespace Sys2Proof.Machine

/-! ### Guards and modes -/

/-- Whether bit b of the guard register passes (R79). -/
def guardBit (t : Strand) (f : X96) (b : Nat) : Bool :=
  if f.ge then bit (gx t f.gr.toNat).toNat (b % 64) != f.gs else true

/-- Whether lane i is active under a lane guard. -/
def activeLane (t : Strand) (f : X96) (i : Nat) : Bool := guardBit t f (f.gb.toNat + i)

/-- Whether a scalar guard is active. -/
def activeScalar (t : Strand) (f : X96) : Bool := guardBit t f f.gb.toNat

/-- The resolved rounding mode (R39): none when `vxrm` holds a reserved code. -/
def resolveMode (t : Strand) (rm : Nat) : Option Nat :=
  if rm = 7 then
    let m := t.vxrm.toNat % 8
    if m < 6 then some m else none
  else some rm

/-- The level check of R372: the launch started at ORDERED and does not run under replay. -/
def orderedOnly (s : State) (t : Strand) : Bool :=
  let r := runOf s t.key.run
  r.level = 1 && r.replay.isNone

/-- Whether a reduction is a floating-point add. -/
def fpAdd (f : X96) : Bool := f.aux = 0 && tyFloat f.ty.toNat

/-- The first checks of an instruction that a repetition may hold (R421): its mode resolves to one it does not accept, or its
launch's level bars it. Class 2 function 4 is VAMOADD; class 3 functions 0 and 1 are VRED and VSCAN. -/
def barredFirst (s : State) (t : Strand) (i : Instr) : Bool :=
  let bars (c fn : Nat) (f : X96) : Bool :=
    match resolveMode t f.rm.toNat with
    | none => true
    | some m =>
      (m = 5 && ((c = 2 && fn = 4) || (c = 3 && fn < 2 && fpAdd f))) ||
      (c = 2 && fn = 4 && tyFloat f.ty.toNat && !f.ord && orderedOnly s t)
  match x96Of i with
  | some (c, fn, f) => bars c fn f
  | none => (x160Of i).any (fun e => bars e.1 e.2.1 e.2.2.1)

/-- The draw of a lane or element at (row, column) with the strand's tensor and step (R43). -/
def drawAt (s : State) (t : Strand) (row col : Nat) : Nat :=
  drawOf (runOf s t.key.run).seed (t.srtensor.toNat % 2 ^ 32) row col (t.srstep.toNat % 2 ^ 32)

/-- The draw of lane i of an X96 vector instruction, taken only under SR (R43). -/
def laneDraw (s : State) (t : Strand) (f : X96) (mode i : Nat) : Nat :=
  if mode = 5 then
    let v := (gx t f.rs.toNat).toNat
    drawAt s t (v / 2 ^ 32) (v % 2 ^ 32 + i)
  else 0

/-! ### Vector registers -/

/-- A logical vector register as a number. -/
def vGet (t : Strand) (r : Nat) : Nat := (tget 0 t.v r).toNat
def vSet (t : Strand) (r : Nat) (v : Nat) : Strand := { t with v := tset 0 t.v r (BitVec.ofNat 512 v) }

/-- A register group of k registers as one number (R143). -/
def vGroup (t : Strand) (b k : Nat) : Nat := ofLanes 512 (tabulate k (fun i => vGet t (b + i)))
def vSetGroup (t : Strand) (b k v : Nat) : Strand := forUpTo k t (fun i t => vSet t (b + i) (lane 512 i v))

/-- Registers named by groups (base, size). -/
def groupRegs (gs : List (Nat × Nat)) : List Nat := gs.flatMap (fun g => (List.range g.2).map (g.1 + ·))

/-- The lowest unmapped register of the groups an instruction names (R101, R143). -/
def unmapped (t : Strand) (gs : List (Nat × Nat)) : Option Nat :=
  (groupRegs gs).foldl (fun acc r =>
    if 8 * t.vblocks ≤ r then (match acc with
      | none => some r
      | some a => some (min a r)) else acc) none

/-- The trap of an unmapped register. -/
def unmappedTrap (r : Nat) : Trap := { cause := cClaim, tval := BitVec.ofNat 64 r }

/-- The VREG blocks that an instruction touches wake (R190). -/
def wakeRegs (s : State) (t : Strand) (gs : List (Nat × Nat)) : State :=
  (groupRegs gs).foldl (fun s r => wake s t.core (.vreg t.slot (r / 8))) s

/-- Writes active lanes of width w over the old register group. -/
def mergeLanes (t : Strand) (f : X96) (w n old : Nat) (new : Nat → Nat) : Nat :=
  ofLanes w (tabulate n (fun i => if activeLane t f i then new i else lane w i old))

/-! ### Elements -/

/-- SCL of R75, signed. -/
def sclOf (f : X96) : Int := sint 5 f.scl.toNat

/-- A then N on an integer lane, modulo 2^w (R77). -/
def modInt (signed n a : Bool) (w v : Nat) : Nat :=
  let x : Int := sint w v
  let x : Int := if a && signed && decide (x < 0) then -x else if a && !signed then (v % 2 ^ w : Nat) else x
  ulow w (if n then -x else x)

/-- The modified pattern of an integer lane, or the pattern itself on a floating-point lane. -/
def modPattern (ty : Nat) (n a : Bool) (v : Nat) : Nat :=
  if tyInt ty then modInt (decide (ty < 4)) n a (tyWidth ty) v else v

/-- A source operand as an exact value: the pattern's value, modified (R77). -/
def operandValue (ty : Nat) (n a : Bool) (v : Nat) : Exact :=
  if tyInt ty then valueOf (tyNum ty) (modPattern ty n a v) else exModify n a (valueOf (tyNum ty) v)

/-- The integer value of a lane. -/
def intValue (ty v : Nat) : Int := if ty < 4 then sint (tyWidth ty) v else ((v % 2 ^ tyWidth ty : Nat) : Int)

/-- The quotient of the division table of R119, on w-bit patterns. -/
def divTable (signed : Bool) (w a b : Nat) : Nat :=
  if b % 2 ^ w = 0 then 2 ^ w - 1
  else if signed then ulow w ((sint w a).tdiv (sint w b))
  else (a % 2 ^ w) / (b % 2 ^ w)

/-- The remainder of the division table of R119. -/
def remTable (signed : Bool) (w a b : Nat) : Nat :=
  if b % 2 ^ w = 0 then a % 2 ^ w
  else if signed then ulow w ((sint w a).tmod (sint w b))
  else (a % 2 ^ w) % (b % 2 ^ w)

/-! ### MX blocks (R23, R25, R54) -/

/-- Bits of an element of an MX format. -/
def mxBits (k : Nat) : Nat := numBits (mxNum k)
/-- Bytes of a block in the interleaved layout. -/
def mxBytes (k : Nat) : Nat := 4 * mxBits k + 1
/-- The largest exponent of the element format (R54). -/
def mxEmax (k : Nat) : Int :=
  match k with
  | 0 => 8
  | 1 => 15
  | 2 => 4
  | 3 => 2
  | 4 => 2
  | _ => 0

/-- Element code i, and the scale code, of a block held as a little-endian number (R25). -/
def mxCode (k block i : Nat) : Nat := lane (mxBits k) i block
def mxScale (k block : Nat) : Nat := fld block (32 * mxBits k + 7) (32 * mxBits k)

/-- The value of element i of a block (R23). -/
def mxValue (k block i : Nat) : Exact :=
  let x := mxScale k block
  if x = 255 then .nan
  else match valueOf (mxNum k) (mxCode k block i) with
    | .fin neg mag exp st => .fin neg mag (exp + x - 127) st
    | v => v

/-- Whether |a| exceeds |b|, for finite values. -/
def magLt (a b : Exact) : Bool := exLt (exModify false true a) (exModify false true b)

/-- The scale code R54 chooses for 32 values (steps 1 to 3). -/
def mxScaleOf (k : Nat) (vs : List Exact) : Nat :=
  if vs.any (fun v => decide (v = .nan)) then 255
  else
    let amax := vs.foldl (fun acc v => match v with
      | .fin _ _ _ _ => if magLt acc v then exModify false true v else acc
      | _ => acc) exZero
    match amax with
    | .fin _ mag exp _ =>
      if mag = 0 then 0
      else
        let s := magLog mag exp - mxEmax k
        (max (-127) (min 127 s) + 127).toNat
    | _ => 0

/-- Packs 32 values into a block (R54): the block as a number of mxBytes bytes, and the conditions. `part` says which
elements take part; the others are +0 and take no draw. -/
def mxPack (k mode : Nat) (sat : Bool) (draw : Nat → Nat) (part : Nat → Bool) (vs : List Exact) : Nat × Nat :=
  let n := mxBits k
  let sc := mxScaleOf k vs
  if sc = 255 && vs.any (fun v => decide (v = .nan)) then
    let lost := (vs.zipIdx).any (fun e => part e.2 && decide (e.1 ≠ .nan))
    (255 * 2 ^ (32 * n), if lost then fNX else 0)
  else
    let es := vs.zipIdx.map (fun e =>
      if part e.2 then convertTo (mxNum k) mode (draw e.2) sat false (exScale e.1 (127 - (sc : Int))) else (0, 0))
    (ofLanes n (es.map (·.1)) + sc * 2 ^ (32 * n), allFlags es)

end Sys2Proof.Machine
end

