-- ==== Sys2Proof/Machine/Alu.lean ====
section
/-! DEFINITION. Integer computation of the base architecture (spec/05 R117 to R119). -/

namespace Sys2Proof.Machine

/-- x[rd] := v, and on to the next instruction. -/
def writeX (s : State) (rd : BitVec 5) (v : Word) : Res := .ok (xSet s rd v) .seq

/-- The upper immediate of LUI and AUIPC. -/
def upper (imm : BitVec 20) : Word := (imm ++ 0#12).signExtend 64
/-- A 12-bit immediate, sign-extended. -/
def immX (imm : BitVec 12) : Word := imm.signExtend 64
/-- 1 when a comparison holds. -/
def flagX (b : Bool) : Word := if b then 1 else 0
/-- The low 32 bits of a register, and a 32-bit result sign-extended. -/
def lowW (x : Word) : BitVec 32 := x.setWidth 32
def wordX (x : BitVec 32) : Word := x.signExtend 64
/-- Shift amounts of R119. -/
def shamt (s : State) (r : BitVec 5) : Nat := (xGet s r).toNat % 64
def shamtW (s : State) (r : BitVec 5) : Nat := (xGet s r).toNat % 32
/-- Bits [127:64] of a product of integers. -/
def mulHigh (a b : Int) : Word := BitVec.ofInt 64 (a * b / 2 ^ 64)
/-- The division table of R119 on the low w bits of two registers, sign-extended. -/
def divWord (signed rem : Bool) (w : Nat) (a b : Word) : Word :=
  let r := if rem then remTable signed w a.toNat b.toNat else divTable signed w a.toNat b.toNat
  sext w r

/-- LUI (R117): the upper immediate, sign-extended. -/
def execLui (rd : BitVec 5) (imm : BitVec 20) (s : State) : Host.Outcome State Fault Refusal :=
  runParty (.lui rd imm) s (writeX s rd (upper imm))

/-- AUIPC (R119): pc plus the upper immediate. -/
def execAuipc (rd : BitVec 5) (imm : BitVec 20) (s : State) : Host.Outcome State Fault Refusal :=
  runParty (.auipc rd imm) s (writeX s rd (pcOf s + upper imm))

/-- ADDI (R117). -/
def execAddi (rd rs1 : BitVec 5) (imm : BitVec 12) (s : State) : Host.Outcome State Fault Refusal :=
  runParty (.addi rd rs1 imm) s (writeX s rd (xGet s rs1 + immX imm))

/-- SLTI (R117). -/
def execSlti (rd rs1 : BitVec 5) (imm : BitVec 12) (s : State) : Host.Outcome State Fault Refusal :=
  runParty (.slti rd rs1 imm) s (writeX s rd (flagX ((xGet s rs1).slt (immX imm))))

/-- SLTIU (R117). -/
def execSltiu (rd rs1 : BitVec 5) (imm : BitVec 12) (s : State) : Host.Outcome State Fault Refusal :=
  runParty (.sltiu rd rs1 imm) s (writeX s rd (flagX ((xGet s rs1).ult (immX imm))))

/-- XORI (R117). -/
def execXori (rd rs1 : BitVec 5) (imm : BitVec 12) (s : State) : Host.Outcome State Fault Refusal :=
  runParty (.xori rd rs1 imm) s (writeX s rd (xGet s rs1 ^^^ immX imm))

/-- ORI (R117). -/
def execOri (rd rs1 : BitVec 5) (imm : BitVec 12) (s : State) : Host.Outcome State Fault Refusal :=
  runParty (.ori rd rs1 imm) s (writeX s rd (xGet s rs1 ||| immX imm))

/-- ANDI (R117). -/
def execAndi (rd rs1 : BitVec 5) (imm : BitVec 12) (s : State) : Host.Outcome State Fault Refusal :=
  runParty (.andi rd rs1 imm) s (writeX s rd (xGet s rs1 &&& immX imm))

/-- ADDIW (R117). -/
def execAddiw (rd rs1 : BitVec 5) (imm : BitVec 12) (s : State) : Host.Outcome State Fault Refusal :=
  runParty (.addiw rd rs1 imm) s (writeX s rd (wordX (lowW (xGet s rs1) + imm.signExtend 32)))

/-- SLLI (R118). -/
def execSlli (rd rs1 : BitVec 5) (sh : BitVec 6) (s : State) : Host.Outcome State Fault Refusal :=
  runParty (.slli rd rs1 sh) s (writeX s rd (xGet s rs1 <<< sh.toNat))

/-- SRLI (R118). -/
def execSrli (rd rs1 : BitVec 5) (sh : BitVec 6) (s : State) : Host.Outcome State Fault Refusal :=
  runParty (.srli rd rs1 sh) s (writeX s rd (xGet s rs1 >>> sh.toNat))

/-- SRAI (R118). -/
def execSrai (rd rs1 : BitVec 5) (sh : BitVec 6) (s : State) : Host.Outcome State Fault Refusal :=
  runParty (.srai rd rs1 sh) s (writeX s rd ((xGet s rs1).sshiftRight sh.toNat))

/-- SLLIW (R118). -/
def execSlliw (rd rs1 : BitVec 5) (sh : BitVec 5) (s : State) : Host.Outcome State Fault Refusal :=
  runParty (.slliw rd rs1 sh) s (writeX s rd (wordX (lowW (xGet s rs1) <<< sh.toNat)))

/-- SRLIW (R118). -/
def execSrliw (rd rs1 : BitVec 5) (sh : BitVec 5) (s : State) : Host.Outcome State Fault Refusal :=
  runParty (.srliw rd rs1 sh) s (writeX s rd (wordX (lowW (xGet s rs1) >>> sh.toNat)))

/-- SRAIW (R118). -/
def execSraiw (rd rs1 : BitVec 5) (sh : BitVec 5) (s : State) : Host.Outcome State Fault Refusal :=
  runParty (.sraiw rd rs1 sh) s (writeX s rd (wordX ((lowW (xGet s rs1)).sshiftRight sh.toNat)))

/-- ADD (R119). -/
def execAdd (rd rs1 rs2 : BitVec 5) (s : State) : Host.Outcome State Fault Refusal :=
  runParty (.add rd rs1 rs2) s (writeX s rd (xGet s rs1 + xGet s rs2))

/-- SUB (R119). -/
def execSub (rd rs1 rs2 : BitVec 5) (s : State) : Host.Outcome State Fault Refusal :=
  runParty (.sub rd rs1 rs2) s (writeX s rd (xGet s rs1 - xGet s rs2))

/-- SLL (R119). -/
def execSll (rd rs1 rs2 : BitVec 5) (s : State) : Host.Outcome State Fault Refusal :=
  runParty (.sll rd rs1 rs2) s (writeX s rd (xGet s rs1 <<< shamt s rs2))

/-- SLT (R117). -/
def execSlt (rd rs1 rs2 : BitVec 5) (s : State) : Host.Outcome State Fault Refusal :=
  runParty (.slt rd rs1 rs2) s (writeX s rd (flagX ((xGet s rs1).slt (xGet s rs2))))

/-- SLTU (R117). -/
def execSltu (rd rs1 rs2 : BitVec 5) (s : State) : Host.Outcome State Fault Refusal :=
  runParty (.sltu rd rs1 rs2) s (writeX s rd (flagX ((xGet s rs1).ult (xGet s rs2))))

/-- XOR (R117). -/
def execXor (rd rs1 rs2 : BitVec 5) (s : State) : Host.Outcome State Fault Refusal :=
  runParty (.xor rd rs1 rs2) s (writeX s rd (xGet s rs1 ^^^ xGet s rs2))

/-- SRL (R119). -/
def execSrl (rd rs1 rs2 : BitVec 5) (s : State) : Host.Outcome State Fault Refusal :=
  runParty (.srl rd rs1 rs2) s (writeX s rd (xGet s rs1 >>> shamt s rs2))

/-- SRA (R119). -/
def execSra (rd rs1 rs2 : BitVec 5) (s : State) : Host.Outcome State Fault Refusal :=
  runParty (.sra rd rs1 rs2) s (writeX s rd ((xGet s rs1).sshiftRight (shamt s rs2)))

/-- OR (R117). -/
def execOr (rd rs1 rs2 : BitVec 5) (s : State) : Host.Outcome State Fault Refusal :=
  runParty (.or rd rs1 rs2) s (writeX s rd (xGet s rs1 ||| xGet s rs2))

/-- AND (R117). -/
def execAnd (rd rs1 rs2 : BitVec 5) (s : State) : Host.Outcome State Fault Refusal :=
  runParty (.and rd rs1 rs2) s (writeX s rd (xGet s rs1 &&& xGet s rs2))

/-- MUL (R119). -/
def execMul (rd rs1 rs2 : BitVec 5) (s : State) : Host.Outcome State Fault Refusal :=
  runParty (.mul rd rs1 rs2) s (writeX s rd (xGet s rs1 * xGet s rs2))

/-- MULH (R119). -/
def execMulh (rd rs1 rs2 : BitVec 5) (s : State) : Host.Outcome State Fault Refusal :=
  runParty (.mulh rd rs1 rs2) s (writeX s rd (mulHigh (xGet s rs1).toInt (xGet s rs2).toInt))

/-- MULHSU (R119). -/
def execMulhsu (rd rs1 rs2 : BitVec 5) (s : State) : Host.Outcome State Fault Refusal :=
  runParty (.mulhsu rd rs1 rs2) s (writeX s rd (mulHigh (xGet s rs1).toInt (xGet s rs2).toNat))

/-- MULHU (R119). -/
def execMulhu (rd rs1 rs2 : BitVec 5) (s : State) : Host.Outcome State Fault Refusal :=
  runParty (.mulhu rd rs1 rs2) s (writeX s rd (mulHigh (xGet s rs1).toNat (xGet s rs2).toNat))

/-- DIV (R119). -/
def execDiv (rd rs1 rs2 : BitVec 5) (s : State) : Host.Outcome State Fault Refusal :=
  runParty (.div rd rs1 rs2) s (writeX s rd (divWord true false 64 (xGet s rs1) (xGet s rs2)))

/-- DIVU (R119). -/
def execDivu (rd rs1 rs2 : BitVec 5) (s : State) : Host.Outcome State Fault Refusal :=
  runParty (.divu rd rs1 rs2) s (writeX s rd (divWord false false 64 (xGet s rs1) (xGet s rs2)))

/-- REM (R119). -/
def execRem (rd rs1 rs2 : BitVec 5) (s : State) : Host.Outcome State Fault Refusal :=
  runParty (.rem rd rs1 rs2) s (writeX s rd (divWord true true 64 (xGet s rs1) (xGet s rs2)))

/-- REMU (R119). -/
def execRemu (rd rs1 rs2 : BitVec 5) (s : State) : Host.Outcome State Fault Refusal :=
  runParty (.remu rd rs1 rs2) s (writeX s rd (divWord false true 64 (xGet s rs1) (xGet s rs2)))

/-- ADDW (R119). -/
def execAddw (rd rs1 rs2 : BitVec 5) (s : State) : Host.Outcome State Fault Refusal :=
  runParty (.addw rd rs1 rs2) s (writeX s rd (wordX (lowW (xGet s rs1) + lowW (xGet s rs2))))

/-- SUBW (R119). -/
def execSubw (rd rs1 rs2 : BitVec 5) (s : State) : Host.Outcome State Fault Refusal :=
  runParty (.subw rd rs1 rs2) s (writeX s rd (wordX (lowW (xGet s rs1) - lowW (xGet s rs2))))

/-- SLLW (R119). -/
def execSllw (rd rs1 rs2 : BitVec 5) (s : State) : Host.Outcome State Fault Refusal :=
  runParty (.sllw rd rs1 rs2) s (writeX s rd (wordX (lowW (xGet s rs1) <<< shamtW s rs2)))

/-- SRLW (R119). -/
def execSrlw (rd rs1 rs2 : BitVec 5) (s : State) : Host.Outcome State Fault Refusal :=
  runParty (.srlw rd rs1 rs2) s (writeX s rd (wordX (lowW (xGet s rs1) >>> shamtW s rs2)))

/-- SRAW (R119). -/
def execSraw (rd rs1 rs2 : BitVec 5) (s : State) : Host.Outcome State Fault Refusal :=
  runParty (.sraw rd rs1 rs2) s (writeX s rd (wordX ((lowW (xGet s rs1)).sshiftRight (shamtW s rs2))))

/-- MULW (R119). -/
def execMulw (rd rs1 rs2 : BitVec 5) (s : State) : Host.Outcome State Fault Refusal :=
  runParty (.mulw rd rs1 rs2) s (writeX s rd (wordX (lowW (xGet s rs1) * lowW (xGet s rs2))))

/-- DIVW (R119). -/
def execDivw (rd rs1 rs2 : BitVec 5) (s : State) : Host.Outcome State Fault Refusal :=
  runParty (.divw rd rs1 rs2) s (writeX s rd (divWord true false 32 (xGet s rs1) (xGet s rs2)))

/-- DIVUW (R119). -/
def execDivuw (rd rs1 rs2 : BitVec 5) (s : State) : Host.Outcome State Fault Refusal :=
  runParty (.divuw rd rs1 rs2) s (writeX s rd (divWord false false 32 (xGet s rs1) (xGet s rs2)))

/-- REMW (R119). -/
def execRemw (rd rs1 rs2 : BitVec 5) (s : State) : Host.Outcome State Fault Refusal :=
  runParty (.remw rd rs1 rs2) s (writeX s rd (divWord true true 32 (xGet s rs1) (xGet s rs2)))

/-- REMUW (R119). -/
def execRemuw (rd rs1 rs2 : BitVec 5) (s : State) : Host.Outcome State Fault Refusal :=
  runParty (.remuw rd rs1 rs2) s (writeX s rd (divWord false true 32 (xGet s rs1) (xGet s rs2)))

end Sys2Proof.Machine
end

