-- ==== Sys2Proof/Machine/Record.lean ====
section
/-! DEFINITION. Order-sensitive decisions: the manifest, its replay, and the arrival rounds after an OVERFLOW record
(spec/20 R382 to R388); and accesses by a context's device virtual addresses. -/

namespace Sys2Proof.Machine

/-! ### Accesses by a context's addresses, made by units that have no segments -/

/-- One page's translation for the package's own units: HOST or device as the entry says. -/
def ctxWalk (s : State) (ctx va : Nat) (acc : Access) : Except Failure (TlbEntry × State) :=
  match walkPage s 0 (ctxSpace s ctx) va acc false false with
  | .ok r => .ok r
  | .error (.walk d va n a true) => .error (.walk d va n a true)
  | .error _ => walkPage s 0 (ctxSpace s ctx) va acc true false

/-- A failure as the walker of a die logs it. -/
def Failure.onDie (d : Nat) : Failure → Failure
  | .walk _ va n a bad => .walk d va n a bad
  | f => f

/-- The located bytes of n bytes at a context's virtual address. -/
def ctxLocsFuel (ctx : Nat) (acc : Access) : Nat → State → Nat → Nat → Except Failure (List Loc × State)
  | 0, s, _, _ => .ok ([], s)
  | fuel + 1, s, va, n =>
    if n = 0 then .ok ([], s)
    else if 2 ^ 50 ≤ va then .error .outside
    else
      match ctxWalk s ctx va acc with
      | .error e => .error e
      | .ok (e, s1) =>
        let k := min n (pageRest va)
        match ctxLocsFuel ctx acc fuel s1 (va + k) (n - k) with
        | .error e => .error e
        | .ok (ls, s2) =>
          .ok (tabulate k (fun i => ((if e.host then Space.host else Space.dev), e.pa + va % 2 ^ e.size + i)) ++ ls, s2)

def ctxLocs (s : State) (ctx va n : Nat) (acc : Access) : Except Failure (List Loc × State) :=
  ctxLocsFuel ctx acc (n / 2 ^ 19 + 2) s va n

/-- Reads n bytes at a context's virtual address: none when translation fails or a word is poisoned. -/
def ctxRead (s : State) (ctx va n : Nat) : Option (List Byte) :=
  match ctxLocs s ctx va n .load with
  | .error _ => none
  | .ok (ls, s1) => readLocs s1 ls

/-- The lowest of some located bytes that stands in a poisoned word, by its address. -/
def firstBad (s : State) (ls : List Loc) : Option Nat := (ls.find? (fun l => poisoned s l.1 l.2 1)).map (·.2)

/-- What an access of n bytes at a context's virtual address logs when it fails, made for a unit of a die: its failed walk, or the error
response to a read of a poisoned word (R332, R391). -/
def ctxFailure (s : State) (ctx va n : Nat) (acc : Access) (die src : Nat) : Option Failure :=
  match ctxLocs s ctx va n acc with
  | .error f => some (f.onDie die)
  | .ok (ls, s1) => if acc = .load then (firstBad s1 ls).map (.response src) else none

/-- A unit of the package has read n bytes: a failure is logged (R332, R391). -/
def noteRead (s : State) (ctx va n : Nat) : State := (ctxFailure s ctx va n .load 0 hostSource).elim s (noteFailure s)

/-- A unit of the package has tried an access: a failed walk of it is logged (R332; assumption 108). -/
def noteWalk (s : State) (ctx va n : Nat) (acc : Access) : State :=
  match ctxLocs s ctx va n acc with
  | .error f => noteFailure s (f.onDie 0)
  | .ok _ => s

/-- Writes bytes at a context's virtual address: none when translation fails. -/
def ctxWrite (s : State) (ctx va : Nat) (bs : List Byte) : Option State :=
  match ctxLocs s ctx va bs.length .store with
  | .error _ => none
  | .ok (ls, s1) => some (writeLocs s1 ls bs)

/-- A context's record, and an update of it. -/
def contextOf (s : State) (ctx : Nat) : Option Context := tget none s.contexts ctx
def setContext (s : State) (ctx : Nat) (f : Context → Context) : State :=
  match contextOf s ctx with
  | none => s
  | some c => { s with contexts := tins s.contexts ctx (some (f c)) }

/-! ### Launch records (R373) -/

/-- An n-byte field of a launch record. -/
def recField (v off n : Nat) : Nat := (v >>> (8 * off)) % 2 ^ (8 * n)

/-- A kernel by handle and index. -/
def kernelAt (s : State) (ctx handle idx : Nat) : Option Kernel :=
  ((contextOf s ctx).bind (fun c => c.objects.find? (fun o => o.handle = handle))).bind (fun o => o.kernels[idx]?)

/-- The bytes of a launch record in device memory: none when they cannot be read there. -/
def readRecord (s : State) (r : Run) : Option Nat :=
  if r.recAddr % 16 ≠ 0 then none
  else
    match ctxLocs s r.ctx r.recAddr 272 .load with
    | .error _ => none
    | .ok (ls, s1) => if ls.any (fun l => l.1 ≠ .dev) then none else (readLocs s1 ls).map leNat

/-- The launch id and the job id of a launch; of one that has not started, as its record names them. -/
def runIds (s : State) (run : Nat) : Nat × Nat :=
  let r := runOf s run
  if r.stage = .queued then (readRecord s r).elim (0, 0) (fun v => (recField v 0x08 4, recField v 0x0C 4)) else (r.launchid, r.jobid)

/-- A launch that starts, or that ends before it has started, bears the ids of its record (R373, R404). -/
def nameRun (s : State) (run : Nat) : State :=
  let ids := runIds s run
  setRun s run (fun r => { r with launchid := ids.1, jobid := ids.2 })

/-! ### The manifest (R383) -/

/-- The kinds of record. -/
def rAtomic : Nat := 1
def rVamoadd : Nat := 2
def rCpyred : Nat := 3
def rDeliver : Nat := 4
def rSend : Nat := 5
def rOverflow : Nat := 0x7F

/-- A record's 32 bytes. Its GTC is the package's count, die 0's (assumption 129). -/
def recordBytes (s : State) (kind flags src launch loc party seq : Nat) : List Byte :=
  leBytes 1 kind ++ leBytes 1 flags ++ leBytes 2 src ++ leBytes 4 launch ++ leBytes 8 loc ++ leBytes 4 party ++
  leBytes 4 seq ++ leBytes 8 s.gtc

/-- Writes the next 32 bytes of a context's manifest, and raises its vector once at 87.5%. A record whose address has no translation is lost
(assumption 128). -/
def putRecord (s : State) (ctx : Nat) (bytes : List Byte) : State :=
  match contextOf s ctx with
  | none => s
  | some c =>
    let s1 := (ctxWrite s ctx (c.mani + c.maniPos) bytes).getD (noteWalk s ctx (c.mani + c.maniPos) 32 .store)
    let high := 7 * c.maniSize ≤ 8 * (c.maniPos + 32)
    let s2 := setContext s1 ctx (fun c => { c with maniPos := c.maniPos + 32, maniRaised := c.maniRaised || high })
    if high && !c.maniRaised then raiseVector s2 (ctxVector ctx) else s2

/-- How many records a context's manifest still takes before the one that would take the last 32 bytes. -/
def recordRoom (c : Context) : Nat := (c.maniSize - 32 - c.maniPos) / 32

/-- Recording stops when the next record would take the last 32 bytes: the OVERFLOW record stands there before any later decision
is made (assumption 65). Its other fields, but for the GTC, are 0 (assumption 127). -/
def closeManifest (s : State) (ctx : Nat) : State :=
  match contextOf s ctx with
  | none => s
  | some c =>
    if c.overflow || c.maniSize = 0 || recordRoom c ≠ 0 then s
    else setContext (putRecord s ctx (recordBytes s rOverflow 0 0 0 0 0 0)) ctx (fun c => { c with overflow := true })

/-- Appends a record to a context's manifest. -/
def appendRecord (s : State) (ctx : Nat) (bytes : List Byte) : State :=
  match contextOf s ctx with
  | none => s
  | some c => if c.overflow || c.maniSize = 0 then s else closeManifest (putRecord s ctx bytes) ctx

/-- The source number of a home (R383, R211). -/
def homeSrc (sp : Space) (a : Nat) : Nat :=
  match sp with
  | .spad => coreSource (a / Config.spadBytes)
  | _ => Config.homeSource a

/-- Whether the launch of a strand records its decisions: RECORDED, not under replay, not overflowed. -/
def recording (s : State) (t : Strand) : Bool :=
  let r := runOf s t.key.run
  r.level = 2 && r.replay.isNone && !((contextOf s r.ctx).elim false (·.overflow))

/-- Records a decision when the launch records. -/
def recordDecision (s : State) (t : Strand) (kind flags src loc seq : Nat) : State :=
  if recording s t then
    let r := runOf s t.key.run
    appendRecord s r.ctx (recordBytes s kind flags src r.launchid loc t.key.gls seq)
  else s

/-- Whether unordered forms of the context resolve by the overflowed rules (R383). -/
def overflowed (s : State) (t : Strand) : Bool :=
  (contextOf s (runOf s t.key.run).ctx).elim false (·.overflow)

/-! ### Replay (R388) -/

/-- One record of a manifest in force: its index and its fields. -/
structure Decision where
  index : Nat
  kind : Nat
  flags : Nat
  launch : Nat
  loc : Nat
  party : Nat
  seq : Nat
  deriving DecidableEq, Repr

/-- Whether a manifest entry keeps its reserved bits and values: FLAGS[7:1] zero, KIND one of those of R383. -/
def recordSound (v : Nat) : Bool := fld v 15 9 = 0 && (fld v 7 0 ≤ rSend || fld v 7 0 = rOverflow)

/-- The records from index i on, up to an entry of kind 0 or the end; `fuel` is the number of entries left. An entry with a reserved bit
or value set is rejected whole: it names no decision (R13, assumption 105). -/
def readDecisions (s : State) (ctx base : Nat) : Nat → Nat → List Decision
  | 0, _ => []
  | fuel + 1, i =>
    match ctxRead s ctx (base + 32 * i) 32 with
    | none => []
    | some bs =>
      let v := leNat bs
      if fld v 7 0 = 0 then []
      else if !recordSound v then readDecisions s ctx base fuel (i + 1)
      else
        { index := i, kind := fld v 7 0, flags := fld v 15 8, launch := fld v 63 32, loc := fld v 127 64
          party := fld v 159 128, seq := fld v 191 160 } :: readDecisions s ctx base fuel (i + 1)

/-- The address of the first entry that cannot be read, if the records do not end before it. -/
def manifestStop (s : State) (ctx base : Nat) : Nat → Nat → Option Nat
  | 0, _ => none
  | fuel + 1, i =>
    match ctxRead s ctx (base + 32 * i) 32 with
    | none => some (base + 32 * i)
    | some bs => if fld (leNat bs) 7 0 = 0 then none else manifestStop s ctx base fuel (i + 1)

/-- What the home does with an arrival. -/
inductive Gate where
  | go | hold
  | diverge (index : Nat)
  deriving DecidableEq, Repr

/-- The number of a location in `rounds`: a word of storage, or a receiver's ring. -/
def wordLoc (sp : Space) (a : Nat) : Nat :=
  4 * (a / 8) + (match sp with
    | .dev => 0
    | .host => 1
    | .spad => 2
    | .wbuf => 1)
def ringLoc (gls : Nat) : Nat := 4 * gls + 3

/-- The strands of a launch, by gls. -/
def allStrands (r : Run) : List Nat := (List.range (32 * r.ncrew)).filter (fun h => decide (h % 32 < r.nstrand))

/-- Whether a strand no longer holds back round k at a location (R384). -/
def clearOf (s : State) (run h loc k : Nat) : Bool :=
  match findStrand s ⟨run, h⟩ with
  | none => k = 0
  | some t => k ≤ tget 0 t.rounds loc || t.life = .ended || t.life = .retained || t.arrived

/-- The lower strands that hold back the next round of a strand at a location. -/
def roundHolders (s : State) (t : Strand) (loc : Nat) : List Nat :=
  let k := tget 0 t.rounds loc + 1
  (allStrands (runOf s t.key.run)).filter (fun h => decide (h < t.key.gls) && !clearOf s t.key.run h loc k)

/-- The higher strands whose access of the round before has still to come: every access of a round is served before any of the next
(R384, assumption 66). -/
def lateHolders (s : State) (t : Strand) (loc : Nat) : List Nat :=
  (allStrands (runOf s t.key.run)).filter (fun h => decide (t.key.gls < h) && !clearOf s t.key.run h loc (tget 0 t.rounds loc))

/-- The arrival-round rule: an access goes when no lower strand holds its round back and the round before is served whole (R384). -/
def roundGate (s : State) (t : Strand) (loc : Nat) : Gate :=
  if (roundHolders s t loc).isEmpty && (lateHolders s t loc).isEmpty then .go else .hold

/-- The records of a launch's replayed manifest. -/
def decisions (s : State) (r : Run) : List Decision :=
  match r.replay with
  | some p => readDecisions s r.ctx p.base (p.size / 32) 0
  | none => []

/-- Whether the replayed manifest holds an OVERFLOW record. -/
def spilled (s : State) (r : Run) : Bool := (decisions s r).any (fun d => d.kind = rOverflow)

/-- The records that are still to be served, of every launch that the replay covers: those that none of its launches has used up. -/
def recordsLeft (s : State) (r : Run) : List Decision :=
  let spent := (s.runs.filter (fun x => x.ctx = r.ctx && x.replay = r.replay)).flatMap (fun x => x.served.map (·.1))
  (decisions s r).filter (fun d => d.kind ≠ rOverflow && !spent.contains d.index)

/-- Whether a record stands at a location as decisions of a kind name it: LOC is an address, or the gls of a strand of the launch (R383). -/
def Decision.standsAt (r : Run) (kind loc : Nat) (d : Decision) : Bool :=
  d.loc = loc && (if kind ≤ rCpyred then d.kind ≤ rCpyred else rCpyred < d.kind && d.launch = r.launchid)

/-- Whether a record names a strand as its party. -/
def Decision.isOf (r : Run) (t : Strand) (d : Decision) : Bool := d.launch = r.launchid && d.party = t.key.gls

/-- The records of a location that are still to be served, whatever launches they are of (R388). -/
def recordsAt (s : State) (r : Run) (kind loc : Nat) : List Decision := (recordsLeft s r).filter (Decision.standsAt r kind loc)

/-- The next record of a location. -/
def nextRecord (s : State) (r : Run) (kind loc : Nat) : Option Decision := (recordsAt s r kind loc).head?

/-- Whether a location's decisions resolve by the overflowed rules: after the OVERFLOW record, or, under replay of a manifest that holds
one, once the location's records are used up (R383, R388). -/
def pastRecords (s : State) (t : Strand) (kind loc : Nat) : Bool :=
  let r := runOf s t.key.run
  if r.replay.isSome then spilled s r && (nextRecord s r kind loc).isNone else overflowed s t

/-- The index past the last record of a replayed manifest: the tval of a divergence for which no record of the location is left
(R116, assumption 106). -/
def recordsEnd (s : State) (r : Run) : Nat := (decisions s r).getLast?.elim 0 (fun d => d.index + 1)

/-- The rule for a decision at a location: kind, LOC of its records, its number in `rounds`, SEQ. Where no record left names the party, REPLAY
gives the next record's index (assumption 130). -/
def gate (s : State) (t : Strand) (kind loc num seq : Nat) : Gate :=
  let r := runOf s t.key.run
  if pastRecords s t kind loc then roundGate s t num
  else if r.replay.isNone then .go
  else
    match recordsAt s r kind loc with
    | [] => .diverge (recordsEnd s r)
    | d :: rest =>
      if d.isOf r t then (if d.kind = kind && d.seq = seq then .go else .diverge d.index)
      else if rest.any (·.isOf r t) || spilled s r then .hold
      else .diverge d.index

/-- Whether a location's records are used up in a replayed manifest that holds an OVERFLOW record (R388). -/
def exhausted (s : State) (t : Strand) (kind loc : Nat) : Bool :=
  (runOf s t.key.run).replay.isSome && pastRecords s t kind loc

/-- The record that a served decision uses up under replay. -/
def serveRecord (s : State) (t : Strand) (kind loc seq : Nat) : State :=
  let r := runOf s t.key.run
  match (recordsAt s r kind loc).find? (fun d => d.isOf r t && d.kind = kind && d.seq = seq) with
  | none => s
  | some d => setRun s t.key.run (fun r => { r with served := r.served ++ [(d.index, now s t.core)] })

/-- A decision is served: its record written or used up. -/
def served (s : State) (t : Strand) (kind flags src loc seq : Nat) : State :=
  serveRecord (recordDecision s t kind flags src loc seq) t kind loc seq

/-- A strand has diverged from the record of an index (R388): its freezing is due. -/
def diverges (s : State) (k : StrandKey) (index : Nat) : State :=
  let s1 := setStrand s k (fun t => { t with diverged := some index })
  { s1 with due := s1.due ++ [.replayDiverge k index] }

/-- Counts an order-sensitive access of a strand at a location (R384). -/
def countRound (s : State) (t : Strand) (num : Nat) : State :=
  setStrand s t.key (fun t => { t with rounds := tmod 0 t.rounds num (· + 1) })

end Sys2Proof.Machine
end

