-- ==== Sys2Proof/Machine/Fetch.lean ====
section
/-! DEFINITION. Instruction fetch: parcels through the L1 instruction cache, whole instructions, and the capture of a
repetition's body (spec/03 R64 to R68, spec/08 R180 to R186). -/

namespace Sys2Proof.Machine

/-- The L1 instruction cache: a line enters its set of 4 ways at the most recent end (R180). -/
def icachePut (l : ILine) (t : List ILine) : List ILine :=
  let same := t.filter (fun x => decide (x.line % 128 = l.line % 128) && !(x.ctx = l.ctx && x.line = l.line))
  let others := t.filter (fun x => decide (x.line % 128 ≠ l.line % 128))
  (l :: same).take 4 ++ others

/-- The 64 bytes of the line at a virtual address, from the cache or its home. -/
def fetchLine (s : State) (core : Nat) (sp : Space64) (va : Nat) (host : Bool) :
    Except Failure (List Byte × State) :=
  match (coreOf s core).icache.find? (fun l => l.ctx = sp.tag && l.line = va / 64) with
  | some l => .ok (l.bytes, setCore s core (fun c => { c with icache := icachePut l c.icache }))
  | none =>
    match translate s (clusterOfCore core) (some core) sp (va / 64 * 64) .fetch host false with
    | .error e => .error e
    | .ok (pa, s1) =>
      let space := if host then Space.host else Space.dev
      if poisoned s1 space pa 64 then .error (.response (coreSource core) pa)
      else
        let bs := peekN s1 space pa 64
        .ok (bs, setCore s1 core (fun c => { c with icache := icachePut { ctx := sp.tag, line := va / 64, bytes := bs, demand := s.steps } c.icache }))

/-- The line at a virtual address from the cache, or the parcel there from its home, with no line allocated (R207). -/
def readLine (s : State) (core : Nat) (sp : Space64) (va : Nat) (host : Bool) : Except Failure (List Byte × State) :=
  if (coreOf s core).icache.any (fun l => decide (l.ctx = sp.tag) && decide (l.line = va / 64)) then fetchLine s core sp va host
  else
    match translate s (clusterOfCore core) (some core) sp (va / 64 * 64) .fetch host false with
    | .error e => .error e
    | .ok (pa, s1) =>
      let space := if host then Space.host else Space.dev
      let a := pa + va % 64 / 4 * 4
      if poisoned s1 space a 4 then .error (.response (coreSource core) a) else .ok (peekN s1 space pa 64, s1)

/-- The line that a hint brings enters the cache, unless the least recent line of its full set came by a demand fill that
started after the hint (R182); a line that cannot be read is dropped. -/
def hintLine (s : State) (core : Nat) (h : Hint) : State :=
  let same := (coreOf s core).icache.filter (fun x => decide (x.line % 128 = h.line % 128))
  if same[3]?.any (fun v => decide (h.step < v.demand)) || same.any (fun x => decide (x.ctx = h.ctx) && decide (x.line = h.line)) then s
  else
    match translate s (clusterOfCore core) (some core) (ctxSpace s h.ctx) (h.line * 64) .fetch false true with
    | .error _ => s
    | .ok (pa, s1) =>
      if poisoned s1 .dev pa 64 then s1
      else
        let l : ILine := { ctx := h.ctx, line := h.line, bytes := peekN s1 .dev pa 64, demand := 0 }
        setCore s1 core (fun c => { c with icache := icachePut l c.icache })

/-- A hint line leaves its core's queue. -/
def dropHint (s : State) (core : Nat) (h : Hint) : State := setCore s core (fun c => { c with hints := c.hints.erase h })

/-- A body scan's line (R207): a fill in flight is waited for; then as `readLine`. -/
def scanLine (s : State) (core : Nat) (sp : Space64) (va : Nat) (host : Bool) : Except Failure (List Byte × State) :=
  match (coreOf s core).hints.find? (fun h => decide (h.ctx = sp.tag) && decide (h.line = va / 64)) with
  | some h => readLine (hintLine (dropHint s core h) core h) core sp va host
  | none => readLine s core sp va host

/-- The parcel of a fetched line at a virtual address. -/
def lineParcel (bs : List Byte) (va : Nat) : Parcel := BitVec.ofNat 32 (leNat ((bs.drop (va % 64 / 4 * 4)).take 4))

/-- One parcel of a strand's code by a reader of lines: the checks of R66 step 1, tval the parcel's address. -/
def parcelBy (line : State → Nat → Space64 → Nat → Bool → Except Failure (List Byte × State)) (s : State) (t : Strand) (a : Word) :
    Except Trap (Parcel × State) :=
  match segCheck t a 4 .fetch false false with
  | .error e => .error e
  | .ok (.virt va host) =>
    match line s t.core (ctxSpace s t.ctx) va host with
    | .error e => .error (walkTrap e a .fetch)
    | .ok (bs, s1) => .ok (lineParcel bs va, s1)
  | .ok _ => .error { cause := cSegment, tval := a }

/-- Fetches one parcel for a strand. -/
def fetchParcel (s : State) (t : Strand) (a : Word) : Except Trap (Parcel × State) :=
  parcelBy fetchLine s t a

/-- Fetches one parcel for a handler context: device virtual addresses, PAGE outside its image (R191). -/
def fetchHandler (s : State) (core : Nat) (a : Word) : Except Trap (Parcel × State) :=
  if 2 ^ 50 < a.toNat + 4 then .error (walkTrap .outside a .fetch)
  else
    match fetchLine s core (handlerSpace s core) a.toNat false with
    | .error e => .error (walkTrap e a .fetch)
    | .ok (bs, s1) => .ok (lineParcel bs a.toNat, s1)

/-- Fetches n parcels in ascending order. -/
def fetchMore (get : State → Word → Except Trap (Parcel × State)) :
    Nat → State → Word → Except Trap (List Parcel × State)
  | 0, s, _ => .ok ([], s)
  | n + 1, s, a =>
    match get s a with
    | .error e => .error e
    | .ok (p, s1) =>
      match fetchMore get n s1 (a + 4) with
      | .error e => .error e
      | .ok (ps, s2) => .ok (p :: ps, s2)

/-- A fetched instruction: the instruction, or the first parcel of an illegal one (R66 steps 1 to 4). -/
def fetchInstr (get : State → Word → Except Trap (Parcel × State)) (s : State) (a : Word) :
    Except Trap (Except Parcel Instr × State) :=
  match get s a with
  | .error e => .error e
  | .ok (p, s1) =>
    match parcelCount p with
    | .error _ => .ok (.error p, s1)
    | .ok n =>
      match fetchMore get (n - 1) s1 (a + 4) with
      | .error e => .error e
      | .ok (ps, s2) =>
        match decodeWhole (p :: ps) with
        | .ok i => .ok (.ok i, s2)
        | .error _ => .ok (.error p, s2)

/-- A strand's next instruction. -/
def fetchStrand (s : State) (t : Strand) (a : Word) : Except Trap (Except Parcel Instr × State) :=
  fetchInstr (fun s a => fetchParcel s t a) s a

/-! ### The repetition buffer (R183 to R186) -/

/-- Instructions that a repetition may hold: X96 and X160 of classes VARITH, VCONV, VMEM and VLANE. -/
def repeatable (i : Instr) : Bool :=
  match x96Of i with
  | some (c, _, _) => c < 4
  | none => (x160Of i).isSome

/-- Whether a register field of an instruction is used and names a vector register: VD, VS1, VS2, VS3 (R184). -/
def vectorFields (i : Instr) : List Bool :=
  match x96Of i with
  | some (0, fn, _) => [true, true, varithSources fn ≠ 1, varithSources fn = 3]
  | some (1, fn, _) =>
    match fn with
    | 3 => [false, true, false, false]
    | 6 => [true, false, false, false]
    | _ => [true, true, false, false]
  | some (2, fn, _) =>
    match fn with
    | 0 => [true, true, false, false]
    | 2 => [true, false, false, false]
    | 3 => [false, true, false, false]
    | _ => [false, true, true, false]
  | some (3, fn, _) =>
    match fn with
    | 2 | 3 => [true, true, true, false]
    | 4 => [false, true, true, false]
    | 5 => [true, false, false, false]
    | 7 => [false, false, false, false]
    | _ => [true, true, false, false]
  | _ =>
    match x160Of i with
    | some (0, fn, _, _) => [true, true, false, varithSources fn = 3]
    | some (_, _, _, _) => [false, true, false, false]
    | none => [false, false, false, false]

/-- Whether every staggered field is a vector register field of the instruction. -/
def staggerOk (mask : Nat) (i : Instr) : Bool :=
  (vectorFields i).zipIdx.all (fun e => e.1 || !bit mask e.2)

/-- The capture of a body of n instructions at address a (R184): none marks an instruction that R184 forbids. -/
def captureBody (t : Strand) (mask : Nat) :
    Nat → State → Word → Nat → Except Trap (Option (List (Instr × Nat × Nat)) × State)
  | 0, s, _, _ => .ok (some [], s)
  | n + 1, s, base, off =>
    match fetchStrand s t (base + BitVec.ofNat 64 off) with
    | .error e => .error e
    | .ok (.error _, s1) => .ok (none, s1)
    | .ok (.ok i, s1) =>
      if !(repeatable i && staggerOk mask i) then .ok (none, s1)
      else
        match captureBody t mask n s1 base (off + instrLen i) with
        | .error e => .error e
        | .ok (none, s2) => .ok (none, s2)
        | .ok (some l, s2) => .ok (some ((i, off, instrLen i) :: l), s2)

/-- An instruction with its X96 fields replaced. -/
def withFields (i : Instr) (g : X96 → X96) : Instr :=
  match x96Of i with
  | some (c, fn, f) => (x96Instr c fn (g f)).getD i
  | none =>
    match x160Of i with
    | some (c, fn, f, lit) => (x160Instr c fn (g f) lit).getD i
    | none => i

/-- The X96 fields of an instruction that has them. -/
def fieldsOf (i : Instr) : X96 :=
  match x96Of i with
  | some (_, _, f) => f
  | none => ((x160Of i).map (fun e => e.2.2.1)).getD {}

/-- The staggered numbers of VD, VS1, VS2 and VS3 on a pass. -/
def staggered (mask add : Nat) (f : X96) : List Nat :=
  let g (b : Nat) (v : BitVec 6) : Nat := if bit mask b then v.toNat + add else v.toNat
  [g 0 f.vd, g 1 f.vs1, g 2 f.vs2, g 3 f.vs3]

/-- The lowest unmapped register among the staggered numbers of the fields that an instruction uses (R143). A group base is a
multiple of its group, so a group with an unmapped register has an unmapped base. -/
def lowestUnmapped (t : Strand) (i : Instr) (ns : List Nat) : Nat :=
  ((ns.zip (vectorFields i)).filter (fun e => e.2 && decide (8 * t.vblocks ≤ e.1))).foldl (fun acc e => min acc e.1)
    (ns.foldl max 0)

/-- The instruction that a pass issues, or its trap: ILLEGAL on a group base that is no multiple of its size; then, with a
number of 64 or more, the checks of R421 and CLAIM on the lowest unmapped register (R143, R184). -/
def passInstr (s : State) (t : Strand) (r : Rep) (i : Instr) : Except Trap Instr :=
  let ns := staggered r.mask (r.pass * r.stride) (fieldsOf i)
  let b (k : Nat) : BitVec 6 := BitVec.ofNat 6 (ns.getD k 0)
  let j := withFields i (fun f => { f with vd := b 0, vs1 := b 1, vs2 := b 2, vs3 := b 3 })
  if !formOk j then .error { cause := cIllegal, tval := firstParcel i }
  else if ns.any (fun n => decide (64 ≤ n)) then
    if barredFirst s t j then .error { cause := cIllegal, tval := firstParcel i }
    else .error (unmappedTrap (lowestUnmapped t i ns))
  else .ok j

end Sys2Proof.Machine
end

