-- ==== Sys2Proof/Machine/Control.lean ====
section
/-! DEFINITION. Control transfers, the hardware loop, FHINT, REPB, FENCE, FENCE.I, FENCEX and the traps ECALL and EBREAK
(spec/05 R125 to R137, spec/08 R180 to R184, spec/17 R327). -/

namespace Sys2Proof.Machine

/-! ### Transfers (R125) -/

/-- A taken transfer: the target checks come first, alignment before the range by the order of R110 and R116 (assumption 12), and `s1`
holds what the transfer writes. A handler context has no segments, so its target needs alignment only. -/
def transfer (s s1 : State) (target : Word) : Res :=
  let strand := match s.cur with
    | .strand _ => true
    | .handler _ => false
  if target.toNat % 4 ≠ 0 then .trap s { cause := cMisaligned, tval := target }
  else if strand && target.toNat / 2 ^ 60 ≠ 0 then .trap s { cause := cSegment, tval := target }
  else .ok s1 (.jump target)

/-- Sign-extended branch offsets; the encodings leave out bit 0. -/
def offJ20 (off : BitVec 20) : Word := (off ++ 0#1).signExtend 64
def offB12 (off : BitVec 12) : Word := (off ++ 0#1).signExtend 64
def offB10 (off : BitVec 10) : Word := (off ++ 0#1).signExtend 64

/-- A conditional branch. -/
def branch (s : State) (taken : Bool) (off : Word) : Res :=
  if taken then transfer s s (pcOf s + off) else .ok s .seq

/-- A jump that links: the link is written before the dead marking of R100. -/
def jumpLink (s : State) (rd : BitVec 5) (target : Word) (marks : Bool) : Res :=
  let s1 := xSet s rd (pcOf s + 4)
  transfer s (if marks then markDead s1 else s1) target

/-- JAL (R125). -/
def execJal (rd : BitVec 5) (off : BitVec 20) (s : State) : Host.Outcome State Fault Refusal :=
  runParty (.jal rd off) s (jumpLink s rd (pcOf s + offJ20 off) (rd = 1))

/-- JALR (R125). -/
def execJalr (rd rs1 : BitVec 5) (imm : BitVec 12) (s : State) : Host.Outcome State Fault Refusal :=
  runParty (.jalr rd rs1 imm) s
    (jumpLink s rd ((xGet s rs1 + immX imm) &&& ~~~1) (rd = 1 || (rd = 0 && rs1 = 1 && imm = 0)))

/-- BEQ (R125). -/
def execBeq (rs1 rs2 : BitVec 5) (off : BitVec 12) (s : State) : Host.Outcome State Fault Refusal :=
  runParty (.beq rs1 rs2 off) s (branch s (xGet s rs1 = xGet s rs2) (offB12 off))

/-- BNE (R125). -/
def execBne (rs1 rs2 : BitVec 5) (off : BitVec 12) (s : State) : Host.Outcome State Fault Refusal :=
  runParty (.bne rs1 rs2 off) s (branch s (xGet s rs1 ≠ xGet s rs2) (offB12 off))

/-- BLT (R125). -/
def execBlt (rs1 rs2 : BitVec 5) (off : BitVec 12) (s : State) : Host.Outcome State Fault Refusal :=
  runParty (.blt rs1 rs2 off) s (branch s ((xGet s rs1).slt (xGet s rs2)) (offB12 off))

/-- BGE (R125). -/
def execBge (rs1 rs2 : BitVec 5) (off : BitVec 12) (s : State) : Host.Outcome State Fault Refusal :=
  runParty (.bge rs1 rs2 off) s (branch s (!(xGet s rs1).slt (xGet s rs2)) (offB12 off))

/-- BLTU (R125). -/
def execBltu (rs1 rs2 : BitVec 5) (off : BitVec 12) (s : State) : Host.Outcome State Fault Refusal :=
  runParty (.bltu rs1 rs2 off) s (branch s ((xGet s rs1).ult (xGet s rs2)) (offB12 off))

/-- BGEU (R125). -/
def execBgeu (rs1 rs2 : BitVec 5) (off : BitVec 12) (s : State) : Host.Outcome State Fault Refusal :=
  runParty (.bgeu rs1 rs2 off) s (branch s (!(xGet s rs1).ult (xGet s rs2)) (offB12 off))

/-- BBS (R136): H is a prediction and changes no outcome. -/
def execBbs (h : Bool) (rs1 : BitVec 5) (b : BitVec 6) (off : BitVec 10) (s : State) : Host.Outcome State Fault Refusal :=
  runStrand (.bbs h rs1 b off) s (fun t => branch s ((gx t rs1.toNat).getLsbD b.toNat) (offB10 off))

/-- BBC (R136). -/
def execBbc (h : Bool) (rs1 : BitVec 5) (b : BitVec 6) (off : BitVec 10) (s : State) : Host.Outcome State Fault Refusal :=
  runStrand (.bbc h rs1 b off) s (fun t => branch s (!(gx t rs1.toNat).getLsbD b.toNat) (offB10 off))

/-! ### Fences -/

/-- A FENCE with the given sets (R127): a release when pred holds W, an acquire when succ holds R. Loads have returned
their values when they complete. -/
def fenceEffect (s : State) (pred succ : BitVec 4) : State :=
  if pred = 0 || succ = 0 then s
  else
    let s1 := if pred.getLsbD 0 || pred.getLsbD 2 then release s (curCore s) (curKey s) else s
    if succ.getLsbD 1 || succ.getLsbD 3 then acquire s1 (curCore s) else s1

/-- A FENCE: while its release waits for additions that their homes hold, it stays. -/
def fence (s : State) (pred succ : BitVec 4) : Res :=
  if pred ≠ 0 && succ ≠ 0 && (pred.getLsbD 0 || pred.getLsbD 2) && curHeld s then .ok s .stay
  else .ok (fenceEffect s pred succ) .seq

/-- FENCE (R127). -/
def execFence (pred succ : BitVec 4) (s : State) : Host.Outcome State Fault Refusal :=
  runParty (.fence pred succ) s (fence s pred succ)

/-- FENCE.TSO (R127): as FENCE rw, rw. -/
def execFenceTso (s : State) : Host.Outcome State Fault Refusal :=
  runParty .fenceTso s (fence s 3 3)

/-- FENCE.I (R128): own stores register, and the core's L1 instruction cache is emptied. -/
def execFenceI (s : State) : Host.Outcome State Fault Refusal :=
  runParty .fenceI s (if curHeld s then .ok s .stay else .ok (setCore (release s (curCore s) (curKey s)) (curCore s) (fun c => { c with icache := [] })) .seq)

/-- What FENCEX does once its wait is over (R327). -/
def fencexEffect (s : State) (a b : Nat) : State :=
  let s1 := if bit a 0 then release s (curCore s) (curKey s) else s
  if bit b 0 && a / 2 ≠ 0 then acquire s1 (curCore s) else s1

/-- FENCEX (R327). A handler context issues no engine commands, so it never waits. -/
def execFencex (a b : BitVec 5) (s : State) : Host.Outcome State Fault Refusal :=
  runParty (.fencex a b) s
    (if a = 0 || b = 0 then .ok s .seq
     else match s.cur with
      | .handler _ => .ok (fencexEffect s a.toNat b.toNat) .seq
      | .strand k =>
        if classesDone s (strandOf s k) a.toNat then .ok (fencexEffect s a.toNat b.toNat) .seq
        else .wait s (.fencex a.toNat b.toNat))

/-! ### ECALL and EBREAK (R129) -/

/-- ECALL. -/
def execEcall (s : State) : Host.Outcome State Fault Refusal :=
  runParty .ecall s (.trap s { cause := cEcall, tval := 0 })

/-- EBREAK. -/
def execEbreak (s : State) : Host.Outcome State Fault Refusal :=
  runParty .ebreak s (.trap s { cause := cEbreak, tval := pcOf s })

/-! ### The hardware loop (R132) -/

/-- The scan of a loop body of n instructions from address a: the address after it. -/
def scanBody (t : Strand) : Nat → State → Word → Except Trap (Word × State)
  | 0, s, a => .ok (a, s)
  | n + 1, s, a =>
    match parcelBy scanLine s t a with
    | .error e => .error e
    | .ok (p, s1) =>
      scanBody t n s1 (a + BitVec.ofNat 64 (4 * match parcelCount p with
        | .ok k => k
        | .error _ => 1))

/-- An sg0 pointer as `lpstart` and `lpend` hold it (R131). -/
def loopPtr (v : Word) : Word := v &&& 0x0FFFFFFFFFFFFFFC

/-- LOOP (R132). -/
def execLoop (rs1 : BitVec 5) (n : BitVec 12) (s : State) : Host.Outcome State Fault Refusal :=
  runStrand (.loop rs1 n) s (fun t =>
    if t.lpcount ≠ 0 then .trap s (illegal s (.loop rs1 n))
    else
      match scanBody t n.toNat s (t.pc + 4) with
      | .error e => .trap s e
      | .ok (a, s1) =>
        let c := gx t rs1.toNat
        let s2 := setStrand s1 t.key (fun t => { t with lpstart := loopPtr (t.pc + 4), lpend := loopPtr a, lpcount := c })
        .ok s2 (.jump (if c = 0 then a else t.pc + 4)))

/-! ### FHINT (R137, R182) -/

/-- The lines that a hint may bring in: within sg0, with bits [63:60] zero. -/
def hintLines (t : Strand) (ptr : Word) (n : Nat) : List Nat :=
  (List.range n).filterMap (fun i =>
    let a := BitVec.ofNat 64 ((ptr.toNat / 64 + i) * 64)
    if ptr.toNat / 2 ^ 60 ≠ 0 then none
    else
      match segCheck t a 64 .fetch false false with
      | .ok (.virt va _) => some (va / 64)
      | _ => none)

/-- One line enters the hint queue, unless it is full or the line is present or on its way. -/
def hintOne (t : Strand) (line : Nat) (s : State) : State :=
  let c := coreOf s t.core
  let is (ctx l : Nat) : Bool := ctx = t.ctx && l = line
  if 8 ≤ c.hints.length || c.hints.any (fun h => is h.ctx h.line) || c.icache.any (fun l => is l.ctx l.line) then s
  else setCore s t.core (fun c => { c with hints := c.hints ++ [{ ctx := t.ctx, line := line, key := t.key, step := s.steps }] })

/-- FHINT. -/
def execFhint (rs1 : BitVec 5) (k : BitVec 4) (s : State) : Host.Outcome State Fault Refusal :=
  runStrand (.fhint rs1 k) s (fun t =>
    .ok ((hintLines t (gx t rs1.toNat) (k.toNat + 1)).foldl (fun s l => hintOne t l s) s) .seq)

/-! ### REPB (R184) -/

/-- REPB: the capture, and the start of the first pass. -/
def execRepb (rs1 : BitVec 5) (n stride mask : BitVec 4) (s : State) : Host.Outcome State Fault Refusal :=
  runStrand (.repb rs1 n stride mask) s (fun t =>
    let c := (gx t rs1.toNat).toNat
    if 64 < c then .trap s (parcelTrap cEngine s (.repb rs1 n stride mask))
    else
      match captureBody t mask.toNat (n.toNat + 1) s (t.pc + 4) 0 with
      | .error e => .trap s e
      | .ok (none, _) => .trap s (illegal s (.repb rs1 n stride mask))
      | .ok (some body, s1) =>
        let r : Rep := { base := t.pc + 4, body := body, idx := 0, pass := 0, count := c, stride := stride.toNat
                         mask := mask.toNat }
        if c = 0 then .ok s1 (.fall (r.base + BitVec.ofNat 64 (repEnd r)))
        else .ok (setStrand s1 t.key (fun t => { t with rep := some r })) (.jump r.base))

/-! ### Fetch events -/

/-- A first parcel that R65 finds illegal, or an encoding that R68 finds malformed: ILLEGAL, tval the parcel. -/
def execMalformedEncoding (parcel : Parcel) (s : State) : Host.Outcome State Fault Refusal :=
  .next (trapCur s { cause := cIllegal, tval := parcel.setWidth 64 })

/-- The fetch of a parcel fails (R66): tval its address, the fetch flag for PAGE. A fetch fails with SEGMENT, PAGE or ACCESS and with no
other cause (R66, R116). -/
def execFetchFault (cause : BitVec 8) (addr : Word) (s : State) : Host.Outcome State Fault Refusal :=
  .next (if cause.toNat = cSegment || cause.toNat = cPage || cause.toNat = cAccess then
    trapCur s { cause := cause.toNat, tval := addr, fetch := cause.toNat = cPage } else s)

/-- Whether a hint line waits for a table walk (R335), and whether a TLB holds its page for fetches. -/
def hintWalking (s : State) (core : Nat) (h : Hint) : Bool :=
  (dieOf s (dieOfCore core)).walkq.any (fun w => w.core = core && w.ctx = h.ctx && w.line = h.line)
def hintMapped (s : State) (core : Nat) (h : Hint) : Bool :=
  let serves (e : TlbEntry) : Bool := tlbServes h.ctx (h.line * 64) .fetch false e
  (coreOf s core).utlb.any serves || (clusterOf s (clusterOfCore core)).tlb.any serves

/-- The oldest hint line of a core that waits for no walk returns, or asks for one (R180, R182, R335). -/
def fillHint (s : State) (core : Nat) : State :=
  match (coreOf s core).hints.find? (fun h => !hintWalking s core h) with
  | none => s
  | some h =>
    if hintMapped s core h then hintLine (dropHint s core h) core h
    else setDie s (dieOfCore core) (fun d => { d with walkq := d.walkq ++ [{ core := core, ctx := h.ctx, line := h.line }] })

/-- ICACHE_FILL (R180). -/
def execIcacheFill (core : Nat) (s : State) : Host.Outcome State Fault Refusal :=
  runEvent (coreOk core) (fillHint s core)

/-- A finished walk serves one hint line: the translation is cached for its core, or the line is dropped (R335, R137). -/
def walkFor (s : State) (w : WalkReq) : State :=
  match translate s (clusterOfCore w.core) (some w.core) (ctxSpace s w.ctx) (w.line * 64) .fetch false true with
  | .ok (_, s1) => s1
  | .error _ => setCore s w.core (fun c => { c with hints := c.hints.filter (fun h => !(h.ctx = w.ctx && h.line = w.line)) })

/-- The oldest queued walk of a die completes, for every line of its page that joined it. The walks of accesses and demand fetches are
part of their instructions. -/
def walkQueue (s : State) (die : Nat) : State :=
  match (dieOf s die).walkq with
  | [] => s
  | w :: _ =>
    let joins (x : WalkReq) : Bool := x.ctx = w.ctx && decide (x.line / 2 ^ 13 = w.line / 2 ^ 13)
    let s1 := setDie s die (fun d => { d with walkq := d.walkq.filter (fun x => !joins x) })
    ((dieOf s die).walkq.filter joins).foldl walkFor s1

/-- PAGE_WALK (R332, R335). -/
def execPageWalk (die : Nat) (s : State) : Host.Outcome State Fault Refusal :=
  runEvent (decide (die < Config.dies)) (walkQueue s die)

end Sys2Proof.Machine
end

