-- ==== Sys2Proof/Machine/Saving.lean ====
section
/-! DEFINITION. Pre-emption requests and the start of a save (spec/08 R193, R197 to R199, spec/04 R113, R114). -/

namespace Sys2Proof.Machine

/-- Whether a strand stands at an instruction or pass boundary: not inside a pass of a repetition, nor of one that it has still to
capture again (R140, R185, R186). -/
def atBoundary (t : Strand) : Bool :=
  match t.rep with
  | some r => r.idx = 0
  | none => !t.recapture || fld t.repst.toNat 8 5 = 0

/-- Whether a cancel that has reached a strand ends it at the point where it stands: a pre-emption waits for it (R114, R140). -/
def cancelFirst (t : Strand) : Bool := t.cancelPending && (decide (t.life = .blocked) || atBoundary t)

/-- Whether a pre-emption request is pending for a strand (R198). -/
def requested (s : State) (t : Strand) : Bool := (coreOf s t.core).req.getLsbD (slotBit t)

/-- Everything a strand holds: every mapped register, every granted granule, every slot it masters (R199). -/
def everything (s : State) (t : Strand) : BitVec 64 × BitVec 16 × BitVec 8 × Bool :=
  let cl := clusterOf s (clusterOfStrand t)
  let slots := (crewOf s t.key).mslots
  let ms := slots.zipIdx.foldl (fun acc e =>
    if (tget {} cl.slots e.1).master = some t.key then acc + 2 ^ e.2 else acc) 0
  (BitVec.ofNat 64 (2 ^ (8 * t.vblocks) - 1), BitVec.ofNat 16 (2 ^ t.granules.length - 1), BitVec.ofNat 8 ms, true)

/-- A strand's claim request leaves its cluster's queue. -/
def dropClaim (s : State) (t : Strand) : State :=
  setCluster s (clusterOfStrand t) (fun c => { c with claimq := c.claimq.filter (fun r => r.key ≠ t.key), stalled := false })

/-- The queued command of an abandoned MDRAIN, MDRAINS or MTSV leaves its queue (R261). Its slot stays closed, as the command left it
(assumption 94). -/
def dropDrain (s : State) (t : Strand) : State :=
  match t.wait with
  | some (_, .drain id _) =>
    setCluster s (clusterOfStrand t) (fun c => { c with mq := tmod [] c.mq t.core (fun q => q.filter (fun x => x.id ≠ id)) })
  | _ => s

/-- Whether a blocked drain stands in its second phase: its conversion has run and its command has left the queue, so that it
finishes (R261). -/
def drainEnds (s : State) (t : Strand) : Bool :=
  match t.life, t.wait with
  | .blocked, some (_, .drain id _) => !(tget [] (clusterOf s (clusterOfStrand t)).mq t.core).any (fun x => decide (x.id = id))
  | _, _ => false

/-- A blocked instruction is abandoned with no effect (R113): its claim request, its drain command and its arrival are withdrawn. -/
def abandon (s : State) (t : Strand) : State :=
  if t.life = .blocked then
    setStrand (dropDrain (dropClaim s t) t) t.key (fun t => { t with life := .running, wait := none, arrived := false })
  else s

/-- The save of a strand begins: it issues nothing more (R200 step 1). A blocked instruction is abandoned only once the request is not
refused (R203). -/
def beginSave (s : State) (t : Strand) (live : BitVec 64 × BitVec 16 × BitVec 8 × Bool) : State :=
  let s2 := setStrand s t.key (fun t => { t with saving := some live })
  let s3 := setCore s2 t.core (fun c => { c with savingBits := setBit4 c.savingBits (slotBit t) true })
  { s3 with due := s3.due ++ [.saveWrite t.key] }

/-- A request reaches slot i of a core: its count begins, and a BLOCKED strand is saved at once (R199) unless a cancel takes effect first
(R114). -/
def requestSlot (core i : Nat) (s : State) : State :=
  if (coreOf s core).req.getLsbD i then s
  else
    let s1 := setCore s core (fun c => { c with req := setBit4 c.req i true })
    match slotStrand s1 core i with
    | none => s1
    | some t =>
      let s2 := setStrand s1 t.key (fun t => { t with preSince := some (now s core) })
      if t.life = .blocked && !t.cancelPending then beginSave s2 t (everything s2 t) else s2

/-- The strands that a request of the die manager covers with one: its crew's, or all of a stepping launch (R199, R353). -/
def requestGroup (s : State) (t : Strand) : List Strand :=
  s.strands.filter (fun u => onCore u && u.key.run = t.key.run && ((runOf s t.key.run).steps || crewNo u.key = crewNo t.key))

/-- A request or a withdrawal at slot i of a core reaches every strand that goes with the strand there. -/
def forGroup (act : Nat → Nat → State → State) (core i : Nat) (s : State) : State :=
  match slotStrand s core i with
  | none => act core i s
  | some t => (requestGroup s t).foldl (fun s u => act u.core u.slot s) s

/-- Clearing REQ before SAVING withdraws the request (R193). -/
def withdrawSlot (core i : Nat) (s : State) : State :=
  let c := coreOf s core
  if c.req.getLsbD i && !c.savingBits.getLsbD i then
    let s1 := setCore s core (fun c => { c with req := setBit4 c.req i false })
    match slotStrand s1 core i with
    | none => s1
    | some t => setStrand s1 t.key (fun t => { t with preSince := none })
  else s

/-- The die manager withdraws the request of a slot, with those that go with it, unless the slot's save has begun (R193). A strand that goes
with it and whose own save has begun keeps its request (assumption 107). -/
def withdrawGroup (core i : Nat) (s : State) : State :=
  let c := coreOf s core
  if c.req.getLsbD i && !c.savingBits.getLsbD i then forGroup withdrawSlot core i s else s

/-- The strands that a write of REQ bit i covers: the die manager's, the crew or the stepping launch; a handler's, the stepping launch,
which is saved whole, or else the one strand (R199, R339, R349, R353; assumption 107). -/
def reqGroup (s : State) (core i : Nat) (manager : Bool) : List Strand :=
  match slotStrand s core i with
  | none => []
  | some t => if manager || (runOf s t.key.run).steps then requestGroup s t else [t]

/-- An act on the strands that a write of REQ bit i covers, less some, or on the bit alone at an empty slot. -/
def forCovered (act : Nat → Nat → State → State) (except : Strand → Bool) (manager : Bool) (core i : Nat) (s : State) : State :=
  let g := reqGroup s core i manager
  if g.isEmpty then act core i s else (g.filter (fun u => !except u)).foldl (fun s u => act u.core u.slot s) s

/-- A 0 written to bit i while it is set and SAVING bit i is not withdraws the request (R193), and with it those of the strands that it
covers, less the ones whose own bits the same write sets (assumption 107). -/
def withdrawBit (core v : Nat) (manager : Bool) (i : Nat) (s : State) : State :=
  let c := coreOf s core
  if bit v i || !c.req.getLsbD i || c.savingBits.getLsbD i then s
  else forCovered withdrawSlot (fun u => decide (u.core = core) && bit v u.slot) manager core i s

/-- A 1 written to bit i requests every strand that it covers, less those of the core whose set bits in `old` the same write clears
(assumption 107). -/
def requestBit (core v : Nat) (manager : Bool) (old : BitVec 4) (i : Nat) (s : State) : State :=
  if bit v i then forCovered requestSlot (fun u => decide (u.core = core) && old.getLsbD u.slot && !bit v u.slot) manager core i s else s

/-- A write of the REQ bits: 0 withdraws, 1 requests. -/
def writeReq (s : State) (core : Nat) (v : Nat) (manager : Bool) : State :=
  forUpTo 4 (forUpTo 4 s (withdrawBit core v manager)) (requestBit core v manager (coreOf s core).req)

/-- PREEMPT_REQUEST (R199): the die manager sets REQ bits. -/
def execPreemptRequest (core : Nat) (mask : BitVec 4) (s : State) : Host.Outcome State Fault Refusal :=
  runEvent (coreOk core) (forUpTo 4 s (fun i s => if mask.getLsbD i then forGroup requestSlot core i s else s))

/-- PREEMPT_WITHDRAW (R193): the die manager clears REQ bits. -/
def execPreemptWithdraw (core : Nat) (mask : BitVec 4) (s : State) : Host.Outcome State Fault Refusal :=
  runEvent (coreOk core) (forUpTo 4 s (fun i s => if mask.getLsbD i then withdrawGroup core i s else s))

/-- PHINT (R197): with a request pending, the save begins with the live set named; the saved pc is the next
instruction's. Names that are unmapped, not granted or not mastered are ignored. -/
def execPhint (f0 : BitVec 4) (c0 : BitVec 5) (f1 : BitVec 4) (c1 : BitVec 5) (smask : BitVec 8) (vmask : Word) (s : State) :
    Host.Outcome State Fault Refusal :=
  runStrand (.phint f0 c0 f1 c1 smask vmask) s (fun t =>
    if requested s t then
      let all := everything s t
      let range (f c : Nat) : Nat := 2 ^ (f + c) - 2 ^ f
      let gm : BitVec 16 := BitVec.ofNat 16 (range f0.toNat c0.toNat) ||| BitVec.ofNat 16 (range f1.toNat c1.toNat)
      .ok (beginSave s t (vmask &&& all.1, gm &&& all.2.1, smask &&& all.2.2.1, false)) .seq
    else .ok s .seq)

/-- PCHK (R198). -/
def execPchk (rd : BitVec 5) (s : State) : Host.Outcome State Fault Refusal :=
  runStrand (.pchk rd) s (fun t => .ok (xSet s rd (if requested s t then 1 else 0)) .seq)

/-- FORCED_SAVE (R199): 65,536 cycles RUNNING or BLOCKED since the request, at an instruction or pass boundary, where no cancel waits
(R114). -/
def forceSave (s : State) (k : StrandKey) : State :=
  match findStrand s k with
  | none => s
  | some t =>
    match t.preSince with
    | none => s
    | some c =>
      let due := requested s t && t.saving.isNone && (t.life = .running || t.life = .blocked) &&
        c + 65536 ≤ now s t.core && atBoundary t && !t.cancelPending
      if due then beginSave s t (everything s t) else s

/-- FORCED_SAVE. -/
def execForcedSave (k : StrandKey) (s : State) : Host.Outcome State Fault Refusal := .next (forceSave s k)

end Sys2Proof.Machine
end

