-- ==== Sys2Proof/Machine/Csr.lean ====
section
/-! DEFINITION. Control and status registers of strands and of handler contexts, and the CSR instructions
(spec/04 R104 to R106, spec/05 R130, R131, R134, spec/08 R186, R193, spec/13 R299). -/

namespace Sys2Proof.Machine

/-! ### Strand CSRs -/

/-- `claimst` (R106): what the strand and its crew hold. -/
def claimst (s : State) (t : Strand) : Nat :=
  let c := crewOf s t.key
  t.vblocks + t.granules.length * 2 ^ 8 + c.mslots.length * 2 ^ 16 + c.xq * 2 ^ 20

/-- Cycles into the refresh period of a cluster (R265). -/
def refreshPhase (s : State) (cluster : Nat) : Nat :=
  ((dieOf s (dieOfCluster cluster)).cycles + 65536 - (cluster % Config.clusters) * 683 % 65536) % 65536

/-- `wbref` (R265). -/
def wbref (s : State) (cluster : Nat) : Nat :=
  let p := refreshPhase s cluster
  if p < 512 then 0 else 65536 - p

/-- `detlevel` (R106, R382). -/
def detlevel (s : State) (t : Strand) : Nat :=
  let r := runOf s t.key.run
  r.level % 4 + b2n r.replay.isSome * 2 ^ 2 + b2n (overflowed s t) * 2 ^ 3

/-- The user read-write CSR number k, 0 to 12 (R105). -/
def userCsr (t : Strand) (k : Nat) : Word :=
  match k with
  | 0 => t.lpcount
  | 1 => t.lpstart
  | 2 => t.lpend
  | 3 => t.deadmask
  | 4 => t.vxflags
  | 5 => t.vxrm
  | 6 => t.srtensor
  | 7 => t.srstep
  | 8 => t.ringbase
  | 9 => t.ringsize
  | 10 => t.ringhead
  | 11 => t.ringsend
  | _ => t.repst

/-- The fields of a user CSR that a write changes (R106, R131, R186, R13). -/
def csrMask (k : Nat) : Word :=
  match k with
  | 0 => 0xFFFFFFFFFFFFFFFF
  | 1 => 0x0FFFFFFFFFFFFFFC
  | 2 => 0x0FFFFFFFFFFFFFFC
  | 3 => 0xFFFFFFF8
  | 4 => 0x1F
  | 5 => 0x7
  | 6 => 0xFFFFFFFF
  | 7 => 0xFFFFFFFF
  | 8 => 0x3FFF0
  | 9 => 0x80000FFF
  | 10 => 0xFFFFFFFF
  | 11 => 0xFFFFFFFF
  | _ => 0x1FF1FFFFFFF

/-- A change of the ring's place or size (R299): head and tail 0, the recorded sender forgotten. -/
def ringReset (t : Strand) : Strand := { t with ringhead := 0, ringtail := 0, ringFrom := none, ringSenders := [] }

/-- COUNT of `ringsize`. -/
def ringCount (t : Strand) : Nat := fld t.ringsize.toNat 11 0

/-- Whether a `ringhead` value lies within the delivered entries (R299). -/
def ringheadOk (t : Strand) (h : Nat) : Bool := (t.ringtail + 2 ^ 32 - h % 2 ^ 32) % 2 ^ 32 ≤ ringCount t

/-- A write of user CSR k: none when it must trap with ENGINE (R299). -/
def putUserCsr (t : Strand) (k : Nat) (v : Word) : Option Strand :=
  let w := v &&& csrMask k
  match k with
  | 0 => some { t with lpcount := w }
  | 1 => some { t with lpstart := w }
  | 2 => some { t with lpend := w }
  | 3 => some { t with deadmask := w }
  | 4 => some { t with vxflags := w }
  | 5 => some { t with vxrm := w }
  | 6 => some { t with srtensor := w }
  | 7 => some { t with srstep := w }
  | 8 => some (ringReset { t with ringbase := w })
  | 9 => some (ringReset { t with ringsize := w })
  | 10 => if ringheadOk t w.toNat then some { t with ringhead := w } else none
  | 11 => some { t with ringsend := w }
  | _ => some { t with repst := w }

/-- Half n of segment descriptor N: CSR 0xCD0 + 2N + n (R105, R108). -/
def descHalf (t : Strand) (n : Nat) : Word :=
  BitVec.ofNat 64 ((tget 0 t.segs (n / 2)).toNat >>> (64 * (n % 2)))

/-- What a strand reads at a CSR address: none where R105 lists none. -/
def readCsr (s : State) (t : Strand) (a : Nat) : Option Word :=
  let r := runOf s t.key.run
  let n (v : Nat) : Option Word := some (BitVec.ofNat 64 v)
  if 0x800 ≤ a && a ≤ 0x80C then some (userCsr t (a - 0x800))
  else if 0xCD0 ≤ a && a ≤ 0xCEF then some (descHalf t (a - 0xCD0))
  else
    match a with
    | 0xCC0 => n (crewNo t.key)
    | 0xCC1 => n (strandNo t.key)
    | 0xCC2 => n r.ncrew
    | 0xCC3 => n r.nstrand
    | 0xCC4 => n r.launchid
    | 0xCC5 => n r.jobid
    | 0xCC6 => n (gtcOf s (dieOfCore t.core))
    | 0xCC7 => some Config.netpay
    | 0xCC8 => n (claimst s t)
    | 0xCC9 => n (wbref s (clusterOfStrand t))
    | 0xCCA => n t.ringtail
    | 0xCCB => n (detlevel s t)
    | 0xCCC => some r.seed
    | 0xCCD => some Config.profile
    | _ => none

/-! ### Handler CSRs (R193) -/

/-- `pairtab`: the core's own number xor 1 until it is written. -/
def pairtabOf (s : State) (core : Nat) : Nat :=
  match (coreOf s core).pairtab with
  | some v => v.toNat
  | none => core % Config.dieCores ^^^ 1

/-- The strand that the loaded packet names, while it is FROZEN with that packet's key. -/
def loadedStrand (s : State) (core : Nat) : Option Strand :=
  match (coreOf s core).loaded with
  | none => none
  | some p =>
    match findStrand s p.key with
    | some t => if t.life = .frozen then some t else none
    | none => none

/-- What a handler context reads: none where R191 lists none, an error where R193 answers with the error response. That the TABLEs of a
die's cores follow one another is the model's choice (assumption 60). -/
def readHandlerCsr (s : State) (core a : Nat) : Option (Except Unit Word) :=
  let c := coreOf s core
  let p := c.loaded.getD {}
  let d := dieOf s (dieOfCore core)
  let n (v : Nat) : Option (Except Unit Word) := some (.ok (BitVec.ofNat 64 v))
  match a with
  | 0x5C0 => n (pairtabOf s core)
  | 0x5C1 => n (fld d.dwinBase 49 13 * 2 ^ 13)
  | 0x5C2 => n (p.cause.toNat + b2n p.fetch * 2 ^ 8 + b2n c.valid * 2 ^ 9)
  | 0x5C3 =>
    if !c.valid then n 0
    else match loadedStrand s core with
      | some t => some (.ok t.pc)
      | none => some (.error ())
  | 0x5C4 => some (.ok p.tval)
  | 0x5C5 => n (p.phys + strandNo p.key * 2 ^ 16 + crewNo p.key * 2 ^ 32)
  | 0x5C6 => n c.mxwt.toNat
  | 0x5C7 => n (c.req.toNat + c.savingBits.toNat * 2 ^ 8 + c.refused.toNat * 2 ^ 16 + c.aborted.toNat * 2 ^ 24)
  | 0x5C8 => n ((d.saveTable + 64 * (core % Config.dieCores)) % 2 ^ 50)
  | 0xCC6 => n (gtcOf s (dieOfCore core))
  | 0xCCD => some (.ok Config.profile)
  | _ => none

/-- `fltpc` written while VALID (R193). -/
def writeFltpc (s : State) (core : Nat) (v : Word) : Except Unit State :=
  if !(coreOf s core).valid then .ok s
  else match loadedStrand s core with
    | some t => .ok (setStrand s t.key (fun t => { t with pc := v &&& 0x0FFFFFFFFFFFFFFF }))
    | none => .error ()

/-- A write of `preempt` by a handler context or by the die manager: REFUSED and ABORTED are cleared by ones (R193). -/
def writePreempt (s : State) (core : Nat) (v : Word) (manager : Bool) : State :=
  let s1 := setCore s core (fun c =>
    { c with refused := c.refused &&& ~~~(v.extractLsb' 16 4), aborted := c.aborted &&& ~~~(v.extractLsb' 24 4) })
  writeReq s1 core (v.toNat % 16) manager

/-- A handler context's write: none where it must trap with ILLEGAL. -/
def writeHandlerCsr (s : State) (core a : Nat) (v : Word) : Option (Except Unit State) :=
  match a with
  | 0x5C0 => some (.ok (setCore s core (fun c => { c with pairtab := some (v.setWidth 10) })))
  | 0x5C3 => some (writeFltpc s core v)
  | 0x5C6 => some (.ok (setCore s core (fun c => { c with mxwt := v.setWidth 4 })))
  | 0x5C7 => some (.ok (writePreempt s core v false))
  | 0x5C1 | 0x5C2 | 0x5C4 | 0x5C5 | 0x5C8 => some (.ok s)
  | _ => none

/-! ### The CSR instructions (R104, R130) -/

/-- A strand's access: the old value when it reads, the new state when it writes. -/
def strandCsr (s : State) (t : Strand) (i : Instr) (a : Nat) (rd : BitVec 5) (write : Option (Word → Word)) : Res :=
  if 0x5C0 ≤ a && a ≤ 0x5FF then .trap s (parcelTrap cPriv s i)
  else
    match readCsr s t a with
    | none => .trap s (illegal s i)
    | some old =>
      match write with
      | none => writeX s rd old
      | some f =>
        if 0xC00 ≤ a && a ≤ 0xCFF then .trap s (illegal s i)
        else
          match putUserCsr t (a - 0x800) (f old) with
          | none => .trap s (parcelTrap cEngine s i)
          | some t1 => writeX (setStrand s t.key (fun _ => t1)) rd old

/-- The address of window q of a die at an offset (R194). -/
def windowAddr (s : State) (die q off : Nat) : Nat := fld (dieOf s die).dwinBase 49 13 * 2 ^ 13 + q * 0x2000 + off

/-- The trap of a handler context whose access to `fltpc` gets the error response: the window's pc is the address logged. -/
def fltpcTrap (s : State) (core : Nat) : Trap :=
  let q := ((coreOf s core).loaded.elim 0 (·.phys)) % 2 ^ 12
  { cause := cAccess, tval := Config.csrErrorTval
    note := some (.response (coreSource core) (windowAddr s (dieOfCore core) q 0x100)) }

/-- A handler context's access. -/
def handlerCsr (s : State) (core : Nat) (i : Instr) (a : Nat) (rd : BitVec 5) (write : Option (Word → Word)) : Res :=
  let err : Res := .trap s (fltpcTrap s core)
  match write with
  | none =>
    match readHandlerCsr s core a with
    | none => .trap s (illegal s i)
    | some (.error _) => err
    | some (.ok old) => writeX s rd old
  | some f =>
    match readHandlerCsr s core a with
    | none => .trap s (illegal s i)
    | some (.error _) => err
    | some (.ok old) =>
      match writeHandlerCsr s core a (f old) with
      | none => .trap s (illegal s i)
      | some (.error _) => err
      | some (.ok s1) => writeX s1 rd old

/-- A CSR access of the party that issues. -/
def csrAccess (i : Instr) (s : State) (csr : BitVec 12) (rd : BitVec 5) (write : Option (Word → Word)) :
    Host.Outcome State Fault Refusal :=
  runParty i s (match s.cur with
    | .strand k => strandCsr s (strandOf s k) i csr.toNat rd write
    | .handler c => handlerCsr s c i csr.toNat rd write)

/-- CSRRW (R130). -/
def execCsrrw (rd : BitVec 5) (csr : BitVec 12) (rs1 : BitVec 5) (s : State) : Host.Outcome State Fault Refusal :=
  csrAccess (.csrrw rd csr rs1) s csr rd (some (fun _ => xGet s rs1))

/-- CSRRS (R104): with rs1 = x0 it only reads. -/
def execCsrrs (rd : BitVec 5) (csr : BitVec 12) (rs1 : BitVec 5) (s : State) : Host.Outcome State Fault Refusal :=
  csrAccess (.csrrs rd csr rs1) s csr rd (if rs1 = 0 then none else some (fun v => v ||| xGet s rs1))

/-- CSRRC. -/
def execCsrrc (rd : BitVec 5) (csr : BitVec 12) (rs1 : BitVec 5) (s : State) : Host.Outcome State Fault Refusal :=
  csrAccess (.csrrc rd csr rs1) s csr rd (if rs1 = 0 then none else some (fun v => v &&& ~~~(xGet s rs1)))

/-- CSRRWI. -/
def execCsrrwi (rd : BitVec 5) (csr : BitVec 12) (uimm : BitVec 5) (s : State) : Host.Outcome State Fault Refusal :=
  csrAccess (.csrrwi rd csr uimm) s csr rd (some (fun _ => uimm.setWidth 64))

/-- CSRRSI: with uimm = 0 it only reads. -/
def execCsrrsi (rd : BitVec 5) (csr : BitVec 12) (uimm : BitVec 5) (s : State) : Host.Outcome State Fault Refusal :=
  csrAccess (.csrrsi rd csr uimm) s csr rd (if uimm = 0 then none else some (fun v => v ||| uimm.setWidth 64))

/-- CSRRCI. -/
def execCsrrci (rd : BitVec 5) (csr : BitVec 12) (uimm : BitVec 5) (s : State) : Host.Outcome State Fault Refusal :=
  csrAccess (.csrrci rd csr uimm) s csr rd (if uimm = 0 then none else some (fun v => v &&& ~~~(uimm.setWidth 64)))

/-! ### The same writes as steps of their own -/

/-- A write of a user CSR of a strand, with no effect where a CSRRW would trap. -/
def csrStore (s : State) (k : StrandKey) (n : Nat) (v : Word) : State :=
  match findStrand s k with
  | none => s
  | some t =>
    match putUserCsr t n v with
    | none => s
    | some t1 => setStrand s k (fun _ => t1)

/-- LOOP_CSR_WRITE (R134): `lpcount`, `lpstart` or `lpend` changes at once. -/
def execLoopCsrWrite (k : StrandKey) (csr : BitVec 12) (v : Word) (s : State) : Host.Outcome State Fault Refusal :=
  .next (if 0x800 ≤ csr.toNat && csr.toNat ≤ 0x802 then csrStore s k (csr.toNat - 0x800) v else s)

/-- RING_RECONFIGURE (R299): a write to `ringbase` or `ringsize`. -/
def execRingReconfigure (k : StrandKey) (csr : BitVec 12) (v : Word) (s : State) : Host.Outcome State Fault Refusal :=
  .next (if csr = 0x808 || csr = 0x809 then csrStore s k (csr.toNat - 0x800) v else s)

/-- RINGHEAD_WRITE (R299): consumes entries, or traps the strand with ENGINE beyond the delivered ones. -/
def execRingheadWrite (k : StrandKey) (v : Word) (s : State) : Host.Outcome State Fault Refusal :=
  .next (match findStrand s k with
    | none => s
    | some t =>
      match putUserCsr t 10 v with
      | some t1 => setStrand s k (fun _ => t1)
      | none =>
        match fetchParcel s t t.pc with
        | .ok (p, _) => takeTrap s k { cause := cEngine, tval := p.setWidth 64 }
        | .error _ => s)

/-- FLTPC_WRITE (R193): a handler context's write to `fltpc`, or its ACCESS trap on the error response. -/
def execFltpcWrite (core : Nat) (v : Word) (s : State) : Host.Outcome State Fault Refusal :=
  runEvent (coreOk core) (match writeFltpc s core v with
    | .ok s1 => s1
    | .error _ => handlerTrap s core (fltpcTrap s core))

end Sys2Proof.Machine
end

