-- ==== Sys2Proof/Machine/Window.lean ====
section
/-! DEFINITION. The debug windows of a die (spec/08 R194): a strand's state as its handler or the die manager reads and
writes it while the strand is FROZEN. -/

namespace Sys2Proof.Machine

/-- The strand behind window q of a die, while it is FROZEN. -/
def windowStrand (s : State) (die q : Nat) : Option Strand :=
  if Config.dieStrands ≤ q then none
  else
    match physStrand s die q with
    | some t => if t.life = .frozen then some t else none
    | none => none

/-- A size the window serves at an offset, naturally aligned: 8 bytes, in the area of the vector registers too, or 64 bytes of a vector
register (assumption 109). -/
def windowShape (off size : Nat) : Bool :=
  off + size ≤ 0x2000 && off % size = 0 && (size = 8 || (size = 64 && decide (0x1000 ≤ off)))

/-- Bytes 0 to 7 of a packet (R192). -/
def packetHead (p : Packet) : Nat :=
  p.cause.toNat + b2n p.fetch * 2 ^ 8 + p.phys * 2 ^ 16 + (crewNo p.key + strandNo p.key * 2 ^ 24) * 2 ^ 32

/-- The logical vector register of a window offset. -/
def windowReg (off : Nat) : Nat := (off - 0x1000) / 64

/-- What the fields below the vector registers read as; reserved offsets read as zero. -/
def windowField (s : State) (t : Strand) (off : Nat) : Nat :=
  let p := t.packet.getD {}
  if off < 0x100 then (gx t (off / 8)).toNat
  else if 0x200 ≤ off && off ≤ 0x260 then (userCsr t ((off - 0x200) / 8)).toNat
  else
    match off with
    | 0x100 => t.pc.toNat
    | 0x108 => t.dead.toNat
    | 0x110 => packetHead p
    | 0x118 => p.tval.toNat
    | 0x120 => p.gtc
    | 0x128 => claimst s t
    | 0x130 => t.draw.toNat
    | _ => 0

/-- A window access to a vector register wakes its block (R190). -/
def wakeWindow (s : State) (die q off : Nat) : State :=
  match windowStrand s die q with
  | none => s
  | some t => if off < 0x1000 then s else wake s t.core (.vreg t.slot (windowReg off / 8))

/-- A read of a window: none is the error response. -/
def readWindow (s : State) (die q off size : Nat) : Option VReg :=
  match windowStrand s die q with
  | none => none
  | some t =>
    if !windowShape off size then none
    else if off < 0x1000 then some (BitVec.ofNat 512 (windowField s t off))
    else if 8 * t.vblocks ≤ windowReg off then none
    else
      let r := (tget 0 t.v (windowReg off)).toNat
      some (BitVec.ofNat 512 (if size = 64 then r else lane 64 (off % 64 / 8) r))

/-- A write of a field below the vector registers: none where it writes a RO field, or a CSR value that would trap. A pc keeps its bits
[1:0], and the parcel that contains it is fetched (assumption 85). -/
def putWindowField (t : Strand) (off : Nat) (v : Word) : Option Strand :=
  if off < 0x100 then some (sx t (off / 8) v)
  else if 0x200 ≤ off && off ≤ 0x260 then putUserCsr t ((off - 0x200) / 8) v
  else
    match off with
    | 0x100 => some { t with pc := v &&& 0x0FFFFFFFFFFFFFFF }
    | 0x108 => some { t with dead := v.truncate 32 &&& 0xFFFFFFFE#32 }
    | 0x110 => none
    | 0x118 => none
    | 0x120 => none
    | 0x128 => none
    | 0x130 => some { t with draw := v }
    | _ => some t

/-- A vector register with a window write of 64 or 8 bytes at an offset. -/
def putWindowReg (t : Strand) (off size : Nat) (v : VReg) : Strand :=
  let n := windowReg off
  let old := (tget 0 t.v n).toNat
  let new := if size = 64 then v.toNat else putFld old (64 * (off % 64 / 8)) 64 (v.toNat % 2 ^ 64)
  { t with v := tset 0 t.v n (BitVec.ofNat 512 new) }

/-- A write of a window: none is the error response. -/
def writeWindow (s : State) (die q off size : Nat) (v : VReg) : Option State :=
  match windowStrand s die q with
  | none => none
  | some t =>
    if !windowShape off size then none
    else if off < 0x1000 then
      (putWindowField t off (v.setWidth 64)).map (fun u => setStrand s t.key (fun _ => u))
    else if 8 * t.vblocks ≤ windowReg off then none
    else some (setStrand (wakeWindow s die q off) t.key (fun t => putWindowReg t off size v))

/-- The window access of a handler context at an address: window number and offset, when the address lies in the 32 MiB
array of its die (R194). -/
def handlerWindow (s : State) (core : Nat) (ea : Word) : Option (Nat × Nat) :=
  let base := fld (dieOf s (dieOfCore core)).dwinBase 49 13 * 2 ^ 13
  if base ≤ ea.toNat && ea.toNat < base + 2 ^ 25 then some ((ea.toNat - base) / 0x2000, (ea.toNat - base) % 0x2000) else none

/-- The window access of the party that issues: only a handler context has one. -/
def curWindow (s : State) (ea : Word) : Option (Nat × Nat × Nat) :=
  match s.cur with
  | .strand _ => none
  | .handler c => (handlerWindow s c ea).map (fun w => (dieOfCore c, w))

/-- The trap of a handler context that receives the error response, whose address is logged (R191, R194). -/
def windowTrap (s : State) (ea : Word) : Trap :=
  { cause := cAccess, tval := ea, note := some (.response (coreSource (curCore s)) ea.toNat) }

/-- A window of a package: PHYS numbers the die in bits 13 and 12 (R192). -/
def windowDie (q : Nat) : Nat := q / 2 ^ 12

/-- The error response to the die manager, with the address logged. -/
def windowError (s : State) (q off : Nat) : State :=
  { noteFailure s (.response (6144 + windowDie q) (windowAddr s (windowDie q) (q % 2 ^ 12) off)) with response := none }

/-- DEBUG_WINDOW_READ (R194): the answer is left in `response`; none is the error response. -/
def execDebugWindowRead (q off size : Nat) (s : State) : Host.Outcome State Fault Refusal :=
  runEvent (decide (windowDie q < Config.dies)) (match readWindow s (windowDie q) (q % 2 ^ 12) off size with
    | some v => { wakeWindow s (windowDie q) (q % 2 ^ 12) off with response := some v }
    | none => windowError s q off)

/-- DEBUG_WINDOW_WRITE (R194): the error response leaves the strand as it was. -/
def execDebugWindowWrite (q off size : Nat) (v : VReg) (s : State) : Host.Outcome State Fault Refusal :=
  runEvent (decide (windowDie q < Config.dies)) ((writeWindow s (windowDie q) (q % 2 ^ 12) off size v).getD (windowError s q off))

end Sys2Proof.Machine
end

