-- ==== Sys2Proof/Machine/Atomic.lean ====
section
/-! DEFINITION. The base atomics: AMOs, load-reserved and store-conditional (spec/05 R122 to R124). -/

namespace Sys2Proof.Machine

/-- The new word of an AMO (R122): w is the width in bits. -/
def amoNew (op : AmoOp) (w old b : Nat) : Nat :=
  match op with
  | .swap => b
  | .add => (old + b) % 2 ^ w
  | .xor => old ^^^ b
  | .and => old &&& b
  | .or => old ||| b
  | .min => if sint w old ≤ sint w b then old else b
  | .max => if sint w old ≤ sint w b then b else old
  | .minu => if old ≤ b then old else b
  | .maxu => if old ≤ b then b else old

/-- The order-sensitive unordered forms among the base atomics (R124). -/
def orderSensitive (op : Atomic) (rd : BitVec 5) : Bool :=
  match op with
  | .amo .swap _ => true
  | .amo _ _ => rd ≠ 0
  | _ => true

/-- The checks of R122 and R123: alignment, translation with R and W, no HOST segment; a debug window serves loads and
stores alone (R194). -/
def locateAtomic (s : State) (ea : Word) (n : Nat) : Except Trap (List Loc × State) :=
  if ea.toNat % n ≠ 0 then .error { cause := cMisaligned, tval := ea }
  else if (curWindow s ea).isSome then .error (windowTrap s ea)
  else
    match locateCur s ea n .amo with
    | .error t => .error t
    | .ok (ls, s1) => if ls.any (fun l => l.1 = .host) then .error { cause := cAccess, tval := ea } else .ok (ls, s1)

/-- The reservation of the party that issues (R123). -/
def curResv (s : State) : Option Reservation :=
  match s.cur with
  | .strand k => (strandOf s k).resv
  | .handler c => (coreOf s c).hresv

def setResv (s : State) (r : Option Reservation) : State :=
  match s.cur with
  | .strand k => setStrand s k (fun t => { t with resv := r })
  | .handler c => setCore s c (fun h => { h with hresv := r })

/-- Whether a reservation serves an SC of this width at this address now (R123). -/
def resvValid (s : State) (n : Nat) (ea : Word) : Bool :=
  match curResv s with
  | some r => r.width = n && r.ea = ea && now s (curCore s) < r.cycle + 65536
  | none => false

/-- The error response of a home that finds its word poisoned. -/
def poisonTrap (s : State) (ea : Word) (a : Nat) : Trap :=
  { cause := cAccess, tval := ea, note := some (.response (coreSource (curCore s)) a) }

/-- The word at its home, with what the operation leaves there: the value for rd, or ACCESS on a poisoned word. -/
def atHome (s : State) (op : Atomic) (n : Nat) (ea : Word) (sp : Space) (a : Nat) : Except Trap (Word × State) :=
  match op with
  | .lr =>
    if poisoned s sp a n then .error (poisonTrap s ea a)
    else .ok (sext (8 * n) (peekNat s sp a n),
      setResv s (some { width := n, ea := ea, space := sp, word := a / 8, cycle := now s (curCore s) }))
  | .sc v =>
    if resvValid s n ea then .ok (0, setResv (writeHome s sp a (leBytes n v.toNat)) none)
    else .ok (1, setResv s none)
  | .amo op v =>
    if poisoned s sp a n then .error (poisonTrap s ea a)
    else
      let old := peekNat s sp a n
      .ok (sext (8 * n) old, updateHome s sp a (leBytes n (amoNew op (8 * n) old (v.toNat % 2 ^ (8 * n)))))

/-- The decision of an order-sensitive atomic of a strand: its gate, before the home serves it (R124, R384, R388). -/
def atomicGate (s : State) (op : Atomic) (rd : BitVec 5) (sp : Space) (a : Nat) : Gate :=
  match s.cur with
  | .handler _ => .go
  | .strand k => if orderSensitive op rd then gate s (strandOf s k) rAtomic (8 * (a / 8)) (wordLoc sp a) 0 else .go

/-- The index of the record that an SC's outcome contradicts under replay: its success or failure is recorded, and a mismatch stops the
strand (R124, R383). -/
def scMismatch (s : State) (op : Atomic) (a : Nat) (failed : Bool) : Option Nat :=
  match s.cur, op with
  | .strand k, .sc _ =>
    if (runOf s k.run).replay.isNone then none
    else (nextRecord s (runOf s k.run) rAtomic (8 * (a / 8))).bind (fun d => if bit d.flags 0 = failed then none else some d.index)
  | _, _ => none

/-- What a served order-sensitive atomic leaves in the manifest, with SEQ 0 (assumption 127), and in the strand's round counts. -/
def atomicServed (s : State) (op : Atomic) (rd : BitVec 5) (sp : Space) (a : Nat) (failed : Bool) : State :=
  match s.cur with
  | .handler _ => s
  | .strand k =>
    if orderSensitive op rd then
      let t := strandOf s k
      countRound (served s t rAtomic (b2n failed) (homeSrc sp a) (8 * (a / 8)) 0) t (wordLoc sp a)
    else s

/-- A base atomic of width n at ea (R122, R123): the core's own stores reach the home first, and the word leaves its
L1. Held by its home, the strand waits. -/
def doAtomic (s : State) (op : Atomic) (n : Nat) (rd : BitVec 5) (ea : Word) (aq rl : Bool) : Res :=
  match locateAtomic s ea n with
  | .error t => .trap s t
  | .ok ([], s1) => .ok s1 .seq
  | .ok ((sp, a) :: _, s1) =>
    if rl && curHeld s then .ok s .stay else
    match atomicGate s1 op rd sp a with
    | .diverge i => .ok (diverges s1 (curKey s) i) .stay
    | .hold => .wait s1 (.atomic op n rd ea aq rl)
    | .go =>
      let core := curCore s1
      let s2 := if rl then release s1 core (curKey s1) else s1
      let s3 := if sp = .dev then toHome s2 core a n else wakeLoc s2 (sp, a)
      match atHome s3 op n ea sp a with
      | .error t => .trap s t
      | .ok (v, s4) =>
        let failed := match op with
          | .sc _ => v = 1
          | _ => false
        match scMismatch s1 op a failed with
        | some i => .ok (diverges s1 (curKey s) i) .stay
        | none =>
          let s5 := atomicServed s4 op rd sp a failed
          writeX (if aq then acquire s5 core else s5) rd v

/-- The level check of R372 comes before every other check of the instruction (R421). -/
def runAtomic (i : Instr) (s : State) (op : Atomic) (n : Nat) (rd rs1 : BitVec 5) (aq rl : Bool) :
    Host.Outcome State Fault Refusal :=
  let barred := match s.cur with
    | .strand k => orderSensitive op rd && orderedOnly s (strandOf s k)
    | .handler _ => false
  runParty i s (if barred then .trap s (illegal s i) else doAtomic s op n rd (xGet s rs1) aq rl)

/-- LR.W (R123). -/
def execLrW (rd rs1 : BitVec 5) (aq rl : Bool) (s : State) : Host.Outcome State Fault Refusal :=
  runAtomic (.lrW rd rs1 aq rl) s .lr 4 rd rs1 aq rl

/-- SC.W (R123). -/
def execScW (rd rs1 rs2 : BitVec 5) (aq rl : Bool) (s : State) : Host.Outcome State Fault Refusal :=
  runAtomic (.scW rd rs1 rs2 aq rl) s (.sc (xGet s rs2)) 4 rd rs1 aq rl

/-- LR.D (R123). -/
def execLrD (rd rs1 : BitVec 5) (aq rl : Bool) (s : State) : Host.Outcome State Fault Refusal :=
  runAtomic (.lrD rd rs1 aq rl) s .lr 8 rd rs1 aq rl

/-- SC.D (R123). -/
def execScD (rd rs1 rs2 : BitVec 5) (aq rl : Bool) (s : State) : Host.Outcome State Fault Refusal :=
  runAtomic (.scD rd rs1 rs2 aq rl) s (.sc (xGet s rs2)) 8 rd rs1 aq rl

/-- AMOSWAP.W (R122). -/
def execAmoswapW (rd rs1 rs2 : BitVec 5) (aq rl : Bool) (s : State) : Host.Outcome State Fault Refusal :=
  runAtomic (.amoswapW rd rs1 rs2 aq rl) s (.amo .swap (xGet s rs2)) 4 rd rs1 aq rl

/-- AMOSWAP.D (R122). -/
def execAmoswapD (rd rs1 rs2 : BitVec 5) (aq rl : Bool) (s : State) : Host.Outcome State Fault Refusal :=
  runAtomic (.amoswapD rd rs1 rs2 aq rl) s (.amo .swap (xGet s rs2)) 8 rd rs1 aq rl

/-- AMOADD.W (R122). -/
def execAmoaddW (rd rs1 rs2 : BitVec 5) (aq rl : Bool) (s : State) : Host.Outcome State Fault Refusal :=
  runAtomic (.amoaddW rd rs1 rs2 aq rl) s (.amo .add (xGet s rs2)) 4 rd rs1 aq rl

/-- AMOADD.D (R122). -/
def execAmoaddD (rd rs1 rs2 : BitVec 5) (aq rl : Bool) (s : State) : Host.Outcome State Fault Refusal :=
  runAtomic (.amoaddD rd rs1 rs2 aq rl) s (.amo .add (xGet s rs2)) 8 rd rs1 aq rl

/-- AMOXOR.W (R122). -/
def execAmoxorW (rd rs1 rs2 : BitVec 5) (aq rl : Bool) (s : State) : Host.Outcome State Fault Refusal :=
  runAtomic (.amoxorW rd rs1 rs2 aq rl) s (.amo .xor (xGet s rs2)) 4 rd rs1 aq rl

/-- AMOXOR.D (R122). -/
def execAmoxorD (rd rs1 rs2 : BitVec 5) (aq rl : Bool) (s : State) : Host.Outcome State Fault Refusal :=
  runAtomic (.amoxorD rd rs1 rs2 aq rl) s (.amo .xor (xGet s rs2)) 8 rd rs1 aq rl

/-- AMOAND.W (R122). -/
def execAmoandW (rd rs1 rs2 : BitVec 5) (aq rl : Bool) (s : State) : Host.Outcome State Fault Refusal :=
  runAtomic (.amoandW rd rs1 rs2 aq rl) s (.amo .and (xGet s rs2)) 4 rd rs1 aq rl

/-- AMOAND.D (R122). -/
def execAmoandD (rd rs1 rs2 : BitVec 5) (aq rl : Bool) (s : State) : Host.Outcome State Fault Refusal :=
  runAtomic (.amoandD rd rs1 rs2 aq rl) s (.amo .and (xGet s rs2)) 8 rd rs1 aq rl

/-- AMOOR.W (R122). -/
def execAmoorW (rd rs1 rs2 : BitVec 5) (aq rl : Bool) (s : State) : Host.Outcome State Fault Refusal :=
  runAtomic (.amoorW rd rs1 rs2 aq rl) s (.amo .or (xGet s rs2)) 4 rd rs1 aq rl

/-- AMOOR.D (R122). -/
def execAmoorD (rd rs1 rs2 : BitVec 5) (aq rl : Bool) (s : State) : Host.Outcome State Fault Refusal :=
  runAtomic (.amoorD rd rs1 rs2 aq rl) s (.amo .or (xGet s rs2)) 8 rd rs1 aq rl

/-- AMOMIN.W (R122). -/
def execAmominW (rd rs1 rs2 : BitVec 5) (aq rl : Bool) (s : State) : Host.Outcome State Fault Refusal :=
  runAtomic (.amominW rd rs1 rs2 aq rl) s (.amo .min (xGet s rs2)) 4 rd rs1 aq rl

/-- AMOMIN.D (R122). -/
def execAmominD (rd rs1 rs2 : BitVec 5) (aq rl : Bool) (s : State) : Host.Outcome State Fault Refusal :=
  runAtomic (.amominD rd rs1 rs2 aq rl) s (.amo .min (xGet s rs2)) 8 rd rs1 aq rl

/-- AMOMAX.W (R122). -/
def execAmomaxW (rd rs1 rs2 : BitVec 5) (aq rl : Bool) (s : State) : Host.Outcome State Fault Refusal :=
  runAtomic (.amomaxW rd rs1 rs2 aq rl) s (.amo .max (xGet s rs2)) 4 rd rs1 aq rl

/-- AMOMAX.D (R122). -/
def execAmomaxD (rd rs1 rs2 : BitVec 5) (aq rl : Bool) (s : State) : Host.Outcome State Fault Refusal :=
  runAtomic (.amomaxD rd rs1 rs2 aq rl) s (.amo .max (xGet s rs2)) 8 rd rs1 aq rl

/-- AMOMINU.W (R122). -/
def execAmominuW (rd rs1 rs2 : BitVec 5) (aq rl : Bool) (s : State) : Host.Outcome State Fault Refusal :=
  runAtomic (.amominuW rd rs1 rs2 aq rl) s (.amo .minu (xGet s rs2)) 4 rd rs1 aq rl

/-- AMOMINU.D (R122). -/
def execAmominuD (rd rs1 rs2 : BitVec 5) (aq rl : Bool) (s : State) : Host.Outcome State Fault Refusal :=
  runAtomic (.amominuD rd rs1 rs2 aq rl) s (.amo .minu (xGet s rs2)) 8 rd rs1 aq rl

/-- AMOMAXU.W (R122). -/
def execAmomaxuW (rd rs1 rs2 : BitVec 5) (aq rl : Bool) (s : State) : Host.Outcome State Fault Refusal :=
  runAtomic (.amomaxuW rd rs1 rs2 aq rl) s (.amo .maxu (xGet s rs2)) 4 rd rs1 aq rl

/-- AMOMAXU.D (R122). -/
def execAmomaxuD (rd rs1 rs2 : BitVec 5) (aq rl : Bool) (s : State) : Host.Outcome State Fault Refusal :=
  runAtomic (.amomaxuD rd rs1 rs2 aq rl) s (.amo .maxu (xGet s rs2)) 8 rd rs1 aq rl

end Sys2Proof.Machine
end

