-- ==== Sys2Proof/Machine/Barrier.lean ====
section
/-! DEFINITION. Byte-counting barriers and pending engine faults (spec/13 R288, R295 to R298, spec/11 R259). -/

namespace Sys2Proof.Machine

/-! ### Pending faults -/

/-- The earliest issued fault of a list (R259). -/
def earliest : List PendFault → Option PendFault
  | [] => none
  | f :: t =>
    match earliest t with
    | none => some f
    | some g => if f.order ≤ g.order then some f else some g

/-- The trap that reports a pending fault. -/
def faultTrap (f : PendFault) : Trap := { cause := f.cause.toNat, tval := f.tval, fetch := f.fetch }

/-- The fault that a completion point reports, which is gone once reported: its trap and the state (R259, R288). -/
def reportFault (s : State) (t : Strand) (covers : PendFault → Bool) : Option (Trap × State) :=
  (earliest (t.faults.filter covers)).map (fun f =>
    (faultTrap f, setStrand s t.key (fun t => { t with faults := t.faults.erase f })))

/-- An engine records a pending fault for a strand. -/
def addFault (s : State) (k : StrandKey) (f : PendFault) : State :=
  setStrand s k (fun t => { t with faults := t.faults ++ [f] })

/-! ### The barrier object (R295) -/

def bExpected (b : Nat) : Nat := fld b 31 0
def bArrived (b : Nat) : Nat := fld b 63 32
def bPhase (b : Nat) : Nat := fld b 79 64
def bStatus (b : Nat) : Nat := fld b 95 80

/-- Whether bytes [15:12] or STATUS bits [15:3] are nonzero (R297). -/
def bBroken (b : Nat) : Bool := fld b 127 96 ≠ 0 || fld b 95 83 ≠ 0

/-- A barrier with its four fields. -/
def barrierNat (expected arrived phase status : Nat) : Nat :=
  expected + arrived * 2 ^ 32 + phase * 2 ^ 64 + status * 2 ^ 80

/-- Credit(n, bits) of R296: bytes [15:12] stay as they are. -/
def creditNat (b n bits : Nat) : Nat :=
  let e := bExpected b
  let st := bStatus b ||| bits
  let a := bArrived b + n
  let high := fld b 127 96 * 2 ^ 96
  if e = 0 then barrierNat 0 (a % 2 ^ 32) (bPhase b) st + high
  else if n = 0 then barrierNat e (bArrived b) (bPhase b) st + high
  else barrierNat e (a % e) ((bPhase b + a / e) % 2 ^ 16) st + high

/-- The status bits. -/
def stFault : Nat := 1
def stCancelled : Nat := 2
def stPoison : Nat := 4

/-- The home of the barrier at an sg1 pointer of a strand. -/
def barrierAt (t : Strand) (ptr : Word) : Nat := scratchAddr t.core t.granules (offOf ptr)

/-- An engine's read of a poisoned barrier: the error response is logged, and a pending fault of that barrier stands, once, until a
completion point reports it (R205; assumption 119). -/
def creditFault (s : State) (t : Strand) (order : Nat) (ptr : Word) (a : Nat) : State :=
  let src := coreSource t.core
  let f : PendFault := { order := order, cause := BitVec.ofNat 8 cAccess, fetch := false, tval := ptr, slot := none, barrier := some ptr
                         src := src, addr := ptr.toNat }
  if t.faults.any (fun g => g.cause = f.cause && g.barrier = f.barrier && g.tval = ptr) then s
  else addFault (noteFailure s (.response src a)) t.key f

/-- Credits a strand's barrier, as one 16-byte step; pointer 0 names no barrier (R285, R295), and a barrier that went
with the strand's granules is credited no more (R294). A barrier with a nonzero reserved bit is rejected whole, and the
credit has no effect (R13, assumption 63); nor has that of a poisoned one, which the engine cannot read. `order` is the command's place
in the strand's issue order. -/
def credit (s : State) (k : StrandKey) (order : Nat) (ptr : Word) (n bits : Nat) : State :=
  if ptr = 0 then s
  else
    match findStrand s k with
    | none => s
    | some t =>
      if t.granules.length ≤ offOf ptr / Config.granule then s
      else
        let a := barrierAt t ptr
        let b := peekNat s .spad a 16
        if poisoned s .spad a 16 then creditFault (wakeLoc s (.spad, a)) t order ptr a
        else if bBroken b then s
        else updateHome (wakeLoc s (.spad, a)) .spad a (leBytes 16 (creditNat b n bits))

/-- The pointer checks of R297 and of step 2 of R286. -/
def barrierCheck (t : Strand) (ptr : Word) : Option Trap :=
  if ptr.toNat % 16 ≠ 0 then some { cause := cMisaligned, tval := ptr }
  else if ptr.toNat / 2 ^ 60 ≠ 1 || Config.spadBytes < offOf ptr + 16 then some { cause := cSegment, tval := ptr }
  else if t.granules.length ≤ offOf ptr / Config.granule then some { cause := cClaim, tval := ptr }
  else none

/-- A strand's read of a poisoned barrier traps with ACCESS (R110, R205). -/
def badBarrierRead (s : State) (t : Strand) (ptr : Word) : Option Trap :=
  let a := barrierAt t ptr
  if poisoned s .spad a 16 then some { cause := cAccess, tval := ptr, note := some (.response (coreSource t.core) a) } else none

/-- The checks of BARRIVE, BWAIT and BTEST, and the barrier they read. -/
def barrierRead (s : State) (t : Strand) (i : Instr) (ptr : Word) : Except Trap Nat :=
  match (barrierCheck t ptr).or (badBarrierRead s t ptr) with
  | some e => .error e
  | none =>
    let b := peekNat s .spad (barrierAt t ptr) 16
    if bBroken b then .error (parcelTrap cEngine s i) else .ok b

/-- Whether the phase has passed p (R298). -/
def phasePassed (b p : Nat) : Bool :=
  let d := (bPhase b + 2 ^ 16 - p % 2 ^ 16) % 2 ^ 16
  1 ≤ d && d ≤ 32767

/-- {PHASE, STATUS}. -/
def phaseStatus (b : Nat) : Nat := bStatus b + bPhase b * 2 ^ 16

/-- BINIT (R297). -/
def execBinit (rs1 rs2 : BitVec 5) (s : State) : Host.Outcome State Fault Refusal :=
  runStrand (.binit rs1 rs2) s (fun t =>
    let ptr := gx t rs1.toNat
    let n := (gx t rs2.toNat).toNat
    match barrierCheck t ptr with
    | some e => .trap s e
    | none =>
      if n = 0 || 2 ^ 32 ≤ n then .trap s (parcelTrap cEngine s (.binit rs1 rs2))
      else
        let a := barrierAt t ptr
        let s1 := writeHome (wakeLoc s (.spad, a)) .spad a (leBytes 8 n)
        .ok (writeHome s1 .spad (a + 10) (leBytes 6 0)) .seq)

/-- BARRIVE (R297): a release, then the credit. -/
def execBarrive (rs1 rs2 : BitVec 5) (s : State) : Host.Outcome State Fault Refusal :=
  runStrand (.barrive rs1 rs2) s (fun t =>
    let ptr := gx t rs1.toNat
    let n := (gx t rs2.toNat).toNat
    match barrierRead s t (.barrive rs1 rs2) ptr with
    | .error e => .trap s e
    | .ok _ =>
      if 2 ^ 32 ≤ n then .trap s (parcelTrap cEngine s (.barrive rs1 rs2))
      else if writesHeld s t then .ok s .stay
      else
        let s1 := release (wakeLoc s (.spad, barrierAt t ptr)) t.core t.key
        .ok (if n = 0 then s1 else updateHome s1 .spad (barrierAt t ptr)
          (leBytes 16 (creditNat (peekNat s1 .spad (barrierAt t ptr) 16) n 0))) .seq)

/-- BWAIT's completion test and completion (R298): the pending copy fault of this barrier, else an acquire and rd. Each test reads the
barrier (R190, R205). -/
def waitBarrier (s : State) (t : Strand) (rd : BitVec 5) (ptr : Word) (phase : Nat) : Res :=
  let s0 := wakeLoc s (.spad, barrierAt t ptr)
  let b := peekNat s .spad (barrierAt t ptr) 16
  match badBarrierRead s t ptr with
  | some tr => .trap s0 tr
  | none =>
    if phasePassed b phase then
      match reportFault s0 t (fun f => f.barrier = some ptr) with
      | some (tr, s1) => .trap s1 tr
      | none => .ok (xSet (acquire s0 t.core) rd (BitVec.ofNat 64 (phaseStatus b))) .seq
    else .wait s0 (.bwait rd ptr phase)

/-- BWAIT (R298). -/
def execBwait (rd rs1 rs2 : BitVec 5) (s : State) : Host.Outcome State Fault Refusal :=
  runStrand (.bwait rd rs1 rs2) s (fun t =>
    let ptr := gx t rs1.toNat
    match barrierRead s t (.bwait rd rs1 rs2) ptr with
    | .error e => .trap s e
    | .ok _ => waitBarrier s t rd ptr ((gx t rs2.toNat).toNat % 2 ^ 16))

/-- BTEST (R298). -/
def execBtest (rd rs1 rs2 : BitVec 5) (s : State) : Host.Outcome State Fault Refusal :=
  runStrand (.btest rd rs1 rs2) s (fun t =>
    let ptr := gx t rs1.toNat
    match barrierRead s t (.btest rd rs1 rs2) ptr with
    | .error e => .trap s e
    | .ok b =>
      let v := phaseStatus b + b2n (phasePassed b (gx t rs2.toNat).toNat) * 2 ^ 32
      .ok (xSet (wakeLoc s (.spad, barrierAt t ptr)) rd (BitVec.ofNat 64 v)) .seq)

end Sys2Proof.Machine
end

