-- ==== Sys2Proof/Machine/VecMove.lean ====
section
/-! DEFINITION. Vector loads and stores by register and by stride, and the lane moves of the XV short forms
(spec/06 R145 to R148), with the element accesses that VMEM shares. -/

namespace Sys2Proof.Machine

/-- Locates a list of accesses of n bytes each, in order (R164). -/
def locateAll (t : Strand) (n : Nat) (acc : Access) : State → List Word → Except Trap (List (List Loc) × State)
  | s, [] => .ok ([], s)
  | s, ea :: r =>
    match locate s t ea n acc with
    | .error e => .error e
    | .ok (ls, s1) =>
      match locateAll t n acc s1 r with
      | .error e => .error e
      | .ok (l, s2) => .ok (ls :: l, s2)

/-- Loads every element, in order: its little-endian value. The trap of a poisoned one is ACCESS; `exact` asks for the
address of the byte, and otherwise tval is the element's address. -/
def loadElems (core : Nat) (exact : Bool) : State → List (Word × List Loc) → Except Trap (List Nat × State)
  | s, [] => .ok ([], s)
  | s, (ea, ls) :: r =>
    match loadLocs core s ls with
    | none => .error (badLoad s core (if exact then ea + BitVec.ofNat 64 (poisonAt s core ls) else ea) ls)
    | some (bs, s1) =>
      match loadElems core exact s1 r with
      | .error e => .error e
      | .ok (vs, s2) => .ok (leNat bs :: vs, s2)

/-- Stores every element, in order. -/
def storeElems (t : Strand) (n : Nat) (s : State) (l : List (List Loc × Nat)) : State :=
  l.foldl (fun s e => storeLocs s t.core t.key e.1 (leBytes n e.2)) s

/-- The first misaligned address. -/
def misaligned (n : Nat) (eas : List Word) : Option Trap :=
  (eas.find? (fun ea => decide (ea.toNat % n ≠ 0))).map (fun ea => { cause := cMisaligned, tval := ea })

/-- Loads n-byte elements at a list of addresses: alignment, translation, poison, each over all of them (R164). -/
def gatherElems (s : State) (t : Strand) (n : Nat) (exact : Bool) (eas : List Word) : Except Trap (List Nat × State) :=
  match misaligned n eas with
  | some e => .error e
  | none =>
    match locateAll t n .load s eas with
    | .error e => .error e
    | .ok (ls, s1) => loadElems t.core exact s1 (eas.zip ls)

/-- Stores n-byte elements at a list of addresses. -/
def scatterElems (s : State) (t : Strand) (n : Nat) (eas : List Word) (vs : List Nat) : Except Trap State :=
  match misaligned n eas with
  | some e => .error e
  | none =>
    match locateAll t n .store s eas with
    | .error e => .error e
    | .ok (ls, s1) => .ok (storeElems t n s1 (ls.zip vs))

/-- A vector instruction that names the given groups: an unmapped register traps with CLAIM, and the blocks wake. -/
def withRegs (s : State) (t : Strand) (gs : List (Nat × Nat)) (f : State → Res) : Res :=
  match unmapped t gs with
  | some r => .trap s (unmappedTrap r)
  | none => f (wakeRegs s t gs)

/-- The strand writes its registers and goes on. -/
def writeStrand (s : State) (t : Strand) (f : Strand → Strand) : Res := .ok (setStrand s t.key f) .seq

/-- The address of VLD and VST (R145). -/
def vldAddr (t : Strand) (rs1 : BitVec 5) (imm : BitVec 6) : Word := gx t rs1.toNat + (imm.signExtend 64) * 64

/-- VLD (R145). -/
def execVld (v : BitVec 6) (rs1 : BitVec 5) (imm : BitVec 6) (s : State) : Host.Outcome State Fault Refusal :=
  runStrand (.vld v rs1 imm) s (fun t => withRegs s t [(v.toNat, 1)] (fun s1 =>
    match gatherElems s1 t 64 true [vldAddr t rs1 imm] with
    | .error e => .trap s e
    | .ok (vs, s2) => writeStrand s2 t (fun t => vSet t v.toNat (vs.headD 0))))

/-- VST (R145). -/
def execVst (v : BitVec 6) (rs1 : BitVec 5) (imm : BitVec 6) (s : State) : Host.Outcome State Fault Refusal :=
  runStrand (.vst v rs1 imm) s (fun t => withRegs s t [(v.toNat, 1)] (fun s1 =>
    match scatterElems s1 t 64 [vldAddr t rs1 imm] [vGet t v.toNat] with
    | .error e => .trap s e
    | .ok s2 => .ok s2 .seq))

/-- The width of a width code. -/
def widthOf (w : BitVec 2) : Nat := 8 <<< w.toNat

/-- The strided addresses of R146. -/
def stridedAddrs (t : Strand) (w : BitVec 2) (rs1 rs2 : BitVec 5) : List Word :=
  tabulate (512 / widthOf w) (fun i => gx t rs1.toNat + BitVec.ofNat 64 i * gx t rs2.toNat)

/-- VLDS (R146). -/
def execVlds (w : BitVec 2) (v : BitVec 6) (rs1 rs2 : BitVec 5) (s : State) : Host.Outcome State Fault Refusal :=
  runStrand (.vlds w v rs1 rs2) s (fun t => withRegs s t [(v.toNat, 1)] (fun s1 =>
    match gatherElems s1 t (widthOf w / 8) false (stridedAddrs t w rs1 rs2) with
    | .error e => .trap s e
    | .ok (vs, s2) => writeStrand s2 t (fun t => vSet t v.toNat (ofLanes (widthOf w) vs))))

/-- VSTS (R146). -/
def execVsts (w : BitVec 2) (v : BitVec 6) (rs1 rs2 : BitVec 5) (s : State) : Host.Outcome State Fault Refusal :=
  runStrand (.vsts w v rs1 rs2) s (fun t => withRegs s t [(v.toNat, 1)] (fun s1 =>
    match scatterElems s1 t (widthOf w / 8) (stridedAddrs t w rs1 rs2) (lanes (widthOf w) (512 / widthOf w) (vGet t v.toNat)) with
    | .error e => .trap s e
    | .ok s2 => .ok s2 .seq))

/-- The lane that an index register names (R147). -/
def laneIndex (t : Strand) (w : BitVec 2) (r : BitVec 5) : Nat := (gx t r.toNat).toNat % (512 / widthOf w)

/-- VINS (R147). -/
def execVins (w : BitVec 2) (v : BitVec 6) (rs1 rs2 : BitVec 5) (s : State) : Host.Outcome State Fault Refusal :=
  runStrand (.vins w v rs1 rs2) s (fun t => withRegs s t [(v.toNat, 1)] (fun s1 =>
    writeStrand s1 t (fun u =>
      vSet u v.toNat (putFld (vGet t v.toNat) (widthOf w * laneIndex t w rs1) (widthOf w) (gx t rs2.toNat).toNat))))

/-- VEXT (R147). -/
def execVext (u : Bool) (w : BitVec 2) (rd : BitVec 5) (v : BitVec 6) (rs1 : BitVec 5) (s : State) :
    Host.Outcome State Fault Refusal :=
  runStrand (.vext u w rd v rs1) s (fun t => withRegs s t [(v.toNat, 1)] (fun s1 =>
    let x := lane (widthOf w) (laneIndex t w rs1) (vGet t v.toNat)
    writeX s1 rd (if u then BitVec.ofNat 64 x else sext (widthOf w) x)))

/-- Every lane the same (R148). -/
def splat (w x : Nat) : Nat := ofLanes w (tabulate (512 / w) (fun _ => x))

/-- VSPLAT (R148). -/
def execVsplat (w : BitVec 2) (v : BitVec 6) (rs1 : BitVec 5) (s : State) : Host.Outcome State Fault Refusal :=
  runStrand (.vsplat w v rs1) s (fun t => withRegs s t [(v.toNat, 1)] (fun s1 =>
    writeStrand s1 t (fun u => vSet u v.toNat (splat (widthOf w) (gx t rs1.toNat).toNat))))

/-- VSPLAT with an immediate (R148). -/
def execVsplatImm (w : BitVec 2) (v : BitVec 6) (imm : BitVec 5) (s : State) : Host.Outcome State Fault Refusal :=
  runStrand (.vsplatImm w v imm) s (fun t => withRegs s t [(v.toNat, 1)] (fun s1 =>
    writeStrand s1 t (fun u => vSet u v.toNat (splat (widthOf w) (imm.signExtend 64).toNat))))

end Sys2Proof.Machine
end

