-- ==== Sys2Proof/Machine/VecMem.lean ====
section
/-! DEFINITION. VMEM: gathers, scatters, register groups and atomic addition (spec/07 R163 to R170). -/

namespace Sys2Proof.Machine

/-- The effective address of lane i of an indexed form (R164). -/
def indexAddr (t : Strand) (f : X96) (idx i : Nat) : Word :=
  let wi := tyWidth f.ty2.toNat
  let x := lane wi i idx
  let d : Word := if f.ty2.toNat < 4 then sext wi x else BitVec.ofNat 64 x
  gx t f.rs.toNat + (d <<< (f.aux.toNat % 4))

/-- The active lanes of an indexed form: lane numbers and addresses. -/
def indexedLanes (t : Strand) (f : X96) : List (Nat × Word) :=
  let idx := vGroup t f.vs1.toNat (indexRegs f)
  ((List.range (512 / tyWidth f.ty.toNat)).filter (activeLane t f)).map (fun i => (i, indexAddr t f idx i))

/-- VGATHER (R165). -/
def execVgather (f : X96) (s : State) : Host.Outcome State Fault Refusal :=
  runStrand (.vgather f) s (fun t => withRegs s t [(f.vd.toNat, 1), (f.vs1.toNat, indexRegs f)] (fun s1 =>
    let w := tyWidth f.ty.toNat
    let ls := indexedLanes t f
    match gatherElems s1 t (w / 8) false (ls.map (·.2)) with
    | .error e => .trap s e
    | .ok (vs, s2) =>
      let got := (ls.map (·.1)).zip vs
      let old := vGet t f.vd.toNat
      writeStrand s2 t (fun u => vSet u f.vd.toNat (ofLanes w (tabulate (512 / w) (fun i =>
        match got.find? (fun e => e.1 = i) with
        | some e => e.2
        | none => lane w i old))))))

/-- VSCATTER (R165): active lanes in ascending order. -/
def execVscatter (f : X96) (s : State) : Host.Outcome State Fault Refusal :=
  runStrand (.vscatter f) s (fun t => withRegs s t [(f.vs1.toNat, indexRegs f), (f.vs2.toNat, 1)] (fun s1 =>
    let w := tyWidth f.ty.toNat
    let ls := indexedLanes t f
    match scatterElems s1 t (w / 8) (ls.map (·.2)) (ls.map (fun e => lane w e.1 (vGet t f.vs2.toNat))) with
    | .error e => .trap s e
    | .ok s2 => .ok s2 .seq))

/-- The active registers of VLDM and VSTM with their addresses (R166): the stride is 64 when its field is 0. -/
def groupAddrs (t : Strand) (f : X96) : List (Nat × Word) :=
  let st : Word := if f.vs2 = 0 then 64 else gx t f.vs2.toNat
  ((List.range (2 ^ f.aux.toNat)).filter (activeLane t f)).map (fun j => (j, gx t f.rs.toNat + BitVec.ofNat 64 j * st))

/-- VLDM (R166). -/
def execVldm (f : X96) (s : State) : Host.Outcome State Fault Refusal :=
  runStrand (.vldm f) s (fun t => withRegs s t [(f.vd.toNat, 2 ^ f.aux.toNat)] (fun s1 =>
    let rs := groupAddrs t f
    match gatherElems s1 t 64 true (rs.map (·.2)) with
    | .error e => .trap s e
    | .ok (vs, s2) =>
      writeStrand s2 t (fun u => (rs.zip vs).foldl (fun u e => vSet u (f.vd.toNat + e.1.1) e.2) u)))

/-- VSTM (R166): registers in ascending order. -/
def execVstm (f : X96) (s : State) : Host.Outcome State Fault Refusal :=
  runStrand (.vstm f) s (fun t => withRegs s t [(f.vs1.toNat, 2 ^ f.aux.toNat)] (fun s1 =>
    let rs := groupAddrs t f
    match scatterElems s1 t 64 (rs.map (·.2)) (rs.map (fun e => vGet t (f.vs1.toNat + e.1))) with
    | .error e => .trap s e
    | .ok s2 => .ok s2 .seq))

/-! ### Atomic addition (R167 to R170) -/

/-- The new code of an element after an addition (R168): integers wrap, or clamp when `sat`; floating-point sums round
once. -/
def addCode (ty mode : Nat) (sat : Bool) (old : Nat) (v : Exact) : Nat :=
  if tyInt ty then
    match v with
    | .fin neg mag _ _ =>
      (intResult (decide (ty < 4)) (tyWidth ty) sat (intValue ty old + (if neg then -(mag : Int) else mag))).1
    | _ => old
  else (convertTo (tyNum ty) mode 0 sat true (exAdd (decide (mode = 2)) (valueOf (tyNum ty) old) v).1).1

/-- One addition at the home of an element; a poisoned element stays as it is, and is logged (R167; for the address of a scratchpad
element see assumption 67). -/
def addAt (s : State) (sp : Space) (a ty mode : Nat) (sat : Bool) (v : Exact) : State :=
  let n := tyWidth ty / 8
  let s1 := wakeLoc s (sp, a)
  if poisoned s sp a n then logEvent s1 { gtc := 0, src := homeSrc sp a, kind := 3, addr := a }
  else updateHome s1 sp a (leBytes n (addCode ty mode sat (peekNat s sp a n) v))

/-- One addition to an element wherever its bytes lie (R289): `addAt` for bytes that need not be consecutive. -/
def addLocs (s : State) (ls : List Loc) (ty mode : Nat) (sat : Bool) (v : Exact) : State :=
  match ls with
  | [] => s
  | l :: _ =>
    let s1 := wakeLocs s ls
    if ls.any (fun l => poisoned s l.1 l.2 1) then logEvent s1 { gtc := 0, src := homeSrc l.1 l.2, kind := 3, addr := l.2 }
    else writeRuns updateHome (runs ls) (leBytes ls.length (addCode ty mode sat (leNat (ls.map (fun l => peek s l.1 l.2))) v)) s1

/-- The bytes of a scratchpad element of a strand that holds its granule, or, of a SAVED one, of its place in the strand's area, when its
granule is among those saved (R201). -/
def elementLocs (s : State) (t : Strand) (off n : Nat) : List Loc :=
  if t.life ≠ .saved then
    if off / Config.granule < t.granules.length then scratchLocs t.core t.granules off n else []
  else
    match ctxRead s t.ctx (t.saveAddr + 0x10) 0x40 with
    | none => []
    | some bs =>
      let mask := leNat ((bs.drop 0x38).take 2)
      let below := ((List.range (off / Config.granule)).filter (bit mask)).length
      let va := t.saveAddr + Config.saveFixed + 64 * leNat (bs.take 1) + Config.granule * below + off % Config.granule
      if !bit mask (off / Config.granule) then []
      else
        match ctxLocs s t.ctx va n .store with
        | .error _ => []
        | .ok (ls, _) => ls

/-- Where a scratchpad posting's element lies now: with its strand, in its retained holding, or with the strand that has inherited that
holding and keeps the granule (R170, R226; assumption 68). -/
def postHome (s : State) (k : StrandKey) (off n : Nat) : List Loc :=
  let at' (k : StrandKey) : List Loc := match s.retained.find? (fun h => h.key = k) with
    | some h => if off / Config.granule < h.granules.length then scratchLocs h.core h.granules off n else []
    | none => elementLocs s (strandOf s k) off n
  match (strandOf s k).heir with
  | none => at' k
  | some (h, m) => if off / Config.granule < m then at' h else []

/-- A posting of a launch is applied (R169). An element whose granule is gone keeps nothing of it (assumption 68). -/
def applyPost (run : Nat) (s : State) (p : AddPost) : State :=
  let v := valueOf (tyNum p.srcTy) p.value
  match p.off with
  | none =>
    if p.more.isEmpty then addAt s p.space p.addr p.ty p.mode p.sat v else addLocs s ((p.space, p.addr) :: p.more) p.ty p.mode p.sat v
  | some off => addLocs s (postHome s ⟨run, p.gls⟩ off (tyWidth p.ty / 8)) p.ty p.mode p.sat v

/-- Postings in ascending key order: gls, sequence number, lane (R169). -/
def sortPosts (l : List AddPost) : List AddPost :=
  sortBy (fun a b => decide (a.gls < b.gls) || (a.gls = b.gls && (decide (a.seq < b.seq) || (a.seq = b.seq && decide (a.lane ≤ b.lane))))) l

/-- Unapplied postings of a crew, and those that its outstanding copies have still to make (R170, R290). -/
def crewPosts (s : State) (k : StrandKey) : Nat :=
  let mine (g : Nat) : Bool := decide (g / 32 = crewNo k)
  let cs := (clusterOf s (crewOf s k).cluster).copies.filter (fun c => c.posts && c.key.run = k.run && mine c.key.gls)
  ((runOf s k.run).adds.filter (fun p => mine p.gls)).length +
  (cs.map (fun c => (c.total - c.done) / c.unit)).foldl (· + ·) 0

/-- The sequence number under which a command takes its place (R169). -/
def takeSeq (s : State) (t : Strand) : State := setStrand s t.key (fun t => { t with ordSeq := t.ordSeq + 1 })

/-- The additions come to the homes of their elements, behind the core's own stores to the same words (R167, R316). -/
def atHomes (s : State) (core n : Nat) (ps : List AddPost) : State :=
  ps.foldl (fun s p => if p.space = .dev then toHome s core p.addr n else wakeLoc s (p.space, p.addr)) s

/-- What the home says to a held addition: it has come when no earlier one of its strand waits for the same element (R388). -/
def heldGate (s : State) (run : Nat) (p : AddPost) : Gate :=
  match (runOf s run).heldAdds.find? (fun q => q.gls = p.gls && q.addr = p.addr && q.space = p.space) with
  | some q => if q = p then gate s (strandOf s ⟨run, p.gls⟩) rVamoadd p.addr (wordLoc p.space p.addr) p.lane else .hold
  | none => .hold

/-- An addition is made at its home, and its round counted (R384). -/
def makeAdd (s : State) (run : Nat) (p : AddPost) : State :=
  countRound (applyPost run s p) (strandOf s ⟨run, p.gls⟩) (wordLoc p.space p.addr)

/-- The held additions whose records have come are applied; `fuel` bounds the rounds (R170, R388). A strand whose record names another
decision diverges. -/
def serveHeld (run : Nat) : Nat → State → State
  | 0, s => s
  | fuel + 1, s =>
    match (runOf s run).heldAdds.find? (fun p => decide (heldGate s run p = .go)) with
    | some p =>
      let t := strandOf s ⟨run, p.gls⟩
      let s1 := serveRecord (makeAdd (atHomes s t.core (tyWidth p.ty / 8) [p]) run p) t rVamoadd p.addr p.lane
      serveHeld run fuel (setRun s1 run (fun r =>
        { r with heldAdds := r.heldAdds.erase p, heldSince := now s (strandOf s ⟨run, p.gls⟩).core }))
    | none =>
      match (runOf s run).heldAdds.findSome? (fun p => match heldGate s run p with
        | .diverge i => some (p.gls, i)
        | _ => none) with
      | some (g, i) => diverges s ⟨run, g⟩ i
      | none => s

/-- Every held addition of a launch is looked at. -/
def serveAdds (s : State) (run : Nat) : State := serveHeld run ((runOf s run).heldAdds.length + 1) s

/-- One unordered floating-point addition as it arrives at its home: recorded, and its round counted (R170, R384). -/
def arriveAdd (t : Strand) (s : State) (p : AddPost) : State :=
  recordDecision (makeAdd s t.key.run p) t rVamoadd 0 (homeSrc p.space p.addr) p.addr p.lane

/-- The postings that a VAMOADD makes: one per active lane. -/
def vamoPosts (t : Strand) (f : X96) (mode : Nat) (ls : List ((Nat × Word) × List Loc)) : List AddPost :=
  let w := tyWidth f.ty.toNat
  ls.filterMap (fun e =>
    match e.2 with
    | [] => none
    | (sp, a) :: _ =>
      some { gls := t.key.gls, seq := t.ordSeq, lane := e.1.1, space := sp, addr := a
             off := if sp = .spad then some (offOf e.1.2) else none
             value := lane w e.1.1 (vGet t f.vs2.toNat), ty := f.ty.toNat, srcTy := f.ty.toNat, mode := mode, sat := f.sat })

/-- Whether the home still has a record for a lane: one for it and for each addition of the strand to the same element that comes
before it (R388). -/
def laneNamed (s : State) (t : Strand) (ps : List AddPost) (p : AddPost) : Bool :=
  let r := runOf s t.key.run
  let same (q : AddPost) : Bool := q.gls = p.gls && q.addr = p.addr && q.space = p.space
  let before := (r.heldAdds.filter same).length + (ps.filter (fun q => same q && decide (q.lane < p.lane))).length
  decide (before < ((recordsAt s r rVamoadd p.addr).filter (·.isOf r t)).length)

/-- The lanes of an unordered floating-point VAMOADD that are added as they arrive; the others are posted, as those of VAMOADD.o are.
Lanes are posted once the manifest holds its OVERFLOW record: at issue, at the lane whose record would have taken its place, and
under replay where no record is left (R170, R383, R388; assumption 65). -/
def vamoArrive (s : State) (t : Strand) (ps : List AddPost) : List AddPost :=
  let r := runOf s t.key.run
  if r.replay.isSome then (if spilled s r then ps.filter (laneNamed s t ps) else ps)
  else if overflowed s t then []
  else if recording s t then ps.take ((contextOf s r.ctx).elim 0 recordRoom)
  else ps

/-- Additions come to homes that hold them for their records. -/
def holdAdds (s : State) (t : Strand) (arrive : List AddPost) : State :=
  setRun s t.key.run (fun r =>
    { r with heldAdds := r.heldAdds ++ arrive, heldSince := if r.heldAdds.isEmpty then now s t.core else r.heldSince })

/-- The first arrival of a replayed instruction that its element's next record does not allow (R388). -/
def divergesAt (s : State) (t : Strand) (arrive : List AddPost) : Option Nat :=
  if (runOf s t.key.run).replay.isSome then
    arrive.findSome? (fun p => match heldGate (holdAdds s t arrive) t.key.run p with
      | .diverge i => some i
      | _ => none)
  else none

/-- What an unordered floating-point VAMOADD does at the homes: held for their records under replay, else added. -/
def vamoOpen (s : State) (t : Strand) (n : Nat) (arrive : List AddPost) : State :=
  let s1 := atHomes s t.core n arrive
  if (runOf s t.key.run).replay.isSome then serveAdds (holdAdds s1 t arrive) t.key.run else arrive.foldl (arriveAdd t) s1

/-- What a VAMOADD does once its checks have passed. -/
def vamoEffect (s : State) (t : Strand) (f : X96) (i : Instr) (ps : List AddPost) : Res :=
  let n := tyWidth f.ty.toNat / 8
  if tyInt f.ty.toNat then
    let s1 := ps.foldl (applyPost t.key.run) (atHomes s t.core n ps)
    .ok (if f.ord then takeSeq s1 t else s1) .seq
  else
    let arrive := if f.ord then [] else vamoArrive s t ps
    let posts := ps.filter (fun p => !arrive.contains p)
    if posts ≠ [] && 16384 < crewPosts s t.key + posts.length then .trap s (parcelTrap cEngine s i)
    else
      match divergesAt s t arrive with
      | some j => .ok (diverges s t.key j) .stay
      | none =>
      let s1 := vamoOpen s t n arrive
      let s2 := setRun s1 t.key.run (fun r => { r with adds := r.adds ++ posts })
      .ok (if f.ord || posts ≠ [] || (overflowed s t && (runOf s t.key.run).replay.isNone) then takeSeq s2 t else s2) .seq

/-- The first lane whose element lies in host memory (R167). -/
def hostLane (ls : List ((Nat × Word) × List Loc)) : Option Trap :=
  (ls.find? (fun e => e.2.any (fun l => l.1 = .host))).map (fun e => { cause := cAccess, tval := e.1.2 })

/-- VAMOADD (R167 to R170): mode and level first (R421), then registers, alignment, translation, HOST. -/
def execVamoadd (f : X96) (s : State) : Host.Outcome State Fault Refusal :=
  runStrand (.vamoadd f) s (fun t =>
    let i := Instr.vamoadd f
    match resolveMode t f.rm.toNat with
    | none => .trap s (illegal s i)
    | some mode =>
      if mode = 5 then .trap s (illegal s i)
      else if tyFloat f.ty.toNat && !f.ord && orderedOnly s t then .trap s (illegal s i)
      else
        withRegs s t [(f.vs1.toNat, indexRegs f), (f.vs2.toNat, 1)] (fun s1 =>
          let n := tyWidth f.ty.toNat / 8
          let ls := indexedLanes t f
          match misaligned n (ls.map (·.2)) with
          | some e => .trap s e
          | none =>
            match locateAll t n .amo s1 (ls.map (·.2)) with
            | .error e => .trap s e
            | .ok (locs, s2) =>
              match hostLane (ls.zip locs) with
              | some e => .trap s e
              | none => vamoEffect s2 t f i (vamoPosts t f mode (ls.zip locs))))

end Sys2Proof.Machine
end

