-- ==== Sys2Proof/Machine/Copy.lean ====
section
/-! DEFINITION. The copy engine (spec/13 R279 to R294). -/

namespace Sys2Proof.Machine

/-! ### Shape records (R281 to R283) -/

/-- A shape record. -/
structure Shape where
  src : Word
  dst : Word
  n0 : Nat
  n1 : Nat
  n2 : Nat
  n3 : Nat
  ss1 : Int
  ss2 : Int
  ss3 : Int
  ds1 : Int
  ds2 : Int
  ds3 : Int
  tid : Nat
  step : Nat
  rowo : Nat
  colo : Nat
  sty : Nat
  dty : Nat
  mode : Nat
  sat : Bool
  mxd : Nat
  rest : Nat
  deriving DecidableEq, Repr

/-- The fields of a record held as a little-endian number. -/
def shapeOf (v : Nat) : Shape :=
  { src := BitVec.ofNat 64 v, dst := BitVec.ofNat 64 (v >>> 64)
    n0 := fld v 143 128, n1 := fld v 159 144, n2 := fld v 175 160, n3 := fld v 191 176
    ss1 := sint 32 (v >>> 192), ss2 := sint 32 (v >>> 224), ss3 := sint 32 (v >>> 256)
    ds1 := sint 32 (v >>> 288), ds2 := sint 32 (v >>> 320), ds3 := sint 32 (v >>> 352)
    tid := fld v 415 384, step := fld v 447 416, rowo := fld v 471 448, colo := fld v 495 472
    sty := fld v 499 496, dty := fld v 503 500, mode := fld v 506 504, sat := bit v 507
    mxd := fld v 509 508, rest := fld v 511 510 }

/-- Whether a record is accepted (R282). -/
def shapeOk (h : Shape) : Bool :=
  [0, 1, 4, 5].contains h.mode && h.rest = 0 &&
  (match h.mxd with
   | 0 => decide (h.sty < 12) && decide (h.dty < 12)
   | 1 => decide (8 ≤ h.sty) && decide (h.sty < 12) && decide (h.dty < 6) && h.n0 % 32 = 0
   | 2 => decide (h.sty < 6) && decide (8 ≤ h.dty) && decide (h.dty < 12) && h.n0 % 32 = 0
   | _ => false)

/-- Bytes of one dim-0 run on each side (R283). -/
def srcRow (h : Shape) : Nat := if h.mxd = 2 then h.n0 / 32 * mxBytes h.sty else h.n0 * (tyWidth h.sty / 8)
def dstRow (h : Shape) : Nat := if h.mxd = 1 then h.n0 / 32 * mxBytes h.dty else h.n0 * (tyWidth h.dty / 8)

/-- The byte count D of the copy (R283). -/
def copyTotal (h : Shape) : Nat := dstRow h * h.n1 * h.n2 * h.n3

/-- Dims 1 to 3 of row number n, in the order of R287. -/
def rowIdx (h : Shape) (n : Nat) : Nat × Nat × Nat := (n % h.n1, n / h.n1 % h.n2, n / (h.n1 * h.n2))

/-- Where row n begins on each side (R283). -/
def rowSrc (h : Shape) (n : Nat) : Word :=
  let (i1, i2, i3) := rowIdx h n
  BitVec.ofInt 64 (h.src.toNat + i1 * h.ss1 + i2 * h.ss2 + i3 * h.ss3)
def rowDst (h : Shape) (n : Nat) : Word :=
  let (i1, i2, i3) := rowIdx h n
  BitVec.ofInt 64 (h.dst.toNat + i1 * h.ds1 + i2 * h.ds2 + i3 * h.ds3)

/-- The span of a side: its lowest and highest byte, exactly (R286). -/
def spanOf (base : Word) (row : Nat) (ds : List (Nat × Int)) : Int × Int :=
  let ext := ds.map (fun e => ((e.1 : Int) - 1) * e.2)
  let lo := ext.foldl (fun a d => if d < 0 then a + d else a) 0
  let hi := ext.foldl (fun a d => if 0 < d then a + d else a) 0
  (base.toNat + lo, base.toNat + hi + row - 1)
def srcSpan (h : Shape) : Int × Int := spanOf h.src (srcRow h) [(h.n1, h.ss1), (h.n2, h.ss2), (h.n3, h.ss3)]
def dstSpan (h : Shape) : Int × Int := spanOf h.dst (dstRow h) [(h.n1, h.ds1), (h.n2, h.ds2), (h.n3, h.ds3)]

/-- Whether two spans share a byte. -/
def spansMeet (a b : Int × Int) : Bool := decide (a.1 ≤ b.2) && decide (b.1 ≤ a.2)

/-! ### Engine accesses -/

/-- The located bytes of an engine's access (R110), without the replicas of a weight shard. -/
def locateEng (s : State) (t : Strand) (ea : Word) (n : Nat) (acc : Access) : Except Trap (List Loc × State) :=
  match segCheck t ea n acc true false with
  | .error e => .error e
  | .ok (.scratch off) => .ok (scratchLocs t.core t.granules off n, s)
  | .ok (.virt va host) =>
    virtLocs (clusterOfStrand t) none (ctxSpace s t.ctx) acc host (n / 2 ^ 19 + 2) s va ea n
  | .ok _ => .error { cause := cSegment, tval := ea }

/-- The bytes of an access and which of them are poisoned. -/
def readEng (s : State) (ls : List Loc) : List Byte × List Bool :=
  (ls.map (fun l => peek s l.1 l.2), ls.map (fun l => poisoned s l.1 l.2 1))

/-- A read of scratch bytes wakes the granules that hold them (R190). -/
def wakeScratch (s : State) (core : Nat) (gs : List Nat) (off n : Nat) : State :=
  let i := off / Config.granule
  ((gs.drop i).take ((off + n - 1) / Config.granule + 1 - i)).foldl (fun s g => wake s core (.granule g)) s

/-- The shard of a crew (R263). -/
def shardNo (r : Run) (crew : Nat) : Nat := crew / r.shdiv % r.nsh

/-- The replicas of a crew's shard. -/
def replicas (s : State) (k : StrandKey) : List Shard :=
  let r := runOf s k.run
  s.shards.filter (fun h => h.ctx = r.ctx && h.image = r.image && h.shard = shardNo r (crewNo k))

/-- Where a CPYWB's bytes at an sg2 offset go: one list for each replica (R292). -/
def weightLocs (s : State) (k : StrandKey) (off n : Nat) : List (List Loc) :=
  (replicas s k).map (fun h => tabulate n (fun i => (.wbuf, h.cluster * Config.wbufBytes + h.base + off + i)))

/-! ### Elements (R284) -/

/-- Draw of element i0 of row n (R43, R284). -/
def copyDraw (s : State) (k : StrandKey) (h : Shape) (n i0 : Nat) : Nat :=
  if h.mode = 5 then drawOf (runOf s k.run).seed h.tid (h.rowo + n) (h.colo + i0) h.step else 0

/-- The value of source element i of a row. -/
def copyValue (h : Shape) (row : Nat) (i : Nat) : Exact :=
  if h.mxd = 2 then mxValue h.sty (fld row (8 * mxBytes h.sty * (i / 32 + 1) - 1) (8 * mxBytes h.sty * (i / 32))) (i % 32)
  else valueOf (tyNum h.sty) (lane (tyWidth h.sty) i row)

/-- Whether an infinite source value stays infinite: in widening conversions, and in unpacking (R30, R284). -/
def copyKeeps (h : Shape) : Bool := h.mxd = 2 || widens (tyNum h.sty) (tyNum h.dty)

/-- The destination bytes of row n, from the source bytes of it. -/
def copyBytes (s : State) (k : StrandKey) (h : Shape) (n : Nat) (bs : List Byte) : List Byte :=
  let row := leNat bs
  if h.mxd = 0 && h.sty = h.dty then bs
  else if h.mxd = 1 then
    (List.range (h.n0 / 32)).flatMap (fun g =>
      leBytes (mxBytes h.dty) (mxPack h.dty h.mode h.sat (fun j => copyDraw s k h n (32 * g + j)) (fun _ => true)
        (tabulate 32 (fun j => copyValue h row (32 * g + j)))).1)
  else
    (List.range h.n0).flatMap (fun i =>
      leBytes (tyWidth h.dty / 8)
        (convertTo (tyNum h.dty) h.mode (copyDraw s k h n i) h.sat (copyKeeps h) (copyValue h row i)).1)

/-- Whether a poisoned source byte feeds source element i of a row (R288). -/
def badElem (h : Shape) (bad : List Bool) (i : Nat) : Bool :=
  if h.mxd = 2 then
    let w := mxBits h.sty
    let b := mxBytes h.sty * (i / 32)
    bad.getD (b + 4 * w) false || bad.getD (b + w * (i % 32) / 8) false || bad.getD (b + (w * (i % 32) + w - 1) / 8) false
  else
    let e := tyWidth h.sty / 8
    (List.range e).any (fun j => bad.getD (e * i + j) false)

/-- Which destination bytes of a row a poisoned source byte feeds. -/
def badBytes (h : Shape) (bad : List Bool) : List Bool :=
  if h.mxd = 1 then
    (List.range (h.n0 / 32)).flatMap (fun g =>
      List.replicate (mxBytes h.dty) ((List.range 32).any (fun j => badElem h bad (32 * g + j))))
  else (List.range h.n0).flatMap (fun i => List.replicate (tyWidth h.dty / 8) (badElem h bad i))

/-! ### The engine at work (R287 to R290) -/

def copyDrop (s : State) (cl : Nat) (c : CopyCmd) : State :=
  setCluster s cl (fun d => { d with copies := d.copies.filter (fun x => x.id ≠ c.id) })

/-- n more bytes of a command are written: they are credited, and the command ends when all are (R287). -/
def copyCredit (s : State) (cl : Nat) (c : CopyCmd) (n bits : Nat) : State :=
  let s1 := credit s c.key c.order c.barrier n bits
  if c.total ≤ c.done + n then copyDrop s1 cl c
  else if n = 0 then s1
  else
    let cycles := (dieOf s (dieOfCluster cl)).cycles
    let rd := dstRow (shapeOf (leNat c.record))
    setCluster s1 cl (fun d => { d with copies := lmodWhere (fun x => x.id = c.id) (fun x =>
      { x with done := x.done + n, since := cycles, row := if (x.done + n) % rd = 0 then none else x.row }) d.copies })

/-- A command stops: the rest of D is credited with a status bit (R288, R293). -/
def copyStop (cl bits : Nat) (s : State) (c : CopyCmd) : State :=
  copyDrop (credit s c.key c.order c.barrier (c.total - c.done) bits) cl c

/-- A failed translation, or a host that refuses (R288): FAULT, and a pending fault, or, without a barrier, an event record at once and no
pending fault (assumption 116). -/
def copyFault (s : State) (cl : Nat) (c : CopyCmd) (e : Trap) : State :=
  let s1 := copyStop cl stFault (noteTrap s e) c
  let src := unitSource cl 9
  if c.barrier = 0 then logStrand s1 src 4 e.cause c.key e.tval.toNat
  else addFault s1 c.key { order := c.order, cause := BitVec.ofNat 8 e.cause, fetch := e.fetch, tval := e.tval
                           slot := none, barrier := some c.barrier, src := src, addr := e.tval.toNat }

/-- The value that an element of a reduce-copy adds: converted first for an integer destination (R289). -/
def reduceValue (h : Shape) (v : Exact) : Exact :=
  if tyInt h.dty then valueOf (tyNum h.dty) (convertTo (tyNum h.dty) h.mode 0 h.sat false v).1 else v

/-- The posting of element number e of a reduce-copy (R290). -/
def reducePost (c : CopyCmd) (h : Shape) (row i e : Nat) (l : Loc) (more : List Loc) : AddPost :=
  { gls := c.key.gls, seq := c.seq.getD 0, lane := e, space := l.1, addr := l.2, off := none
    more := if (runs (l :: more)).length ≤ 1 then [] else more, value := lane (tyWidth h.sty) i row, ty := h.dty, srcTy := h.sty, mode := h.mode, sat := h.sat }

/-- Whether an addition is a decision of R290: floating point, unordered, not posted. -/
def reduceOpen (c : CopyCmd) (h : Shape) : Bool := c.kind = 1 && tyFloat h.dty && !c.posts

/-- One addition at its home, or its posting, recorded when the launch records. `l` is the element's first byte, `more` the others. An
element that a poisoned source byte feeds is poisoned at once, and is neither posted nor recorded (assumption 117). -/
def reduceApply (s : State) (t : Strand) (c : CopyCmd) (h : Shape) (row i e : Nat) (l : Loc) (more : List Loc) (bad post : Bool) : State :=
  if bad then (runs (l :: more)).foldl (fun s r => spoilHome s r.1 r.2.1 r.2.2) (wakeLocs s (l :: more))
  else if post then setRun s t.key.run (fun r => { r with adds := r.adds ++ [reducePost c h row i e l more] })
  else
    let s1 := addLocs s (l :: more) h.dty h.mode h.sat (reduceValue h (copyValue h row i))
    if reduceOpen c h then countRound (served s1 t rCpyred 0 (homeSrc l.1 l.2) l.2 e) t (wordLoc l.1 l.2) else s1

/-- Elements i, i + 1, … of a row are added, at most `fuel` of them, until one is held: the state, how many were added,
whether a poisoned byte fed one, and the index of a divergent record (R388). -/
def reduceRun (c : CopyCmd) (h : Shape) (n row : Nat) (bad : List Bool) (dst : List Loc) :
    Nat → State → Nat → State × Nat × Bool × Option Nat
  | 0, s, _ => (s, 0, false, none)
  | fuel + 1, s, i =>
    let w := tyWidth h.dty / 8
    match (dst.drop (w * i)).take w with
    | [] => (s, 0, false, none)
    | l :: more =>
      let t := strandOf s c.key
      let e := n * h.n0 + i
      let b := badElem h bad i
      let replays := reduceOpen c h && (runOf s c.key.run).replay.isSome && !b && !exhausted s t rCpyred l.2
      let g := if replays then gate s t rCpyred l.2 (wordLoc l.1 l.2) e else .go
      match g with
      | .hold => (s, 0, false, none)
      | .diverge j => (s, 0, false, some j)
      | .go =>
        let s1 := reduceApply s t c h row i e l more b c.posts
        let (s2, k, p, d) := reduceRun c h n row bad dst fuel s1 (i + 1)
        (s2, k + 1, p || b, d)

/-- Bytes of one destination are written, and the words that poisoned bytes feed are poisoned (R288). -/
def writeMarked (s : State) (ls : List Loc) (bs : List Byte) (bad : List Bool) : State :=
  poisonLocs (writeLocs (wakeLocs s ls) ls bs) ((ls.zip bad).filterMap (fun e => if e.2 then some e.1 else none))

/-- How many of n bytes from ea on the engine writes as one part of a row with `rest` bytes to go: no piece of 16 or 32 bytes is cut
(R287, R325). -/
def wholePieces (ea rest n : Nat) : Nat :=
  if rest ≤ n then rest
  else
    let stop := (ea + n) / 32 * 32
    if ea < stop then stop - ea else min rest (32 - ea % 32)

/-- A copy's bytes [pos, pos + n) of row number r, whose source bytes are given with their poison (R287). -/
def copyPart (s : State) (cl : Nat) (c : CopyCmd) (h : Shape) (r pos n : Nat) (src : List Byte × List Bool) (dests : List (List Loc)) :
    State :=
  let (bs, bad) := src
  if c.kind = 1 || c.kind = 2 then
    let w := tyWidth h.dty / 8
    let (s1, k, p, d) := reduceRun c h r (leNat bs) bad (dests.headD []) ((n + w - 1) / w) s (pos / w)
    let s2 := copyCredit s1 cl c (k * w) (if p then stPoison else 0)
    match d with
    | some j => diverges s2 c.key j
    | none => s2
  else
    let out := (copyBytes s c.key h r bs).drop pos |>.take n
    let marks := (badBytes h bad).drop pos |>.take n
    let s1 := dests.foldl (fun s ls => writeMarked s (ls.drop pos |>.take n) out marks) s
    copyCredit s1 cl c n (if marks.any id then stPoison else 0)

/-- Whether an earlier CPYRED.o of the strand into SCRATCH stands before a command (R279, R290). -/
def reduceBlocked (s : State) (cl : Nat) (c : CopyCmd) : Bool :=
  c.kind = 2 && (clusterOf s cl).copies.any (fun x => x.kind = 2 && x.key = c.key && x.order < c.order)

/-- An update of a command in its engine. -/
def setCopy (s : State) (cl id : Nat) (f : CopyCmd → CopyCmd) : State :=
  setCluster s cl (fun d => { d with copies := lmodWhere (fun x => decide (x.id = id)) f d.copies })

/-- The source bytes of the row in hand: those that the engine has read, or those it reads now, all of the row at once
(assumption 64). -/
def rowBytes (s : State) (cl : Nat) (c : CopyCmd) (t : Strand) (h : Shape) (r : Nat) :
    Except Trap ((List Byte × List Bool) × State) :=
  match c.row with
  | some b => .ok (b, s)
  | none =>
    match locateEng s t (rowSrc h r) (srcRow h) .eread with
    | .error e => .error e
    | .ok (sl, s1) => .ok (readEng s1 sl, setCopy (wakeLocs s1 sl) cl c.id (fun x => { x with row := some (readEng s1 sl) }))

/-- The engine works on a command: up to `bytes` of the row it stands in, or the rest of it when `bytes` is 0. -/
def copyStep (s : State) (cl : Nat) (c : CopyCmd) (bytes : Nat) : State :=
  match findStrand s c.key with
  | none => s
  | some t =>
    let h := shapeOf (leNat c.record)
    let rd := dstRow h
    let r := c.done / rd
    let pos := c.done % rd
    let n := if bytes = 0 then rd - pos else wholePieces ((rowDst h r).toNat + pos) (rd - pos) bytes
    if reduceBlocked s cl c then s
    else
      match rowBytes s cl c t h r with
      | .error e => copyFault s cl c e
      | .ok (src, s1) =>
        if c.kind = 3 then copyPart s1 cl c h r pos n src (weightLocs s1 c.key (offOf (rowDst h r)) rd)
        else
          match locateEng s1 t (rowDst h r) rd .ewrite with
          | .error e => copyFault s1 cl c e
          | .ok (dl, s2) => copyPart s2 cl c h r pos n src [dl]

/-- COPY_ROW_WRITE (R287). -/
def execCopyRowWrite (cl id bytes : Nat) (s : State) : Host.Outcome State Fault Refusal :=
  runEvent (clusterOk cl) (match (clusterOf s cl).copies.find? (fun c => c.id = id) with
    | none => s
    | some c => copyStep s cl c bytes)

/-! ### Issue (R280, R285, R286) -/

/-- One end of a span, checked by the segment steps of R110. -/
def endCheck (t : Strand) (a : Int) (acc : Access) (wgt : Bool) : Option Trap :=
  let ea : Word := BitVec.ofInt 64 a
  if a < 0 || (2 ^ 64 : Nat) ≤ a then some { cause := cSegment, tval := ea }
  else
    match segCheck t ea 1 acc false wgt with
    | .error e => some e
    | .ok _ => none

/-- Step 3 of R286 for one side. -/
def spanCheck (t : Strand) (sp : Int × Int) (acc : Access) (wgt : Bool) : Option Trap :=
  match endCheck t sp.1 acc wgt with
  | some e => some e
  | none => endCheck t sp.2 acc wgt

/-- Step 3 for a copy of no bytes: kinds and permissions alone (R283). -/
def kindCheck (t : Strand) (ea : Word) (acc : Access) (wgt : Bool) : Option Trap :=
  let d := segOf t ea
  if !permits d acc || dKind d = kPeer || (dKind d = kWeight && !wgt) then some { cause := cSegment, tval := ea } else none

/-- A CPYRED into HOST (R289). -/
def hostDst (t : Strand) (kind : Nat) (h : Shape) : Option Trap :=
  if (kind = 1 || kind = 2) && dKind (segOf t h.dst) = kHost then some { cause := cSegment, tval := h.dst } else none

/-- The rules of the instruction for its record: whether it is accepted (R282, R289, R290, R292). -/
def recordOk (s : State) (t : Strand) (kind : Nat) (h : Shape) : Bool :=
  shapeOk h &&
  (if kind = 1 || kind = 2 then
     h.mxd = 0 && [2, 3, 6, 7, 10, 11].contains h.dty && h.mode ≠ 5 &&
     !(kind = 2 && tyFloat h.dty && dKind (segOf t h.dst) = kGlobal)
   else if kind = 3 then
     (runOf s t.key.run).staging && h.sty = 4 && h.dty = 4 && h.mode = 0 && !h.sat && h.mxd = 0 &&
     h.dst.toNat / 2 ^ 60 = 2 && h.src.toNat / 2 ^ 60 ≠ 2
   else true)

/-- Step 4 of R286. Every SCRATCH segment names the granules that sg1 names (R107, R109). -/
def overlapBad (t : Strand) (h : Shape) (bar : Word) : Bool :=
  let inSpad (a : Int) : Int := a - h.dst.toNat / 2 ^ 60 * 2 ^ 60
  (h.src.toNat / 2 ^ 60 = h.dst.toNat / 2 ^ 60 && spansMeet (srcSpan h) (dstSpan h)) ||
  (bar ≠ 0 && dKind (segOf t h.dst) = kScratch &&
    spansMeet (inSpad (dstSpan h).1, inSpad (dstSpan h).2) ((offOf bar : Int), (offOf bar : Int) + 15))

/-- Steps 2 to 4 of R286. -/
def copyChecks (t : Strand) (kind : Nat) (h : Shape) (bar : Word) (eng : Trap) : Option Trap :=
  let first := [hostDst t kind h, if bar = 0 then none else barrierCheck t bar]
  let wgt := kind = 3
  if copyTotal h = 0 then
    (first ++ [kindCheck t h.src .load false, kindCheck t h.dst .store wgt]).findSome? id
  else
    (first ++ [spanCheck t (srcSpan h) .load false, spanCheck t (dstSpan h) .store wgt,
               if overlapBad t h bar then some eng else none]).findSome? id

/-- Whether a CPYRED.u is issued after the OVERFLOW record: under replay, when the records that name the strand's reduce-copies are all
wanted by its earlier ones (R290, R388, assumption 65). -/
def afterOverflow (s : State) (t : Strand) : Bool :=
  let r := runOf s t.key.run
  if r.replay.isSome then
    let wanted := ((copiesOf s t).filter (fun c => reduceOpen c (shapeOf (leNat c.record)))).map (fun c => (c.total - c.done) / c.unit)
    spilled s r && decide (((recordsLeft s r).filter (fun d => d.kind = rCpyred && d.isOf r t)).length ≤ wanted.foldl (· + ·) 0)
  else overflowed s t

/-- Whether the additions of a command are posted (R290): floating-point .u after OVERFLOW into GLOBAL. -/
def postsAll (s : State) (t : Strand) (kind : Nat) (h : Shape) : Bool :=
  kind = 1 && tyFloat h.dty && afterOverflow s t && dKind (segOf t h.dst) = kGlobal

/-- The kind a command takes: a floating-point .u after OVERFLOW into SCRATCH acts as .o (R290). An .o outside SCRATCH
is serialised with nothing, and adds as .u does. -/
def kindAt (s : State) (t : Strand) (kind : Nat) (h : Shape) : Nat :=
  let scratch : Bool := decide (dKind (segOf t h.dst) = kScratch)
  if kind = 1 && tyFloat h.dty && afterOverflow s t && scratch then 2
  else if kind = 2 && !scratch then 1
  else kind

/-- The command enters the engine. -/
def copyStart (s : State) (t : Strand) (i : Instr) (kind : Nat) (rec : List Byte) (h : Shape) (bar : Word) : State :=
  let posts := postsAll s t kind h
  let c : CopyCmd :=
    { id := s.nextId, key := t.key, order := t.issued, kind := kindAt s t kind h, record := rec, barrier := bar
      instr := (encode i).flatMap (fun p => leBytes 4 p.toNat), total := copyTotal h, done := 0
      unit := if h.mxd = 1 then mxBytes h.dty else tyWidth h.dty / 8
      seq := if posts then some t.ordSeq else none, posts := posts, since := now s t.core }
  let s1 := setCluster { s with nextId := s.nextId + 1 } (clusterOfStrand t) (fun d => { d with copies := d.copies ++ [c] })
  setStrand s1 t.key (fun t => { t with issued := t.issued + 1, ordSeq := if posts then t.ordSeq + 1 else t.ordSeq })

/-- Issue of CPY (0), CPYRED.u (1), CPYRED.o (2) or CPYWB (3). -/
def copyIssue (s : State) (t : Strand) (i : Instr) (kind : Nat) (f : X96) : Res :=
  let ptr := gx t f.vs1.toNat
  let bar := gx t f.vs2.toNat
  let eng := parcelTrap cEngine s i
  if !activeScalar t f then .ok s .seq
  else if 16 ≤ (copiesOf s t).length then .ok s .stay
  else if ptr.toNat % 64 ≠ 0 then .trap s { cause := cMisaligned, tval := ptr }
  else
    match loadAs s t ptr 64 with
    | .error e => .trap s e
    | .ok (rec, s1) =>
      let h := shapeOf (leNat rec)
      if kind = 1 && tyFloat h.dty && orderedOnly s t then .trap s (illegal s i)
      else if !recordOk s t kind h then .trap s eng
      else
        match copyChecks t kind h bar eng with
        | some e => .trap s e
        | none =>
          if copyTotal h = 0 then .ok s1 .seq
          else if postsAll s t kind h && 16384 < crewPosts s t.key + h.n0 * h.n1 * h.n2 * h.n3 then .trap s eng
          else .ok (copyStart s1 t i kind rec h bar) .seq

/-- CPY (R285, R286). -/
def execCpy (f : X96) (s : State) : Host.Outcome State Fault Refusal :=
  runStrand (.cpy f) s (fun t => copyIssue s t (.cpy f) 0 f)

/-- CPYRED (R289, R290). -/
def execCpyred (f : X96) (s : State) : Host.Outcome State Fault Refusal :=
  runStrand (.cpyred f) s (fun t => copyIssue s t (.cpyred f) (if f.ord then 2 else 1) f)

/-- CPYWB (R292). -/
def execCpywb (f : X96) (s : State) : Host.Outcome State Fault Refusal :=
  runStrand (.cpywb f) s (fun t => copyIssue s t (.cpywb f) 3 f)

/-! ### Query and cancel (R293) -/

/-- The strand's outstanding copies on a barrier pointer. -/
def copiesOn (s : State) (t : Strand) (bar : Word) : List CopyCmd := (copiesOf s t).filter (fun c => c.barrier = bar)

/-- CPYQ (R293). -/
def execCpyq (f : X96) (s : State) : Host.Outcome State Fault Refusal :=
  runStrand (.cpyq f) s (fun t =>
    if activeScalar t f then
      let cs := copiesOn s t (gx t f.vs2.toNat)
      let rest := (cs.map (fun c => c.total - c.done)).foldl (· + ·) 0
      .ok (setStrand s t.key (fun t => sx t f.vd.toNat (BitVec.ofNat 64 (cs.length + min rest (2 ^ 32 - 1) * 2 ^ 32)))) .seq
    else .ok s .seq)

/-- CPYCAN (R293). -/
def execCpycan (f : X96) (s : State) : Host.Outcome State Fault Refusal :=
  runStrand (.cpycan f) s (fun t =>
    if activeScalar t f then
      let cs := copiesOn s t (gx t f.vs2.toNat)
      let s1 := cs.foldl (copyStop (clusterOfStrand t) stCancelled) s
      .ok (setStrand s1 t.key (fun t => sx t f.vd.toNat (BitVec.ofNat 64 cs.length))) .seq
    else .ok s .seq)

/-- Whether bytes that begin in the segment of a pointer and end at address `last` are scratch bytes of the strand from offset `off` on:
every SCRATCH segment shows the strand's scratchpad (R109). -/
def scratchFrom (t : Strand) (off : Nat) (p : Word) (last : Int) : Bool :=
  dKind (segOf t p) = kScratch && decide ((p.toNat / 2 ^ 60 * 2 ^ 60 + off : Nat) ≤ last)

/-- Whether a copy reads or writes scratch bytes of its strand from offset `off` on, or credits a barrier there (R111). -/
def copyTouches (t : Strand) (c : CopyCmd) (off : Nat) : Bool :=
  let h := shapeOf (leNat c.record)
  scratchFrom t off h.src (srcSpan h).2 || scratchFrom t off h.dst (dstSpan h).2 || scratchFrom t off c.barrier (c.barrier.toNat + 15)

end Sys2Proof.Machine
end

