-- ==== Sys2Proof/Machine/Link.lean ====
section
/-! DEFINITION. Kryong links: flits with their CRC, the replay buffer and what waits for room in it, and the spreading of payloads over
the planes that are up (spec/21 R395 to R397, R403). -/

namespace Sys2Proof.Machine

def linkOf (s : State) (j : Nat) : Link := tget {} s.links j
def putLink (s : State) (j : Nat) (f : Link → Link) : State := { s with links := tins s.links j (f (tget {} s.links j)) }
def linkOk (j : Nat) : Bool := j < 36

/-- The flit types of HDR (R395). -/
def flitIdle : Nat := 0
def flitData : Nat := 1
def flitCombine : Nat := 2
def flitAck : Nat := 3
def flitNack : Nat := 4
def flitTime : Nat := 5
def flitManage : Nat := 6

/-- One bit, and one byte, of CRC-32C (the Castagnoli polynomial, reflected). -/
def crcBit (c : BitVec 32) : BitVec 32 := if c.getLsbD 0 then (c >>> 1) ^^^ 0x82F63B78#32 else c >>> 1
def crcByte (c : BitVec 32) (b : Byte) : BitVec 32 := (List.range 8).foldl (fun c _ => crcBit c) (c ^^^ b.setWidth 32)
def crc32c (bs : List Byte) : BitVec 32 := ~~~(bs.foldl crcByte 0xFFFFFFFF#32)

/-- The CRC of a flit's bytes [67:0]. -/
def flitCrc (f : Flit) : BitVec 32 := crc32c (leBytes 2 f.hdr.toNat ++ leBytes 2 f.seq.toNat ++ leBytes 64 f.payload.toNat)

/-- A flit with its CRC. -/
def sealFlit (f : Flit) : Flit := { f with crc := flitCrc f }

/-- A flit of a type with a payload. -/
def flitOf (type : Nat) (payload : BitVec 512) : Flit := { hdr := BitVec.ofNat 16 type, payload := payload }

/-- Whether a flit is as R395 lays it out: its CRC matches, and bits [15:8] of HDR are zero (assumption 77). -/
def flitFine (f : Flit) : Bool := f.crc = flitCrc f && decide (f.hdr.toNat < 256)

/-- The type of a flit. -/
def flitType (f : Flit) : Nat := f.hdr.toNat % 16

/-- Flits that wait enter the replay buffer of 256 flits and are sent, in order (R396). -/
def fillBuffer (l : Link) : Link :=
  if !l.up then l
  else
    let k := 256 - l.buffer.length
    let gs := (l.waiting.take k).zipIdx.map (fun e => sealFlit { e.1 with seq := BitVec.ofNat 16 ((l.sendSeq + e.2) % 4096) })
    { l with sendSeq := (l.sendSeq + gs.length) % 4096, buffer := l.buffer ++ gs, out := l.out ++ gs, waiting := l.waiting.drop k }

/-- A flit is to be sent on a link, once the link is up. -/
def queueFlit (s : State) (j : Nat) (f : Flit) : State := putLink s j (fun l => fillBuffer { l with waiting := l.waiting ++ [f] })

/-- A flit is to be sent on a link that is up. -/
def sendFlit (s : State) (j : Nat) (f : Flit) : State :=
  putLink s j (fun l => if l.up then fillBuffer { l with waiting := l.waiting ++ [f] } else l)

/-- The links that are up. -/
def upLinks (s : State) : List Nat := (List.range 36).filter (fun j => (linkOf s j).up)

/-- Flits are spread over the planes that are up, and wait while none is (R397, R417). -/
def sendFlits (s : State) (fs : List Flit) : State :=
  let ls := upLinks s
  if ls.isEmpty then { s with parked := s.parked ++ fs }
  else fs.zipIdx.foldl (fun s e => sendFlit s (ls.getD (e.2 % ls.length) 0) e.1) s

/-- Payloads as flits of a type (R397). -/
def spread (s : State) (type : Nat) (ps : List (BitVec 512)) : State := sendFlits s (ps.map (flitOf type))

/-- Flits that waited for a link are sent. -/
def sendParked (s : State) : State := sendFlits { s with parked := [] } s.parked

/-- The other members of a job are told of this one's news (R402, R404, R405, R418). -/
def tellMembers (s : State) (j : Job) (n : Config.MemberNews) : State :=
  spread s flitData (((List.range j.npkg).filter (fun r => r ≠ j.rank)).map (fun r => Config.memberPayload j.id r n))

/-- Everything that arrived and has not been consumed. -/
def inboxes (s : State) : List Flit := s.links.flatMap (fun l => l.2.inbox)

/-- Consumes the arrived flits that pass a test. -/
def consume (s : State) (p : Flit → Bool) : State :=
  { s with links := s.links.map (fun l => (l.1, { l.2 with inbox := l.2.inbox.filter (fun f => !p f) })) }

end Sys2Proof.Machine
end

