-- ==== Sys2Proof/Machine/Coll.lean ====
section
/-! DEFINITION. COLL: collective records, issue, and an instance's result (spec/21 R406 to R412, and R400 and R401 for
what the switches compute). -/

namespace Sys2Proof.Machine

/-! ### Jobs and groups (R403) -/

/-- The job of a strand's launch, if it is set in its context. -/
def jobOf (s : State) (t : Strand) : Option Job :=
  s.jobs.find? (fun j => j.ctx = t.ctx && j.id = (runOf s t.key.run).jobid && j.isSet)

/-- Members of a group mask below rank r. -/
def membersBelow (mask : BitVec 256) (r : Nat) : Nat := popcount r mask.toNat

/-- Members of a group. -/
def groupSize (mask : BitVec 256) : Nat := popcount 256 mask.toNat

/-! ### Records (R407) -/

/-- A collective record. -/
structure CollRec where
  src : Word
  dst : Word
  count : Nat
  group : Nat
  root : Nat
  seq : Nat
  result : Nat
  mask : BitVec 256
  deriving DecidableEq, Repr

def collRecOf (v : Nat) : CollRec :=
  { src := BitVec.ofNat 64 v, dst := BitVec.ofNat 64 (v >>> 64), count := fld v 159 128, group := fld v 175 160
    root := fld v 191 176, seq := fld v 223 192, result := fld v 255 224, mask := BitVec.ofNat 256 (v >>> 256) }

/-- OP and KIND of R406, and the element size z of R407. -/
def collOp (f : X96) : Nat := fld f.aux.toNat 1 0
def collKind (f : X96) : Nat := fld f.aux.toNat 3 2
def collSize (kind : Nat) : Nat :=
  match kind with
  | 0 => 4
  | 1 => 8
  | _ => 272

/-- MCAST 0 and BCAST 1 have a root. -/
def collRooted (op : Nat) : Bool := op < 2

/-- Whether a position reads SRC, and whether it has a DST. -/
def usesSrc (op pos root : Nat) : Bool := !collRooted op || pos = root
def usesDst (op pos root : Nat) : Bool := !collRooted op || pos ≠ root

/-- Step 3 of R408: whether the record is one that position `pos` of a group may issue. -/
def collRecOk (op kind : Nat) (mask : BitVec 256) (rank : Nat) (r : CollRec) : Bool :=
  let pos := membersBelow mask rank
  r.result = 0 && mask.getLsbD rank && (collRooted op || r.root = 0) && (op = 0 || r.mask = 0) &&
  (!collRooted op || (decide (r.root < groupSize mask) && !(op = 0 && r.mask.getLsbD r.root))) &&
  (op ≠ 0 || pos = r.root || r.mask.getLsbD pos) &&
  r.count ≠ 0 && decide (r.count * collSize kind ≤ 2 ^ 24) &&
  (usesSrc op pos r.root || r.src = 0) && (usesDst op pos r.root || r.dst = 0)

/-! ### Issue (R408) -/

/-- Step 4 of R408 for one pointer. -/
def collPointer (t : Strand) (ptr : Word) (z n : Nat) (acc : Access) : Option Trap :=
  if ptr.toNat % min z 16 ≠ 0 then some { cause := cMisaligned, tval := ptr }
  else if dKind (segOf t ptr) ≠ kScratch && dKind (segOf t ptr) ≠ kGlobal then some { cause := cSegment, tval := ptr }
  else spanCheck t (ptr.toNat, ptr.toNat + n - 1) acc false

/-- The bytes that a SCRATCH or GLOBAL pointer names: whether they stand in the scratchpad, and their first offset or virtual address. Every
SCRATCH segment names the granules that sg1 names (R107, R109). -/
def spanPlace (t : Strand) (p : Word) : Bool × Int :=
  let d := segOf t p
  if dKind d = kScratch then (true, (offOf p : Nat)) else (false, (segVa t d (offOf p) : Nat))

/-- Step 5 of R408: spans overlap when they have a byte in common, through whichever segments they are named. -/
def collOverlap (t : Strand) (op : Nat) (r : CollRec) (bar : Word) (src dst : Bool) (n : Nat) : Bool :=
  let a := spanPlace t r.src
  let b := spanPlace t r.dst
  let span (x : Int) : Int × Int := (x, x + n - 1)
  (src && dst && a.1 == b.1 && spansMeet (span a.2) (span b.2) && (decide (a.2 ≠ b.2) || collRooted op)) ||
  (dst && bar ≠ 0 && b.1 && spansMeet (span b.2) ((offOf bar : Nat), (offOf bar : Nat) + 15))

/-- Whether an instance is outstanding on this package. -/
def collOut (s : State) (ctx job group seq : Nat) : Bool :=
  s.colls.any (fun c => c.ctx = ctx && c.job = job && c.group = group && c.seq = seq)

/-- Steps 3 to 6 of R408, and the issue. -/
def collChecked (s : State) (t : Strand) (i : Instr) (f : X96) (ptr bar : Word) (r : CollRec) : Res :=
  let eng := parcelTrap cEngine s i
  let op := collOp f
  let kind := collKind f
  let z := collSize kind
  match jobOf s t with
  | none => .trap s eng
  | some j =>
    match j.groups[r.group]? with
    | none => .trap s eng
    | some mask =>
      if !collRecOk op kind mask j.rank r then .trap s eng
      else
        let pos := membersBelow mask j.rank
        let us := usesSrc op pos r.root
        let ud := usesDst op pos r.root
        let n := r.count * z
        let checks := [if us then collPointer t r.src z n .load else none, if ud then collPointer t r.dst z n .store else none,
                       if collOverlap t op r bar us ud n then some eng else none,
                       if collOut s t.ctx j.id r.group r.seq then some eng else none]
        match checks.findSome? id with
        | some e => .trap s e
        | none =>
          let c : Coll :=
            { id := s.nextId, key := t.key, order := t.issued, ctx := t.ctx, job := j.id, group := r.group, seq := r.seq, op := op
              kind := kind, count := r.count, root := r.root, mask := r.mask, src := r.src, dst := r.dst, recPtr := ptr
              barrier := bar, since := s.gtc, result := none }
          .ok (setStrand { s with colls := s.colls ++ [c], nextId := s.nextId + 1 } t.key (fun t => { t with issued := t.issued + 1 })) .seq

/-- COLL (R406, R408). -/
def execColl (f : X96) (s : State) : Host.Outcome State Fault Refusal :=
  let i := Instr.coll f
  runStrand i s (fun t =>
    let ptr := gx t f.vs1.toNat
    let bar := gx t f.vs2.toNat
    if !activeScalar t f then .ok s .seq
    else if 8 ≤ (collsOf s t).length || 1024 ≤ s.colls.length then .ok s .stay
    else if ptr.toNat % 64 ≠ 0 then .trap s { cause := cMisaligned, tval := ptr }
    else if dKind (segOf t ptr) ≠ kScratch then .trap s { cause := cSegment, tval := ptr }
    else
      match loadAs s t ptr 64 with
      | .error e => .trap s e
      | .ok (bs, s1) =>
        match (if bar = 0 then none else barrierCheck t bar) with
        | some e => .trap s e
        | none => collChecked s1 t i f ptr bar (collRecOf (leNat bs)))

/-! ### The instance (R400, R401, R409) -/

/-- Lane i of w bytes of a contribution, signed. -/
def laneOf (w : Nat) (bs : List Byte) (i : Nat) : Int := sint (8 * w) (leNat ((bs.drop (w * i)).take w))

/-- An exact sum in a lane of w bytes, and whether it lies outside the lane's range. -/
def sumLane (w : Nat) (cs : List (List Byte)) (i : Nat) : List Byte × Bool :=
  let t := (cs.map (fun b => laneOf w b i)).foldl (· + ·) 0
  (leBytes w (ulow (8 * w) t), decide (sint (8 * w) (ulow (8 * w) t) ≠ t))

/-- The largest lane, signed. -/
def maxLane (w : Nat) (cs : List (List Byte)) (i : Nat) : List Byte :=
  let ls := cs.map (fun b => laneOf w b i)
  leBytes w (ulow (8 * w) (ls.foldl max (ls.headD 0)))

/-- One BSI value of the result, from the contributions' values (R401): bytes, CARRY, EXPMISMATCH. -/
def sumBsi (vs : List (List Byte)) : List Byte × Bool × Bool :=
  let exps := vs.map (fun v => leNat ((v.drop 256).take 2))
  if exps.any (fun e => e ≠ exps.headD 0) then (List.replicate 256 0 ++ leBytes 2 0x8000 ++ List.replicate 14 0, false, true)
  else
    let ls := tabulate 32 (sumLane 8 vs)
    (ls.flatMap (·.1) ++ leBytes 2 (exps.headD 0) ++ List.replicate 14 0, ls.any (·.2), false)

/-- The result and its flags: CARRY bit 0, EXPMISMATCH bit 1 (R409). `cs` are the contributions, by rank. -/
def collResult (op kind count : Nat) (root : List Byte) (cs : List (List Byte)) : List Byte × Nat :=
  let z := collSize kind
  if collRooted op then (root, 0)
  else if op = 2 then ((List.range count).flatMap (maxLane z cs), 0)
  else if kind = 2 then
    let vs := (List.range count).map (fun i => sumBsi (cs.map (fun b => (b.drop (272 * i)).take 272)))
    (vs.flatMap (·.1), b2n (vs.any (·.2.1)) + 2 * b2n (vs.any (·.2.2)))
  else
    let ls := (List.range count).map (sumLane z cs)
    (ls.flatMap (·.1), b2n (ls.any (·.2)))

/-- The group of an instance, and this package's rank in its job. -/
def collGroup (s : State) (c : Coll) : BitVec 256 × Nat :=
  match s.jobs.find? (fun j => j.ctx = c.ctx && j.id = c.job) with
  | some j => (j.groups.getD c.group 0, j.rank)
  | none => (0, 0)

/-- The ranks of an instance's participants (R407). -/
def partyRanks (c : Coll) (mask : BitVec 256) : List Nat :=
  (List.range 256).filter (fun r => mask.getLsbD r &&
    (c.op ≠ 0 || membersBelow mask r = c.root || c.mask.getLsbD (membersBelow mask r)))

/-- The other participants. -/
def otherRanks (s : State) (c : Coll) : List Nat :=
  let (mask, rank) := collGroup s c
  (partyRanks c mask).filter (fun r => r ≠ rank)

/-- Arrived flits that bear on an instance, and what they say of it. -/
def flitFor (c : Coll) (f : Flit) : Bool := decide ((Config.flitColl f.payload).1 = (c.ctx, c.job, c.group, c.seq))
def collNews (s : State) (c : Coll) : List Config.CollNews := ((inboxes s).filter (flitFor c)).map (fun f => (Config.flitColl f.payload).2)

/-- The other participants are told of an instance's news. -/
def collTell (s : State) (c : Coll) (n : Config.CollNews) : State :=
  spread s flitData ((otherRanks s c).map (fun r => Config.collPayload c.job c.group c.seq r n))

/-- A completed or failed COLL leaves the package: RESULT is written and the barrier credited D (R410, R411). -/
def collEnd (s : State) (c : Coll) (result bits : Nat) : State :=
  let s1 : State := { consume s (flitFor c) with colls := s.colls.filter (fun x => x.id ≠ c.id) }
  match findStrand s1 c.key with
  | none => s1
  | some t =>
    let o := offOf c.recPtr + 28
    let s2 := if t.granules.length ≤ o / Config.granule then s1
      else writeLocs (wakeLocs s1 (scratchLocs t.core t.granules o 4)) (scratchLocs t.core t.granules o 4) (leBytes 4 result)
    credit s2 c.key c.order c.barrier (c.count * collSize c.kind) bits

/-- Event sources of a die manager and a link. -/
def dieSource (d : Nat) : Nat := 6144 + d
def linkSource (j : Nat) : Nat := 6192 + j

/-- Why an instance failed, as its record's KIND. -/
def collKindOf : CollCause → Nat
  | .cancelled => 8
  | .unreachable => 9
  | .disagree => 4
  | .timeout => 4
  | .fault => 4

/-- The other participants of a root's instance have all told that its data has been delivered (R410). -/
def allDelivered (s : State) (c : Coll) : Bool :=
  let news := collNews s c
  (otherRanks s c).all (fun r => news.any (fun n => decide (n = .delivered r)))

/-- RESULT of a participant's COLL that is complete: its DST is written, and a root's data has been delivered to every receiver (R410). -/
def collDone (s : State) (c : Coll) : Option Nat :=
  let (mask, rank) := collGroup s c
  if collRooted c.op && membersBelow mask rank = c.root && !allDelivered s c then none else c.result.map (·.2 + 8)

/-- This participant's COLL of a failed instance ends (R411). -/
def collFailed (s : State) (c : Coll) (cause : CollCause) : State :=
  let s1 := logStrand s (dieSource (dieOfCore (strandOf s c.key).core)) (collKindOf cause) 0 c.key c.recPtr.toNat
  collEnd s1 c 12 (if cause = .cancelled then stCancelled else stFault)

/-- An instance fails as a whole: here, and on every other participant (R411, R412). -/
def collFailAll (s : State) (c : Coll) (cause : CollCause) : State := collFailed (collTell s c (.failed cause)) c cause

/-- A COLL stops with its strand or its job: one that is complete ends so, another fails (R405, R410, R412). -/
def stopColl (fail : State → Coll → CollCause → State) (cause : CollCause) (s : State) (c : Coll) : State :=
  match collDone s c with
  | some v => collEnd s c v 0
  | none => fail s c cause

/-- A failure of this participant's own SRC or DST: the instance fails, and the fault is pending (R411, R288). -/
def collFault (s : State) (c : Coll) (e : Trap) : State :=
  let src := dieSource (dieOfCore (strandOf s c.key).core)
  let s1 := noteTrap (collEnd (logStrand (collTell s c (.failed .fault)) src 4 e.cause c.key e.tval.toNat) c 12 stFault) e
  if c.barrier = 0 then s1
  else addFault s1 c.key { order := c.order, cause := BitVec.ofNat 8 e.cause, fetch := e.fetch, tval := e.tval
                           slot := none, barrier := some c.barrier, src := src, addr := e.tval.toNat }

/-- Located bytes of this participant's SRC or DST, none of them poisoned (R411). -/
def collLocs (s : State) (t : Strand) (p : Word) (n : Nat) (acc : Access) : Except Trap (List Loc × State) :=
  match locateEng s t p n acc with
  | .error e => .error e
  | .ok (ls, s1) =>
    match ls.findIdx? (fun l => poisoned s1 l.1 l.2 1) with
    | some i => .error { cause := cAccess, tval := p + BitVec.ofNat 64 i }
    | none => .ok (ls, s1)

/-- This participant's SRC, or nothing when it has none. -/
def collSource (s : State) (t : Strand) (c : Coll) (pos n : Nat) : Except Trap (List Byte × State) :=
  if usesSrc c.op pos c.root then
    match collLocs s t c.src n .eread with
    | .error e => .error e
    | .ok (ls, s1) => .ok (ls.map (fun l => peek s1 l.1 l.2), wakeLocs s1 ls)
  else .ok ([], s)

/-- The bytes of an element, or a BSI value, in a combine flit's lanes (R400, R401, R409), and in a data flit. -/
def wireSize (op kind : Nat) : Nat := if collRooted op then collSize kind else if kind = 2 then 258 else 8

/-- The pieces of 64 bytes that a transfer is cut into (R397). -/
def wirePieces (c : Coll) : Nat := (c.count * wireSize c.op c.kind + 63) / 64

/-- A contribution as it travels: i32 elements as sign-extended i64 lanes, BSI values as lanes and exponent. -/
def wireBytes (op kind count : Nat) (bs : List Byte) : List Byte :=
  if collRooted op then bs
  else if kind = 0 then (List.range count).flatMap (fun i => leBytes 8 (ulow 64 (laneOf 4 bs i)))
  else if kind = 1 then bs
  else (List.range count).flatMap (fun i => (bs.drop (272 * i)).take 258)

/-- A contribution as its package holds it, from the bytes that travelled. -/
def unwire (op kind count : Nat) (w : List Byte) : List Byte :=
  if collRooted op then w
  else if kind = 0 then (List.range count).flatMap (fun i => (w.drop (8 * i)).take 4)
  else if kind = 1 then w
  else (List.range count).flatMap (fun i => (w.drop (258 * i)).take 258 ++ List.replicate 14 0)

/-- The pieces of an instance that have arrived: the root's data flits, or combined results (R397, R400). -/
def collPieces (s : State) (c : Coll) : List (Nat × List (Byte × Bool) × BitVec 512) :=
  (inboxes s).filterMap (fun f =>
    match flitFor c f && flitType f = (if collRooted c.op then flitData else flitCombine), (Config.flitColl f.payload).2 with
    | true, .piece off bs => some (off, bs, f.payload)
    | _, _ => none)

/-- Whether every piece of the transfer has arrived. -/
def collWhole (s : State) (c : Coll) : Bool :=
  let ps := collPieces s c
  (List.range (wirePieces c)).all (fun i => ps.any (fun p => p.1 = 64 * i))

/-- The pieces of what another rank has sent: a data flit's bytes, or what the switch combined, given this package's own bytes. -/
def rankPieces (c : Coll) (ps : List (Nat × List (Byte × Bool) × BitVec 512)) (own : List Byte) (rank : Nat) : List (Nat × List (Byte × Bool)) :=
  ps.map (fun p => (p.1, if collRooted c.op then p.2.1 else Config.flitInput p.2.2 ((own.drop p.1).take 64) rank))

/-- Byte i of a reassembled transfer, with its poison (R397). -/
def partByte (ps : List (Nat × List (Byte × Bool))) (i : Nat) : Byte × Bool :=
  (ps.find? (fun p => p.1 = i / 64 * 64)).elim (0, false) (fun p => p.2.getD (i % 64) (0, false))

/-- What another rank contributed, as its package holds it. -/
def rankBytes (c : Coll) (ps : List (Nat × List (Byte × Bool))) : List Byte :=
  unwire c.op c.kind c.count (tabulate (c.count * wireSize c.op c.kind) (fun i => (partByte ps i).1))

/-- Whether byte i of the result is poisoned by a transfer: its lane came poisoned (R400). -/
def resultBad (c : Coll) (ps : List (Nat × List (Byte × Bool))) (i : Nat) : Bool :=
  let bad (o n : Nat) : Bool := (List.range n).any (fun k => (partByte ps (o + k)).2)
  if collRooted c.op then bad i 1
  else
    match c.kind with
    | 0 => bad (8 * (i / 4)) 8
    | 1 => bad (8 * (i / 8)) 8
    | _ =>
      let o := i % 272
      if o < 256 then bad (258 * (i / 272) + o / 8 * 8) 8 else if o < 258 then bad (258 * (i / 272) + 256) 2 else false

/-- Whether a participant's notice agrees with this package's record (R411). -/
def noticeAgrees (c : Coll) : Config.CollNews → Bool
  | .issued _ _ op kind count root mask => op = c.op && kind = c.kind && count = c.count && root = c.root && mask = c.mask
  | _ => true

/-- Whether each other participant has said that it has issued. -/
def collTold (s : State) (c : Coll) : Bool :=
  let news := collNews s c
  (otherRanks s c).all (fun r => news.any (fun n => match n with
    | .issued q _ _ _ _ _ _ => q = r
    | _ => false))

/-- Whether every other participant has issued: each has said so, or a combined result is there, which waits for all (R400, R409). -/
def allIssued (s : State) (c : Coll) : Bool := collTold s c || (!collRooted c.op && collWhole s c)

/-- The GTCs of the issues that this package knows of: its own, and those that other participants told. -/
def collTimes (s : State) (c : Coll) : List Nat :=
  c.since :: (collNews s c).filterMap (fun n => match n with
    | .issued _ g _ _ _ _ _ => some g
    | _ => none)

/-- The collective timeout of an instance's job in ticks; 0 for none. -/
def collTimeout (s : State) (c : Coll) : Nat :=
  (s.jobs.find? (fun j => j.ctx = c.ctx && j.id = c.job)).elim 0 (fun j => 1000 * j.ctimeout)

/-- Whether not every participant issues within CTIMEOUT of the first issue (R411): one has issued later than that, or the time has passed
and one has not issued. -/
def collLate (s : State) (c : Coll) : Bool :=
  let last := (collTimes s c).foldl min c.since + collTimeout s c
  collTimeout s c ≠ 0 && ((collTimes s c).any (fun g => decide (last ≤ g)) || (decide (last ≤ s.gtc) && !allIssued s c))

/-- Whether the news of an instance is that it has failed, or that its participants disagree. -/
def collBroken (s : State) (c : Coll) : Bool :=
  (collNews s c).any (fun n => !noticeAgrees c n || (match n with
    | .failed _ => true
    | _ => false))

/-- Whether the instance computes here: every participant has issued, where there is a timeout each at a GTC that it has told and in time
(assumption 137), none disagrees, and what this one receives is whole (R409, R411). -/
def collReady (s : State) (c : Coll) (pos : Nat) : Bool :=
  !collBroken s c && !collLate s c &&
  ((otherRanks s c).isEmpty ||
    (allIssued s c && (collTimeout s c = 0 || collTold s c) && ((collRooted c.op && pos = c.root) || collWhole s c)))

/-- This participant's SRC is read and sent, cut into pieces that are spread over the planes (R397, R400), and the other participants hear
that it has issued. -/
def collSend (s : State) (c : Coll) (own : List Byte) : State :=
  let w := wireBytes c.op c.kind c.count own
  let ps := (List.range ((w.length + 63) / 64)).map (fun i => Config.partPayload c.job c.group c.seq (64 * i) ((w.drop (64 * i)).take 64))
  let s1 : State := { s with colls := lmodWhere (fun x => x.id = c.id) (fun x => { x with own := some own }) s.colls }
  collTell (if (otherRanks s c).isEmpty then s1 else spread s1 (if collRooted c.op then flitData else flitCombine) ps) c
    (.issued (collGroup s c).2 c.since c.op c.kind c.count c.root c.mask)

/-- The instance computes, and writes this participant's DST (R409); a receiver's root hears that its data is delivered. -/
def collRun (s : State) (t : Strand) (c : Coll) (own : List Byte) : State :=
  let (mask, rank) := collGroup s c
  let pos := membersBelow mask rank
  let n := c.count * collSize c.kind
  let pieces := collPieces s c
  let wire := wireBytes c.op c.kind c.count own
  let parts (r : Nat) : List (Nat × List (Byte × Bool)) := rankPieces c pieces wire r
  let bytes (r : Nat) : List Byte := if r = rank then own else rankBytes c (parts r)
  let ranks := partyRanks c mask
  let root := ranks.find? (fun r => membersBelow mask r = c.root)
  let out := collResult c.op c.kind c.count (root.elim [] bytes) (ranks.map bytes)
  let done (s : State) : State :=
    { s with colls := lmodWhere (fun x => x.id = c.id) (fun x => { x with result := some out }) s.colls }
  if usesDst c.op pos c.root then
    match collLocs s t c.dst n .ewrite with
    | .error e => collFault s c e
    | .ok (ls, s1) =>
      let bad (i : Nat) : Bool := (otherRanks s c).any (fun r => resultBad c (parts r) i)
      let s2 := done (poisonLocs (writeLocs (wakeLocs s1 ls) ls out.1) ((ls.zipIdx.filter (fun e => bad e.2)).map (·.1)))
      if collRooted c.op then
        spread s2 flitData (root.toList.map (fun r => Config.collPayload c.job c.group c.seq r (.delivered rank)))
      else s2
  else done s

/-- COLL_INSTANCE (R409): SRC is read and sent once; the instance computes when every participant has issued. -/
def execCollInstance (inst : Nat) (s : State) : Host.Outcome State Fault Refusal :=
  .next (match s.colls.find? (fun c => c.id = inst) with
    | none => s
    | some c =>
      match findStrand s c.key with
      | none => s
      | some t =>
        if c.result.isSome then s
        else
          let (mask, rank) := collGroup s c
          let pos := membersBelow mask rank
          let sent : Except Trap (List Byte × State) := match c.own with
            | some own => .ok (own, s)
            | none => (collSource s t c pos (c.count * collSize c.kind)).map (fun r => (r.1, collSend r.2 c r.1))
          match sent with
          | .error e => collFault s c e
          | .ok (own, s1) => if collReady s1 c pos then collRun s1 t c own else s1)

/-- COLL_COMPLETE (R410): RESULT with DONE, and the barrier; a root's data has then been delivered to every receiver. -/
def execCollComplete (inst : Nat) (s : State) : Host.Outcome State Fault Refusal :=
  .next (match s.colls.find? (fun c => c.id = inst) with
    | none => s
    | some c =>
      match collDone s c with
      | none => s
      | some v => collEnd s c v 0)

/-- COLL_FAIL (R411): a participant is late or disagrees, or another participant told that the instance has failed. A COLL that is complete
here does not fail any more. A lost member and a
cancelled job end their COLLs with the job (R405, R418). -/
def execCollFail (inst : Nat) (cause : CollCause) (s : State) : Host.Outcome State Fault Refusal :=
  .next (match s.colls.find? (fun c => c.id = inst) with
    | none => s
    | some c =>
      if (collDone s c).isSome then s
      else if (collNews s c).any (fun n => decide (n = .failed cause)) then collFailed s c cause
      else
        match cause with
        | .timeout => if collLate s c then collFailAll s c .timeout else s
        | .disagree => if (collNews s c).all (noticeAgrees c) then s else collFailAll s c .disagree
        | .unreachable => s
        | .cancelled => s
        | .fault => s)

/-- Whether a COLL uses scratch bytes of its strand from offset `off` on (R111). -/
def collTouches (t : Strand) (c : Coll) (off : Nat) : Bool :=
  let n := c.count * collSize c.kind
  [(c.src, n), (c.dst, n), (c.recPtr, 64), (c.barrier, 16)].any (fun e => scratchFrom t off e.1 (e.1.toNat + e.2 - 1))

end Sys2Proof.Machine
end

