-- ==== Sys2Proof/Machine/Message.lean ====
section
/-! DEFINITION. Message rings (spec/13 R299 to R304). -/

namespace Sys2Proof.Machine

/-- A legal COUNT: a power of two from 2 to 2,048 (R106). -/
def countOk (n : Nat) : Bool := [2, 4, 8, 16, 32, 64, 128, 256, 512, 1024, 2048].contains n

/-- MULTI of `ringsize`. -/
def ringMulti (t : Strand) : Bool := t.ringsize.getLsbD 31

/-- BASE of `ringbase`. -/
def ringOff (t : Strand) : Nat := fld t.ringbase.toNat 17 0

/-- Whether the ring lies wholly in granted granules. -/
def ringGranted (t : Strand) : Bool :=
  (ringOff t + 16 * ringCount t - 1) / Config.granule < t.granules.length

/-- Delivered entries that the program has not consumed. -/
def ringUsed (t : Strand) : Nat := (t.ringtail + 2 ^ 32 - t.ringhead.toNat % 2 ^ 32) % 2 ^ 32

/-- The sg1 offset of entry k. -/
def ringEntry (t : Strand) (k : Nat) : Nat := ringOff t + 16 * (k % ringCount t)

/-- The strand numbered g in a strand's launch. -/
def inLaunch (s : State) (t : Strand) (g : Nat) : Bool :=
  let r := runOf s t.key.run
  g % 32 < r.nstrand && g / 32 < r.ncrew

/-- Whether a receiver may be sent to: its place in the launch and its life (R301). -/
inductive Receiver where
  | absent | away
  | here (t : Strand)

def receiver (s : State) (t : Strand) (g : Nat) : Receiver :=
  if !inLaunch s t g then .absent
  else
    match findStrand s ⟨t.key.run, g⟩ with
    | none => .away
    | some r =>
      match r.life with
      | .ended => .absent
      | .retained => .absent
      | .saved => .away
      | .running => .here r
      | .blocked => .here r
      | .frozen => .here r

/-- The entry is delivered (R301). -/
def deliver (s : State) (t r : Strand) (multi : Bool) (payload : Word) : State :=
  let s1 := release s t.core t.key
  let entry := leBytes 4 t.key.gls ++ leBytes 4 t.ringsend.toNat ++ leBytes 8 payload.toNat
  let a := scratchAddr r.core r.granules (ringEntry r r.ringtail)
  let s2 := writeHome (wakeLoc s1 (.spad, a)) .spad a entry
  let s3 := setStrand s2 r.key (fun r =>
    { r with ringtail := (r.ringtail + 1) % 2 ^ 32
             ringFrom := if multi then r.ringFrom else some t.key.gls
             ringSenders := if r.ringSenders.contains t.key.gls then r.ringSenders else r.ringSenders ++ [t.key.gls] })
  setStrand s3 t.key (fun t => { t with ringsend := BitVec.ofNat 64 ((t.ringsend.toNat + 1) % 2 ^ 32) })

/-- Whether a SEND may go as a decision of its ring: SEND.S is ordered, SEND.M a decision (R301, R384, R388). -/
def sendGate (s : State) (t : Strand) (multi : Bool) (g : Nat) : Gate :=
  if multi then gate s t rSend g (ringLoc g) (t.ringsend.toNat % 2 ^ 32) else .go

/-- What a served SEND.M leaves in the manifest and the round counts. -/
def sendServed (s : State) (t r : Strand) (multi : Bool) (g : Nat) : State :=
  if multi then
    countRound (served s t rSend 0 (coreSource r.core) g (t.ringsend.toNat % 2 ^ 32)) t (ringLoc g)
  else s

/-- A SEND from its checks on (R301), made at issue and again at each unblocking. -/
def trySend (s : State) (t : Strand) (multi : Bool) (g : Nat) (payload parcel : Word) : Res :=
  let eng : Trap := { cause := cEngine, tval := parcel }
  let wait : Res := .wait s (.send multi g payload parcel)
  match receiver s t g with
  | .absent => .trap s eng
  | .away => wait
  | .here r =>
    if ringCount r = 0 then wait
    else if !countOk (ringCount r) || !ringGranted r then .trap s eng
    else if multi != ringMulti r then .trap s eng
    else if !multi && r.ringFrom.isSome && r.ringFrom ≠ some t.key.gls then .trap s eng
    else if ringUsed r = ringCount r || writesHeld s t then wait
    else
      match sendGate s t multi g with
      | .hold => wait
      | .diverge j => .ok (diverges s t.key j) .stay
      | .go => .ok (deliver (sendServed s t r multi g) t r multi payload) .seq

/-- SEND.S (R301). -/
def execSendS (rs1 rs2 : BitVec 5) (s : State) : Host.Outcome State Fault Refusal :=
  runStrand (.sendS rs1 rs2) s (fun t =>
    trySend s t false (gx t rs1.toNat).toNat (gx t rs2.toNat) (curParcel s (.sendS rs1 rs2)))

/-- SEND.M (R301): the level check first (R421). -/
def execSendM (rs1 rs2 : BitVec 5) (s : State) : Host.Outcome State Fault Refusal :=
  runStrand (.sendM rs1 rs2) s (fun t =>
    if orderedOnly s t then .trap s (illegal s (.sendM rs1 rs2))
    else trySend s t true (gx t rs1.toNat).toNat (gx t rs2.toNat) (curParcel s (.sendM rs1 rs2)))

/-- Whether RECV and TRYRECV find a ring they accept (R106, R302). -/
def recvOk (t : Strand) : Bool := countOk (ringCount t) && ringGranted t

/-- The pointer to the head entry. -/
def headPtr (t : Strand) : Word := BitVec.ofNat 64 (2 ^ 60 + ringEntry t t.ringhead.toNat)

/-- RECV from its test on (R302). -/
def tryRecv (s : State) (t : Strand) (rd : BitVec 5) : Res :=
  if ringUsed t = 0 then .wait s (.recv rd)
  else .ok (setStrand (acquire s t.core) t.key (fun u => sx u rd.toNat (headPtr t))) .seq

/-- RECV (R302). -/
def execRecv (rd : BitVec 5) (s : State) : Host.Outcome State Fault Refusal :=
  runStrand (.recv rd) s (fun t =>
    if recvOk t then tryRecv s t rd else .trap s (parcelTrap cEngine s (.recv rd)))

/-- TRYRECV (R302). -/
def execTryrecv (rd : BitVec 5) (s : State) : Host.Outcome State Fault Refusal :=
  runStrand (.tryrecv rd) s (fun t =>
    if recvOk t then
      .ok (setStrand s t.key (fun u => sx u rd.toNat (if ringUsed t = 0 then 0 else headPtr t))) .seq
    else .trap s (parcelTrap cEngine s (.tryrecv rd)))

/-! ### Wait-for edges (R303, R384) -/

/-- Whether a SEND still cannot be made. -/
def sendWaits (s : State) (t : Strand) (multi : Bool) (g : Nat) (payload parcel : Word) : Bool :=
  match trySend s t multi g payload parcel with
  | .wait _ _ => true
  | _ => false

/-- Whether its receiver's ring holds a SEND back: unbound, SAVED or not yet configured, or full (R301). -/
def ringStops (s : State) (t : Strand) (g : Nat) : Bool :=
  match receiver s t g with
  | .absent => false
  | .away => true
  | .here r => ringCount r = 0 || ringUsed r = ringCount r

/-- Whether a strand's wait on messages still holds: a SEND that cannot be delivered, a RECV with nothing delivered, or an atomic that
its home holds for its round (R303, R351, R384). -/
def waitsOnMessages (s : State) (t : Strand) : Bool :=
  t.life = .blocked && (match t.wait with
    | some (_, .send multi g payload parcel) => sendWaits s t multi g payload parcel && (ringStops s t g || sendGate s t multi g = .hold)
    | some (_, .recv _) => ringUsed t = 0
    | some (_, .atomic _ n _ ea _ _) =>
      (match locate s t ea n .amo with
       | .ok ((sp, a) :: _, _) => pastRecords s t rAtomic (8 * (a / 8)) && roundGate s t (wordLoc sp a) = .hold
       | _ => false)
    | _ => false)

/-- Where a SEND's wait-for edges lead: to its receiver, and to the lower strands that hold the round of a SEND.M back (R303, R384). -/
def sendEdges (s : State) (t : Strand) (multi : Bool) (g : Nat) : List Nat :=
  g :: if multi && pastRecords s t rSend g then roundHolders s t (ringLoc g) else []

/-- The wait-for edges of a strand, by gls: every blocked SEND publishes its own (R303); none once the wait is over. -/
def edges (s : State) (t : Strand) : List Nat :=
  match t.wait with
  | some (_, .send multi g payload parcel) => if t.life = .blocked && sendWaits s t multi g payload parcel then sendEdges s t multi g else []
  | w =>
  if !waitsOnMessages s t then [] else
  match w with
  | some (_, .recv _) => if ringMulti t then t.ringSenders else t.ringFrom.toList
  | some (_, .atomic _ n _ ea _ _) =>
    match locate s t ea n .amo with
    | .ok ((sp, a) :: _, _) => roundHolders s t (wordLoc sp a)
    | _ => []
  | _ => []

end Sys2Proof.Machine
end

