-- ==== Sys2Proof/Machine/Pool.lean ====
section
/-! DEFINITION. The claim pools of a cluster: holdings, the safety test, grants, releases and the queues of blocked
requests (spec/10 R212 to R226). -/

namespace Sys2Proof.Machine

/-- The classes of R212: 0 VREG, 1 SPAD, 2 MSLOT, 3 XQ. A cluster's pools are numbered VREG core 0 to 7, SPAD core 0 to
7, MSLOT, XQ, as R221 serves them. -/
def poolOf (t : Strand) (cls : Nat) : Nat :=
  match cls with
  | 0 => t.core % Config.cores
  | 1 => 8 + t.core % Config.cores
  | 2 => 16
  | _ => 17

/-- Capacity of a class's pool. -/
def classSize (cls : Nat) : Nat :=
  match cls with
  | 0 => 32
  | 1 => 16
  | 2 => 8
  | _ => 4

def poolSize (p : Nat) : Nat := if p < 8 then 32 else if p < 16 then 16 else if p = 16 then 8 else 4

/-- Declared initial grant and maximum of a class (R213). -/
def claimInit (r : Run) (cls : Nat) : Nat := r.claims.getD (2 * cls) 0
def claimMax (r : Run) (cls : Nat) : Nat := r.claims.getD (2 * cls + 1) 0

/-- What a strand or its crew holds in a class. -/
def heldBy (s : State) (t : Strand) (cls : Nat) : Nat :=
  match cls with
  | 0 => t.vblocks
  | 1 => t.granules.length
  | 2 => (crewOf s t.key).mslots.length
  | _ => (crewOf s t.key).xq

/-- What a holder holds and may still need, pool by pool. -/
structure Holder where
  held : List Nat
  need : List Nat
  deriving DecidableEq, Repr

/-- The strands of a crew. -/
def crewStrands (s : State) (run crew : Nat) : List Strand :=
  s.strands.filter (fun t => t.key.run = run && crewNo t.key = crew)

/-- A resident crew's figures (R213). Granules that undelivered postings of an ended strand name count as its crew's
(R350). -/
def crewHolder (s : State) (c : Crew) : Holder :=
  let r := runOf s c.run
  let ts := (crewStrands s c.run c.crew).filter onCore
  let posts := s.postHolds.filter (fun h => h.run = c.run && h.crew = c.crew && clusterOfCore h.core = c.cluster)
  let on (i : Nat) : List Strand := ts.filter (fun t => t.core % Config.cores = i)
  let sum (l : List Nat) : Nat := l.foldl (· + ·) 0
  { held := tabulate 18 (fun p =>
      if p < 8 then sum ((on p).map (·.vblocks))
      else if p < 16 then
        sum ((on (p - 8)).map (·.granules.length)) +
        sum ((posts.filter (fun h => h.core % Config.cores = p - 8)).map (·.granules.length))
      else if p = 16 then c.mslots.length else c.xq)
    need := tabulate 18 (fun p =>
      if p < 8 then sum ((on p).map (fun t => claimMax r 0 - t.vblocks))
      else if p < 16 then sum ((on (p - 8)).map (fun t => claimMax r 1 - t.granules.length))
      else if p = 16 then claimMax r 2 - c.mslots.length else claimMax r 3 - c.xq) }

/-- A retained holder's figures: its need is zero in every pool (R213). -/
def retainedHolder (h : Retained) : Holder :=
  { held := tabulate 18 (fun p =>
      if p = h.core % Config.cores then h.vblocks
      else if p = 8 + h.core % Config.cores then h.granules.length
      else if p = 16 then h.mslots.length else if p = 17 then h.xq else 0)
    need := tabulate 18 (fun _ => 0) }

/-- The crews resident in a cluster. -/
def residentCrews (s : State) (cluster : Nat) : List Crew :=
  s.crews.filter (fun c => c.cluster = cluster && c.live && !c.saved)

/-- Granules that undelivered postings keep for a crew that is no longer resident (R350): held, and no need. -/
def strayHolder (h : PostHold) : Holder :=
  { held := tabulate 18 (fun p => if p = 8 + h.core % Config.cores then h.granules.length else 0)
    need := tabulate 18 (fun _ => 0) }

/-- Every holder of a cluster. -/
def holders (s : State) (cluster : Nat) : List Holder :=
  (residentCrews s cluster).map (crewHolder s) ++
  (s.retained.filter (fun h => clusterOfCore h.core = cluster)).map retainedHolder ++
  (s.postHolds.filter (fun h => clusterOfCore h.core = cluster &&
    !(residentCrews s cluster).any (fun c => c.run = h.run && c.crew = h.crew))).map strayHolder

/-- Transform-queue entries that a crew's requests occupy (R231). -/
def occupied (s : State) (cluster run crew : Nat) : Nat :=
  ((clusterOf s cluster).xq.filter (fun q => q.key.run = run && crewNo q.key = crew)).length

/-- Entries occupied by requests that no claim covers (R214, R231). -/
def uncovered (s : State) (cluster : Nat) : Nat :=
  ((s.crews.filter (fun c => c.cluster = cluster)).map (fun c => occupied s cluster c.run c.crew - c.xq)).foldl (· + ·) 0

/-- free(p) for every pool of a cluster (R214). -/
def freePools (s : State) (cluster : Nat) : List Nat :=
  let hs := holders s cluster
  tabulate 18 (fun p =>
    poolSize p - (hs.map (fun h => h.held.getD p 0)).foldl (· + ·) 0 - (if p = 17 then uncovered s cluster else 0))

def allLe (a b : List Nat) : Bool := (a.zip b).all (fun e => decide (e.1 ≤ e.2))
def addLists (a b : List Nat) : List Nat := (a.zip b).map (fun e => e.1 + e.2)

/-- The procedure of R214; `fuel` is the number of holders left. -/
def safeLoop : Nat → List Nat → List Holder → Bool
  | _, _, [] => true
  | 0, _, _ => false
  | fuel + 1, work, left =>
    match left.find? (fun h => allLe h.need work) with
    | none => false
    | some h => safeLoop fuel (addLists work h.held) (left.erase h)

/-- Safe() of R214. -/
def safe (s : State) (cluster : Nat) : Bool :=
  let hs := holders s cluster
  safeLoop hs.length (freePools s cluster) hs

/-! ### Granting and releasing -/

/-- The physical granules of a core that something holds. -/
def usedGranules (s : State) (core : Nat) : List Nat :=
  (s.strands.filter (fun t => t.core = core && onCore t)).flatMap (·.granules) ++
  (s.retained.filter (fun h => h.core = core)).flatMap (·.granules) ++
  (s.postHolds.filter (fun h => h.core = core)).flatMap (fun h => h.granules.map (·.2))

/-- The accumulator slots of a cluster that something holds. -/
def usedSlots (s : State) (cluster : Nat) : List Nat :=
  (residentCrews s cluster).flatMap (·.mslots) ++
  (s.retained.filter (fun h => clusterOfCore h.core = cluster)).flatMap (·.mslots)

/-- The lowest free numbers of a range (assumption 14). -/
def lowestFree (n size : Nat) (used : List Nat) : List Nat :=
  ((List.range size).filter (fun i => !used.contains i)).take n

/-- A granule is zeroed before it is mapped (R190, R220). -/
def zeroGranule (core : Nat) (s : State) (g : Nat) : State :=
  let a := core * Config.spadBytes + g * Config.granule
  let b := a + Config.granule
  { s with spad := s.spad.filter (fun e => !(a ≤ e.1 && e.1 < b))
           spadBad := s.spadBad.filter (fun e => !(a ≤ 8 * e.1 && 8 * e.1 < b)) }

/-- Grants a units of a class to a strand or its crew (R220): registers and granules read as zero, slots are freshly cleared. -/
def grantUnits (s : State) (k : StrandKey) (cls a : Nat) : State :=
  let t := strandOf s k
  match cls with
  | 0 =>
    let s1 := (List.range a).foldl (fun s i => wake s t.core (.vreg t.slot (t.vblocks + i))) s
    setStrand s1 k (fun t => { t with vblocks := t.vblocks + a, v := t.v.filter (fun e => decide (e.1 < 8 * t.vblocks)) })
  | 1 =>
    let gs := lowestFree a 16 (usedGranules s t.core)
    let s1 := gs.foldl (fun s g => wake (zeroGranule t.core s g) t.core (.granule g)) s
    setStrand s1 k (fun t => { t with granules := t.granules ++ gs })
  | 2 =>
    let cl := (crewOf s k).cluster
    let ms := lowestFree a 8 (usedSlots s cl)
    let s1 := setCluster s cl (fun c => { c with slots := ms.foldl tdel c.slots })
    setCrew s1 k.run (crewNo k) (fun c => { c with mslots := c.mslots ++ ms })
  | _ => setCrew s k.run (crewNo k) (fun c => { c with xq := c.xq + a })

/-- Whether the state after a grant is safe. -/
def safeAfter (s : State) (k : StrandKey) (cls a cluster : Nat) : Bool := safe (grantUnits s k cls a) cluster

/-- Storage that holds no strand state is unpowered: it no longer drowses (R190). -/
def powerDown (s : State) (core : Nat) (p : PowerUnit → Bool) : State :=
  setCore s core (fun c => { c with drowsy := c.drowsy.filter (fun u => !p u) })

/-- Whether a unit is a register block of a slot from block n on. -/
def blockFrom (slot n : Nat) (u : PowerUnit) : Bool :=
  match u with
  | .vreg sl b => sl = slot && decide (n ≤ b)
  | _ => false

/-- Whether a unit is one of some granules. -/
def granuleOf (gs : List Nat) (u : PowerUnit) : Bool :=
  match u with
  | .granule g => gs.contains g
  | _ => false

/-- Whether a unit is a register block of a strand's retained holding. -/
def blockHeld (k : StrandKey) (u : PowerUnit) : Bool :=
  match u with
  | .held run gls _ => k = ⟨run, gls⟩
  | _ => false

/-- What strand k has inherited is now at most its first n granules (R226). -/
def capHeir (s : State) (k : StrandKey) (n : Nat) : State :=
  { s with strands := s.strands.map (fun u => match u.heir with
      | some (h, m) => if h = k && u.key ≠ k then { u with heir := some (h, min m n) } else u
      | none => u) }

/-- Releases the a most recently granted units of a class; their contents are lost (R223). -/
def releaseUnits (s : State) (k : StrandKey) (cls a : Nat) : State :=
  let t := strandOf s k
  match cls with
  | 0 =>
    let n := t.vblocks - a
    powerDown (setStrand s k (fun t => { t with vblocks := n, v := t.v.filter (fun e => decide (e.1 < 8 * n)) })) t.core
      (blockFrom t.slot n)
  | 1 =>
    let n := t.granules.length - a
    powerDown (setStrand (capHeir s k n) k (fun t => { t with granules := t.granules.take n })) t.core (granuleOf (t.granules.drop n))
  | 2 =>
    let c := crewOf s k
    let gone := c.mslots.drop (c.mslots.length - a)
    let s1 := setCluster s c.cluster (fun d => { d with slots := gone.foldl tdel d.slots })
    setCrew s1 k.run (crewNo k) (fun c => { c with mslots := c.mslots.take (c.mslots.length - a) })
  | _ => setCrew s k.run (crewNo k) (fun c => { c with xq := c.xq - a })

/-! ### Requests (R218 to R221) -/

/-- Requests that wait in a cluster: one of a strand whose save has begun is as good as abandoned, and waits again only if that save is
refused or aborted (R203, R225). -/
def waitingReqs (s : State) (cluster : Nat) : List ClaimReq :=
  (clusterOf s cluster).claimq.filter (fun q => (strandOf s q.key).saving.isNone)

/-- Requests of a cluster that are blocked in a pool. -/
def waitingIn (s : State) (cluster p : Nat) : List ClaimReq :=
  (waitingReqs s cluster).filter (fun q => poolOf (strandOf s q.key) q.cls = p)

/-- The outcome of R218 for a request: 0 GRANTED, 1 REFUSED_BUSY, 2 REFUSED_UNSAFE, 3 REFUSED_OVER. -/
def claimTest (s : State) (t : Strand) (cls a : Nat) : Nat :=
  let cl := clusterOfStrand t
  let p := poolOf t cls
  if a = 0 then 0
  else if claimMax (runOf s t.key.run) cls < heldBy s t cls + a then 3
  else if (freePools s cl).getD p 0 < a || !(waitingIn s cl p).isEmpty then 1
  else if !safeAfter s t.key cls a cl then 2
  else 0

/-- A blocked strand's instruction completes: `f` writes what it writes, and the strand runs on. -/
def finishBlocked (s : State) (k : StrandKey) (f : State → State) : State :=
  match findStrand s k with
  | none => s
  | some t =>
    match t.wait with
    | none => s
    | some (len, _) =>
      let s1 := f { s with cur := .strand k }
      let s2 := setStrand s1 k (fun t => { t with life := .running, wait := none })
      { complete s2 len .seq with cur := s.cur }

/-- The register that a blocked ACQ writes. -/
def acqReg (t : Strand) : BitVec 5 :=
  match t.wait with
  | some (_, .acq rd) => rd
  | _ => 0

/-- Grants a blocked request: the units, GRANTED in rd, and the strand runs on. -/
def grantRequest (s : State) (cluster : Nat) (q : ClaimReq) : State :=
  let rd := acqReg (strandOf s q.key)
  let s1 := setCluster s cluster (fun c => { c with claimq := c.claimq.erase q, stalled := false })
  finishBlocked (grantUnits s1 q.key q.cls q.amount) q.key (fun s => xSet s rd 0)

/-- One pass over every pool's queue, in the order of R221. -/
def servePass (cluster : Nat) (s : State) : State × Bool :=
  (List.range 18).foldl (fun acc p =>
    (waitingIn acc.1 cluster p).foldl (fun acc q =>
      if q.amount ≤ (freePools acc.1 cluster).getD p 0 && safeAfter acc.1 q.key q.cls q.amount cluster then
        (grantRequest acc.1 cluster q, true)
      else acc) acc) (s, false)

/-- Serves the queues until a pass grants nothing (R221); each pass grants a request or ends. -/
def serveLoop (cluster : Nat) : Nat → State → State
  | 0, s => s
  | fuel + 1, s =>
    let (s1, again) := servePass cluster s
    if again then serveLoop cluster fuel s1 else s1

def serveClaims (s : State) (cluster : Nat) : State :=
  serveLoop cluster ((clusterOf s cluster).claimq.length + 1) s

end Sys2Proof.Machine
end

