-- ==== Sys2Proof/Machine/Superstep.lean ====
section
/-! DEFINITION. Supersteps and the deadlock probe (spec/18 R342 to R352). -/

namespace Sys2Proof.Machine

/-! ### STEP (R342) -/

/-- Whether a strand counts as arrived: it has arrived, or it is ENDED or RETAINED. -/
def arrivedOrEnded (t : Strand) : Bool := t.arrived || t.life = .ended || t.life = .retained

/-- The strands of a launch. -/
def runStrands (s : State) (run : Nat) : List Strand := s.strands.filter (fun t => t.key.run = run)

/-- Whether every strand of a launch has been bound and has arrived or ended. -/
def allArrived (s : State) (run : Nat) : Bool :=
  let r := runOf s run
  let ts := runStrands s run
  ts.length = r.ncrew * r.nstrand && ts.all arrivedOrEnded

/-- The strand arrives; the last one brings the crossing about. -/
def arrive (s : State) (t : Strand) : State :=
  let s1 := setStrand (release s t.core t.key) t.key (fun t => { t with arrived := true })
  if allArrived s1 t.key.run then { s1 with due := s1.due ++ [.crossing t.key.run] } else s1

/-- The start of STEP: it waits for the strand's earlier COPY and MATRIX accesses, releases and arrives. -/
def stepStart (s : State) (t : Strand) : Res :=
  if classesDone s t 13 then .wait (arrive s t) .stepLanding else .wait s .stepFence

/-- STEP (R342). Of several pending delivery faults each execution of the STEP takes one, in posting order (R348, assumption 120). -/
def execStep (s : State) : Host.Outcome State Fault Refusal :=
  runStrand .step s (fun t =>
    if !(runOf s t.key.run).steps then .trap s (parcelTrap cEngine s .step)
    else
      match t.deliveries with
      | d :: rest => .trap (setStrand s t.key (fun t => { t with deliveries := rest })) { cause := cClaim, tval := d }
      | [] => stepStart s t)

/-! ### PUTX and PUTXADD (R343, R344, R347) -/

/-- Whether a posting is an order-sensitive unordered form (R347). -/
def putSensitive (add : Bool) (f : X96) : Bool := !f.ord && (!add || tyFloat f.ty.toNat || f.sat)

/-- The destination of step 5: target and offset in it. -/
def putTarget (t : Strand) (d : Word) (n : Nat) : Option (Nat × Nat) :=
  let off := offOf d
  let toff := fld off 17 0
  match segCheck t d n .ewrite true false with
  | .ok (.peer _) => if fld off 59 47 = 0 && toff + n ≤ Config.spadBytes then some (fld off 46 18, toff) else none
  | _ => none

/-- The source of step 4: its sg1 offset. -/
def putSource (t : Strand) (p : Word) (n : Nat) : Except Trap Nat :=
  match segCheck t p n .load true false with
  | .error e => .error e
  | .ok (.scratch off) => .ok off
  | .ok _ => .error { cause := cSegment, tval := p }

/-- The checks of R344 in order, and the posting. -/
def putChecked (s : State) (t : Strand) (i : Instr) (f : X96) (add : Bool) (mode : Nat) : Res :=
  let eng := parcelTrap cEngine s i
  let p := gx t f.vs1.toNat
  let d := gx t f.vs2.toNat
  let n := (gx t f.vs3.toNat).toNat
  let e := tyWidth f.ty.toNat / 8
  if !(runOf s t.key.run).steps then .trap s eng
  else if n = 0 || Config.spadBytes < n || (add && n % e ≠ 0) then .trap s eng
  else if add && p.toNat % e ≠ 0 then .trap s { cause := cMisaligned, tval := p }
  else if add && d.toNat % e ≠ 0 then .trap s { cause := cMisaligned, tval := d }
  else
    match putSource t p n with
    | .error tr => .trap s tr
    | .ok src =>
      match putTarget t d n with
      | none => .trap s { cause := cSegment, tval := d }
      | some (g, toff) =>
        if !inLaunch s t g then .trap s eng
        else if 4096 ≤ t.putSeq then .trap s eng
        else
          let q : Posting :=
            { gls := t.key.gls, seq := t.putSeq, src := src, target := g, toff := toff, len := n, add := add, ordered := f.ord
              ty := f.ty.toNat, mode := mode, sat := f.sat, dst := d }
          let s1 := setRun s t.key.run (fun r => { r with postings := r.postings ++ [q] })
          .ok (setStrand s1 t.key (fun t => { t with putSeq := t.putSeq + 1 })) .seq

/-- PUTX and PUTXADD: the guard, the checks of R421, then R344. -/
def putIssue (s : State) (t : Strand) (i : Instr) (f : X96) (add : Bool) : Res :=
  if !activeScalar t f then .ok s .seq
  else
    match resolveMode t f.rm.toNat with
    | none => .trap s (illegal s i)
    | some mode =>
      if mode = 5 then .trap s (illegal s i)
      else if putSensitive add f && orderedOnly s t then .trap s (illegal s i)
      else putChecked s t i f add mode

/-- PUTX (R344). -/
def execPutx (f : X96) (s : State) : Host.Outcome State Fault Refusal :=
  runStrand (.putx f) s (fun t => putIssue s t (.putx f) f false)

/-- PUTXADD (R344). -/
def execPutxadd (f : X96) (s : State) : Host.Outcome State Fault Refusal :=
  runStrand (.putxadd f) s (fun t => putIssue s t (.putxadd f) f true)

/-! ### The crossing (R346 to R350) -/

/-- The located source bytes of a posting: in the sender's granules, in its retained holding, or in the granules that
stayed behind (R350). -/
def postingLocs (s : State) (run : Nat) (p : Posting) : List Loc :=
  let k : StrandKey := ⟨run, p.gls⟩
  let phys (core : Nat) (g : Nat → Nat) : List Loc :=
    tabulate p.len (fun i =>
      let o := p.src + i
      (.spad, core * Config.spadBytes + g (o / Config.granule) * Config.granule + o % Config.granule))
  match s.postHolds.find? (fun h => h.key = k) with
  | some h => phys h.core (tget 0 h.granules)
  | none =>
    match s.retained.find? (fun h => h.key = k) with
    | some h => phys h.core (fun g => h.granules.getD g 0)
    | none =>
      let t := strandOf s k
      phys t.core (fun g => t.granules.getD g 0)

/-- Whether the target bytes of a posting lie in granted granules of a strand that has not ended (R346 phase 2). -/
def deliverable (s : State) (run : Nat) (p : Posting) : Bool :=
  match findStrand s ⟨run, p.target⟩ with
  | none => false
  | some t => onCore t && (p.toff + p.len - 1) / Config.granule < t.granules.length

/-- A discarded posting: a pending delivery fault of its sender, or an event record when the sender has ended (R348). -/
def deliveryFault (run : Nat) (s : State) (p : Posting) : State :=
  let k : StrandKey := ⟨run, p.gls⟩
  let t := strandOf s k
  if onCore t then setStrand s k (fun t => { t with deliveries := t.deliveries ++ [p.dst] })
  else logStrand s (coreSource t.core) 4 cClaim k p.dst.toNat

/-- Writes delivered bytes; a poisoned source byte poisons the word it reaches (R391). -/
def deliverBytes (s : State) (ls : List Loc) (bs : List Byte) (bad : List Bool) : State :=
  poisonLocs (writeLocs (ls.foldl wakeLoc s) ls bs) ((ls.zip bad).filterMap (fun e => if e.2 then some e.1 else none))

/-- Adds source elements into target elements in ascending index (R346 phase 3). -/
def deliverAdd (p : Posting) (ls : List Loc) (bs : List Byte) (bad : List Bool) (s : State) : State :=
  let w := tyWidth p.ty / 8
  (List.range (p.len / w)).foldl (fun s i =>
    match ls[w * i]? with
    | none => s
    | some l =>
      if ((bad.drop (w * i)).take w).any id then spoilHome (wakeLoc s l) l.1 l.2 w
      else addAt s l.1 l.2 p.ty p.mode p.sat (valueOf (tyNum p.ty) (leNat ((bs.drop (w * i)).take w)))) s

/-- One delivery, with the source bytes that phase 1 read. -/
def deliverOne (run : Nat) (s : State) (e : Posting × List Byte × List Bool) : State :=
  let p := e.1
  let t := strandOf s ⟨run, p.target⟩
  let ls := scratchLocs t.core t.granules p.toff p.len
  if p.add then deliverAdd p ls e.2.1 e.2.2 s else deliverBytes s ls e.2.1 e.2.2

/-- Ascending key order (R344). -/
def sortPostings (l : List (Posting × List Byte × List Bool)) : List (Posting × List Byte × List Bool) :=
  sortBy (fun a b => decide (a.1.gls < b.1.gls) || (a.1.gls = b.1.gls && decide (a.1.seq ≤ b.1.seq))) l

/-- Whether a posting's delivery is recorded (R347). -/
def postingSensitive (p : Posting) : Bool := !p.ordered && (!p.add || tyFloat p.ty || p.sat)

/-- Whether the manifest of a launch's context holds its OVERFLOW record. -/
def runOverflowed (s : State) (r : Run) : Bool := (contextOf s r.ctx).elim false (·.overflow)

/-- Phase 4, one delivery at a time: the first in arrival order that no record holds back, and from an OVERFLOW record on in key order
(R383). `fuel` is the number left; the answer names the index of a divergent record (R347, R388). -/
def deliverArrivals (run : Nat) : Nat → State → List (Posting × List Byte × List Bool) → State × Option Nat
  | 0, s, _ => (s, none)
  | fuel + 1, s, l =>
    let r := runOf s run
    let sender (p : Posting) : Strand := strandOf s ⟨run, p.gls⟩
    let g (p : Posting) : Gate :=
      if r.replay.isNone || !postingSensitive p || exhausted s (sender p) rDeliver p.target then .go
      else gate s (sender p) rDeliver p.target (ringLoc p.target) p.seq
    let l := if r.replay.isNone && runOverflowed s r then sortPostings l else l
    match l.find? (fun e => decide (g e.1 = .go)) with
    | none =>
      (s, l.findSome? (fun e => match g e.1 with
        | .diverge j => some j
        | _ => (nextRecord s r rDeliver e.1.target).map (·.index)))
    | some e =>
      let s1 := deliverOne run s e
      let s2 := if postingSensitive e.1 then
        served s1 (sender e.1) rDeliver 0 (coreSource (strandOf s ⟨run, e.1.target⟩).core) e.1.target e.1.seq else s1
      deliverArrivals run fuel s2 (l.erase e)

/-- Some of the granules that stayed behind for postings are released: they are unpowered, and the queues served (R190, R221, R350). -/
def freePostHolds (s : State) (p : PostHold → Bool) : State :=
  let gone := s.postHolds.filter p
  let s1 : State := { s with postHolds := s.postHolds.filter (fun h => !p h) }
  let s2 := gone.foldl (fun s h => powerDown s h.core (granuleOf (h.granules.map (·.2)))) s1
  (gone.map (fun h => clusterOfCore h.core)).eraseDups.foldl serveClaims s2

/-- The granules that stayed behind for the postings of a launch are released (R350). -/
def dropPostHolds (s : State) (run : Nat) : State := freePostHolds s (fun h => h.run = run)

/-- The landing of one strand (R342 steps 5 and 6). -/
def landStrand (s : State) (t : Strand) : State :=
  if t.arrived && t.life = .blocked then
    finishBlocked s t.key (fun s =>
      setStrand (acquire s t.core) t.key (fun t => { t with arrived := false, putSeq := 0, ordSeq := 0 }))
  else s

/-- The lowest strand of a launch that has not ended. -/
def lowestStrand (s : State) (run : Nat) : Option StrandKey :=
  ((runStrands s run).filter (fun t => t.life ≠ .ended && t.life ≠ .retained)).foldl (fun acc t =>
    match acc with
    | none => some t.key
    | some k => if t.key.gls < k.gls then some t.key else some k) none

/-- Whether a record of the launch is still to be served at a crossing, where all of its strands have arrived: the OVERFLOW record then
came in this crossing or later (R347, R388, assumption 95). -/
def recordLeft (s : State) (r : Run) : Bool := (recordsLeft s r).any (fun d => d.launch = r.launchid)

/-- Phases 1 to 6 of the crossing (R346). -/
def crossRun (s : State) (run : Nat) : State :=
  let r := runOf s run
  let read (p : Posting) : Posting × List Byte × List Bool :=
    let ls := postingLocs s run p
    (p, ls.map (fun l => peek s l.1 l.2), ls.map (fun l => poisoned s l.1 l.2 1))
  let good := (r.postings.filter (deliverable s run)).map read
  let s1 := (r.postings.filter (fun p => !deliverable s run p)).foldl (deliveryFault run)
    ((r.postings.filter (deliverable s run)).foldl (fun s p => (postingLocs s run p).foldl wakeLoc s) s)
  let spent := if r.replay.isNone then runOverflowed s r else spilled s r && !recordLeft s r
  let byKey (p : Posting) : Bool := p.ordered || spent
  let keyed := sortPostings (good.filter (fun e => byKey e.1))
  let loose := good.filter (fun e => !byKey e.1)
  let s2 := keyed.foldl (deliverOne run) s1
  let (s3, bad) := deliverArrivals run loose.length s2 (if r.replay.isSome then sortPostings loose else loose)
  let s4 := setRun s3 run (fun r => { r with postings := [] })
  match bad, lowestStrand s4 run with
  | some j, some k => diverges s4 k j
  | _, _ =>
    let s5 := (sortPosts (runOf s4 run).adds).foldl (applyPost run) s4
    let s6 := setRun s5 run (fun r => { r with adds := [] })
    dropPostHolds ((runStrands s6 run).foldl landStrand s6) run

/-- CROSSING (R346): when every strand of a stepping launch has arrived or ended and one waits for the landing. -/
def execCrossing (run : Nat) (s : State) : Host.Outcome State Fault Refusal :=
  .next (if (runOf s run).steps && allArrived s run && (runStrands s run).any (·.arrived) then crossRun s run else s)

/-! ### The deadlock probe (R351, R352) -/

/-- The strands reachable along edges from a list. -/
def reach (s : State) (run : Nat) : Nat → List Nat → List Nat
  | 0, z => z
  | fuel + 1, z =>
    let next := (z.flatMap (fun g => match findStrand s ⟨run, g⟩ with
      | some t => edges s t
      | none => [])).filter (fun g => !z.contains g)
    match next.eraseDups with
    | [] => z
    | l => reach s run fuel (z ++ l)

/-- The verdict for a set of strands (R351). -/
def deadlocked (s : State) (run : Nat) (z : List Nat) : Bool :=
  z.all (fun g => match findStrand s ⟨run, g⟩ with
    | some t => waitsOnMessages s t && !(edges s t).isEmpty && (edges s t).all (fun e => z.contains e)
    | none => false)

def minOf (l : List Nat) : Nat := l.foldl min (l.headD 0)

/-- The counts of blocked cycles restart. -/
def restartWait (s : State) (k : StrandKey) : State := setStrand s k (fun t => { t with waitSince := now s t.core })

/-- tval of DEADLOCK (R352): the receiver of a SEND, else the lowest strand waited on. -/
def deadlockTval (s : State) (t : Strand) : Word :=
  match t.wait with
  | some (_, .send _ g _ _) => BitVec.ofNat 64 g
  | _ => BitVec.ofNat 64 (minOf (edges s t))

/-- The probe of a strand. -/
def probe (s : State) (t : Strand) : State :=
  let run := t.key.run
  let r := runOf s run
  let z := reach s run (r.ncrew * r.nstrand) [t.key.gls]
  if deadlocked s run z then
    let victim := strandOf s ⟨run, minOf z⟩
    takeTrap (z.foldl (fun s g => restartWait s ⟨run, g⟩) s) victim.key { cause := cDeadlock, tval := deadlockTval s victim }
  else restartWait s t.key

/-- DEADLOCK_PROBE (R351): a strand that has waited on messages for 4,096 cycles. -/
def execDeadlockProbe (k : StrandKey) (s : State) : Host.Outcome State Fault Refusal :=
  .next (match findStrand s k with
    | none => s
    | some t => if waitsOnMessages s t && t.waitSince + 4096 ≤ now s t.core then probe s t else s)

end Sys2Proof.Machine
end

