-- ==== Sys2Proof/Machine/Coded.lean ====
section
/-! DEFINITION. Coded tile streams: the decoder and the encoder (spec/12 R267, R272 to R276). -/

namespace Sys2Proof.Machine

/-- The symbol count S of a format (R229). -/
def symCount (fmt : Nat) : Nat := 2 ^ mxBits fmt

/-- A block: scale code and 32 element codes. -/
structure Blk where
  x : Nat
  codes : List Nat
  deriving DecidableEq, Repr

/-- The block held as a little-endian number in the interleaved layout (R25). -/
def blkOf (fmt v : Nat) : Blk := { x := mxScale fmt v, codes := lanes (mxBits fmt) 32 v }

/-- The interleaved bytes of a block (R25). -/
def blkBytes (fmt : Nat) (b : Blk) : List Byte :=
  leBytes (mxBytes fmt) (ofLanes (mxBits fmt) b.codes + b.x * 2 ^ (32 * mxBits fmt))

/-- A list cut into pieces of n; `fuel` is the number of pieces. -/
def chunks {α : Type} (n : Nat) : Nat → List α → List (List α)
  | 0, _ => []
  | fuel + 1, l => l.take n :: chunks n fuel (l.drop n)

/-- The symbol that a slot falls in: symbol, its frequency, slot − cum (R273). In a table whose frequencies sum to less than 4,096, which
only a VERIFY can name, a slot above them all falls in a symbol S of frequency 0 (assumption 91). -/
def findSym : List Nat → Nat → Nat → Nat × Nat × Nat
  | [], _, s => (s, 0, 0)
  | f :: t, slot, s => if slot < f then (s, f, slot) else findSym t (slot - f) (s + 1)

/-- The decode loop of R273. The states are kept in a rotation, next one first; `k` counts words pulled. A pull past the
end answers the count. -/
def decodeRun (freq : List Nat) : Nat → List Nat → List Nat → Nat → List Nat → Except Nat (List Nat × List Nat × Nat × List Nat)
  | 0, xs, ws, k, acc => .ok (xs, ws, k, acc.reverse)
  | _ + 1, [], _, k, _ => .error k
  | fuel + 1, x :: xs, ws, k, acc =>
    let (s, f, d) := findSym freq (x % 4096) 0
    let y := f * (x / 4096) + d
    if 2 ^ 16 ≤ y then decodeRun freq fuel (xs ++ [y]) ws k (s :: acc)
    else
      match ws with
      | [] => .error k
      | w :: r => decodeRun freq fuel (xs ++ [y * 2 ^ 16 + w]) r (k + 1) (s :: acc)

/-- DecodeSegment of R273: the 4,096 symbols in row-major order, or the offset within the stream at which it is
malformed. `base` is where the segment starts. -/
def decodeSegment (freq : List Nat) (base : Nat) (seg : List Byte) : Except Nat (List Nat) :=
  let states := (chunks 4 32 seg).map leNat
  match states.findIdx? (fun x => decide (x < 2 ^ 16)) with
  | some m => .error (base + 4 * m)
  | none =>
    match decodeRun freq 4096 states ((chunks 2 ((seg.length - 128) / 2) (seg.drop 128)).map leNat) 0 [] with
    | .error k => .error (base + 128 + 2 * k)
    | .ok (xs, ws, k, syms) =>
      if !ws.isEmpty then .error (base + 128 + 2 * k)
      else
        match xs.findIdx? (fun x => decide (x ≠ 2 ^ 16)) with
        | some m => .error (base + 4 * m)
        | none => .ok syms

/-- Segments in ascending order. -/
def decodeSegments (freq : List Nat) : List Nat → Nat → List Byte → Except Nat (List (List Nat))
  | [], _, _ => .ok []
  | n :: ns, base, bs =>
    match decodeSegment freq base (bs.take n) with
    | .error o => .error o
    | .ok syms =>
      match decodeSegments freq ns (base + n) (bs.drop n) with
      | .error o => .error o
      | .ok r => .ok (syms :: r)

/-- The blocks of a tile, column by column, four in each, from its scale bytes and the symbols of its segments. -/
def tileBlocks (scales : List Byte) (segs : List (List Nat)) : List (List Blk) :=
  let rows := segs.map (chunks 128 32)
  tabulate 128 (fun j =>
    tabulate 4 (fun g =>
      { x := ((scales[4 * j + g]?).getD 0).toNat, codes := (rows.getD g []).map (fun r => r.getD j 0) }))

/-- Cases 3 and 4 of R276 on a stream, and its blocks. -/
def decodeStream (freq : List Nat) (bs : List Byte) : Except Nat (List (List Blk)) :=
  let lens := (chunks 2 4 bs).map leNat
  match lens.findIdx? (fun l => decide (l < 128) || decide (l % 2 = 1)) with
  | some g => .error (2 * g)
  | none =>
    if 520 + lens.foldl (· + ·) 0 ≠ bs.length then .error 0
    else
      match decodeSegments freq lens 520 (bs.drop 520) with
      | .error o => .error o
      | .ok segs => .ok (tileBlocks ((bs.drop 8).take 512) segs)

/-- The stream that an index entry names: its shard offset and length, or none by case 2 of R276. `limit` is the largest
valid offset from the stream base. -/
def entrySpan (entry limit : Nat) : Option (Nat × Nat) :=
  let off := fld entry 31 0 * 16
  let len := fld entry 47 32
  if fld entry 63 48 ≠ 0 || len < 1032 || limit + 1 < off + len then none else some (off, len)

/-! ### The encoder (R274) -/

/-- The cumulative count below symbol s. -/
def cumOf (freq : List Nat) (s : Nat) : Nat := (freq.take s).foldl (· + ·) 0

/-- The inverse of the decode loop, over the symbols in reverse order; the states stand in reverse rotation and the words
come out in the order of their pulls. None for a symbol of frequency 0. -/
def encodeRun (freq : List Nat) : List Nat → List Nat → List Nat → Option (List Nat × List Nat)
  | [], xs, ws => some (xs, ws)
  | _ :: _, [], _ => none
  | s :: ss, y :: ys, ws =>
    let f := freq.getD s 0
    if f = 0 then none
    else
      let out := decide (f * 2 ^ 20 ≤ y)
      let z := if out then y / 2 ^ 16 else y
      encodeRun freq ss (ys ++ [z / f * 4096 + z % f + cumOf freq s]) (if out then y % 2 ^ 16 :: ws else ws)

/-- A segment's bytes from its symbols in row-major order. -/
def encodeSegment (freq : List Nat) (syms : List Nat) : Option (List Byte) :=
  (encodeRun freq syms.reverse (List.replicate 32 (2 ^ 16)) []).map (fun r =>
    r.1.reverse.flatMap (leBytes 4) ++ r.2.flatMap (leBytes 2))

def encodeSegments (freq : List Nat) : List (List Nat) → Option (List (List Byte))
  | [] => some []
  | s :: ss =>
    match encodeSegment freq s with
    | none => none
    | some b => (encodeSegments freq ss).map (fun r => b :: r)

/-- The stream of a tile: none when a symbol has frequency 0 or the stream is too long (R272, R234). -/
def encodeTile (freq : List Nat) (tile : List (List Blk)) : Option (List Byte) :=
  let syms (g : Nat) : List Nat :=
    (List.range 32).flatMap (fun k => tile.map (fun col => ((col[g]?).elim [] (·.codes)).getD k 0))
  match encodeSegments freq (tabulate 4 syms) with
  | none => none
  | some segs =>
    let scales : List Byte := tile.flatMap (fun col => col.map (fun b => BitVec.ofNat 8 b.x))
    let bs := segs.flatMap (fun s => leBytes 2 s.length) ++ scales ++ segs.flatMap id
    if bs.length ≤ 65535 then some bs else none

end Sys2Proof.Machine
end

