-- ==== Sys2Proof/Machine/Matrix.lean ====
section
/-! DEFINITION. The matrix unit: its queues and arbiter, the commands, tile steps, drains and decoder tables (spec/11 R237
to R261, spec/12 R265 to R271). -/

namespace Sys2Proof.Machine

/-! ### Slots -/

/-- A value for each of n keys from k on. -/
def dense {α : Type} (d : α) : Nat → Nat → Tab α → List α
  | 0, _, _ => []
  | n + 1, k, [] => d :: dense d n (k + 1) []
  | n + 1, k, (j, v) :: t => if j = k then v :: dense d n (k + 1) t else d :: dense d n (k + 1) ((j, v) :: t)

/-- The table of a list of values from key k on. -/
def sparse {α : Type} [DecidableEq α] (d : α) : Nat → List α → Tab α
  | _, [] => []
  | k, v :: t => if v = d then sparse d (k + 1) t else (k, v) :: sparse d (k + 1) t

/-- The cluster's slot that a strand's crew names m, if it is granted (R103). -/
def crewSlot (s : State) (t : Strand) (m : Nat) : Option Nat := (crewOf s t.key).mslots[m]?

def slotOf (s : State) (cl p : Nat) : SlotSt := tget {} (clusterOf s cl).slots p
def setSlot (s : State) (cl p : Nat) (f : SlotSt → SlotSt) : State :=
  setCluster s cl (fun c => { c with slots := tins c.slots p (f (tget {} c.slots p)) })

/-- The NaN flag of an element; every element of a poisoned slot has it (R259). -/
def slotNan (sl : SlotSt) (e : Nat) : Bool := sl.poisoned || tget false sl.n e

/-- The exact value of an element (R28, R53). -/
def slotValue (sl : SlotSt) (e : Nat) : Exact := if slotNan sl e then .nan else exInt (tget 0 sl.w e) sl.anchor

/-- The slot check of R249 and R251 for a command that needs mastership: the cluster's slot. -/
def slotCheck (s : State) (t : Strand) (i : Instr) (m : Nat) : Except Trap Nat :=
  match crewSlot s t m with
  | none => .error { cause := cClaim, tval := BitVec.ofNat 64 m }
  | some p =>
    if (slotOf s (clusterOfStrand t) p).master = some t.key then .ok p else .error (parcelTrap cEngine s i)

/-! ### Queues and the arbiter (R239 to R241) -/

/-- Commands of a core's queue. -/
def queueOf (s : State) (core : Nat) : List MatrixCmd := tget [] (clusterOf s (clusterOfCore core)).mq core

def setQueue (s : State) (core : Nat) (f : List MatrixCmd → List MatrixCmd) : State :=
  setCluster s (clusterOfCore core) (fun c => { c with mq := tmod [] c.mq core f })

/-- Whether a core's queue has room. -/
def queueRoom (s : State) (core : Nat) : Bool := (queueOf s core).length < 8

/-- Whether the cluster's refresh window is open (R265). -/
def windowOpen (s : State) (cl : Nat) : Bool := refreshPhase s cl < 512

/-- Whether a queue's head can start its next unit (R239, R266). -/
def headReady (s : State) (core : Nat) : Bool :=
  match queueOf s core with
  | [] => false
  | c :: _ =>
    match c.op with
    | .mma op => op.tab.isNone || !windowOpen s (clusterOfCore core)
    | _ => true

/-- W(c) of a core (R240). -/
def weightOf (s : State) (core : Nat) : Nat := max 1 (coreOf s core).mxwt.toNat

/-- The queue whose head runs the next unit, with the arbiter's next state (R240). -/
def arbiter (s : State) (cl : Nat) : Option (Nat × Nat × Nat) :=
  let c := clusterOf s cl
  let base := cl * Config.cores
  let p := c.arbPtr
  let own := headReady s (base + p)
  if own && 1 ≤ c.arbCredit then some (p, p, c.arbCredit - 1)
  else
    match ((List.range 7).map (fun i => (p + 1 + i) % 8)).find? (fun q => headReady s (base + q)) with
    | some q => some (q, q, weightOf s (base + q) - 1)
    | none => if own then some (p, p, weightOf s (base + p) - 1) else none

/-- The command whose unit runs next. -/
def nextUnit (s : State) (cl : Nat) : Option MatrixCmd :=
  (arbiter s cl).bind (fun a => (queueOf s (cl * Config.cores + a.1)).head?)

/-- The arbiter grants the unit. -/
def arbTake (s : State) (cl : Nat) : State :=
  match arbiter s cl with
  | none => s
  | some (_, p, k) => setCluster s cl (fun c => { c with arbPtr := p, arbCredit := k })

/-- The command at the head of its queue leaves it. -/
def dequeue (s : State) (c : MatrixCmd) : State := setQueue s c.core (fun q => q.filter (fun x => x.id ≠ c.id))

/-- Replaces a command in its queue. -/
def requeue (s : State) (c : MatrixCmd) : State := setQueue s c.core (lmodWhere (fun x => x.id = c.id) (fun _ => c))

/-- A command enters its core's queue; its slot closes, and its number in the state is the one answered. -/
def enqueue (s : State) (t : Strand) (slot : Option Nat) (m : Nat) (op : MatrixOp) : State × Nat :=
  let c : MatrixCmd := { id := s.nextId, key := t.key, order := t.issued, core := t.core, granules := t.granules
                         slot := slot, m := m, op := op }
  let s1 := setQueue { s with nextId := s.nextId + 1 } t.core (fun q => q ++ [c])
  let s2 := match slot with
    | some p => setSlot s1 (clusterOfStrand t) p (fun x => { x with opened := false })
    | none => s1
  (setStrand s2 t.key (fun t => { t with issued := t.issued + 1 }), s.nextId)

/-! ### Faults of the unit (R258, R259) -/

/-- An event record of the matrix unit, with the identities of a strand. -/
def unitEvent (s : State) (cl kind cause : Nat) (k : StrandKey) (addr : Nat) : State :=
  logStrand s (unitSource cl 8) kind cause k addr

/-- A slot is poisoned (R259). -/
def poisonSlot (s : State) (cl p : Nat) : State := setSlot s cl p (fun x => { x with poisoned := true, bad := false })

/-- An error of the unit is recorded. MACHINE counts toward a hard fault (R392). -/
def unitError (s : State) (cl cause : Nat) (k : StrandKey) (addr : Nat) : State :=
  let s1 := unitEvent s cl (if cause = cDecode then 5 else 3) cause k addr
  if cause = cMachine then
    setCluster s1 cl (fun d => { d with machine := (dieOf s (dieOfCluster cl)).cycles :: d.machine })
  else s1

/-- An execution error: the command stops, its slot is poisoned, the fault is pending and recorded (R259). -/
def matrixFault (s : State) (cl : Nat) (c : MatrixCmd) (cause : Nat) (tval : Word) (addr : Nat) : State :=
  let s1 := dequeue s c
  let s2 := match c.slot with
    | some p => poisonSlot s1 cl p
    | none => s1
  let s3 := addFault s2 c.key { order := c.order, cause := BitVec.ofNat 8 cause, fetch := false, tval := tval
                                slot := c.slot.map (fun _ => c.m), barrier := none, src := unitSource cl 8, addr := addr }
  unitError s3 cl cause c.key addr

/-- The pending matrix faults that a completion point covers: every one, or those of one slot (R259). -/
def covers (slot : Option Nat) (f : PendFault) : Bool :=
  f.barrier.isNone && (match slot with
    | none => true
    | some m => f.slot = some m)

/-! ### Tile steps (R243 to R245, R252) -/

/-- The fixed power of two of a format (R49). -/
def mxF (fmt : Nat) : Int :=
  match fmt with
  | 0 => -9
  | 1 => -16
  | 2 => -4
  | 3 => -3
  | 4 => -1
  | _ => -6

/-- The integer q of a code; none for a NaN or an infinity (R49, R51). -/
def mxQ (fmt code : Nat) : Option Int :=
  match valueOf (mxNum fmt) code with
  | .fin neg mag e _ => some (alignTo (mxF fmt) neg mag e)
  | _ => none

/-- A block as the array sees it: its scale code and integers, or none when it makes the element NaN (R51). -/
def blkQ (fmt : Nat) (b : Blk) : Option (Nat × List Int) :=
  if b.x = 255 then none else (b.codes.mapM (mxQ fmt)).map (fun q => (b.x, q))

/-- W, the NaN flag and the overflow flag while products enter an element. -/
abbrev Elem := Int × Bool × Bool

/-- One block product (R50, R51). -/
def blockProduct (anchor f : Int) (a b : Option (Nat × List Int)) (e : Elem) : Elem :=
  match a, b with
  | some (xa, qa), some (xb, qb) =>
    let s := (qa.zip qb).foldl (fun acc q => acc + q.1 * q.2) 0
    let x : Int := (xa : Int) - 127 + ((xb : Int) - 127) + f
    let c : Int := if anchor ≤ x then s * (2 ^ (x - anchor).toNat : Nat) else s / ((2 ^ (anchor - x).toNat : Nat) : Int)
    let w := e.1 + c
    let hi : Int := (2 ^ 95 : Nat) - 1
    let lo : Int := -(2 ^ 95 : Nat)
    if hi < w then (hi, e.2.1, true) else if w < lo then (lo, e.2.1, true) else (w, e.2.1, e.2.2)
  | _, _ => (e.1, true, e.2.2)

/-- Bytes of the strand's scratch at an sg1 offset, or the offset of the first poisoned one. Without the FENCEX of R246 too a tile step reads
the new bytes of every earlier store or copy that has come to its bank (assumption 115). -/
def readScratch (s : State) (core : Nat) (gs : List Nat) (off n : Nat) : Except Nat (List Byte) :=
  let ls := scratchLocs core gs off n
  match ls.findIdx? (fun l => poisoned s l.1 l.2 1) with
  | some i => .error (off + i)
  | none => .ok (ls.map (fun l => peek s l.1 l.2))

/-- Blocks of one format at an sg1 offset. -/
def readBlocks (s : State) (c : MatrixCmd) (fmt off n : Nat) : Except Nat (List Blk) :=
  match readScratch s c.core c.granules off (n * mxBytes fmt) with
  | .error o => .error o
  | .ok bs => .ok ((chunks (mxBytes fmt) n bs).map (fun b => blkOf fmt (leNat b)))

/-- What a step's operand reading finds. -/
inductive StepFail where
  | poison (tval : Word)
  | malformed (entry offset : Nat)

/-- Rows of A: the blocks of the step, row by row; `row` gives each slot row its A row, none for an unused one. -/
def readRows (s : State) (c : MatrixCmd) (op : MmaOp) (nq : Nat) : List Nat → Except StepFail (List (Option (List Blk)))
  | [] => .ok []
  | r :: rs =>
    let rest (b : Option (List Blk)) : Except StepFail (List (Option (List Blk))) :=
      match readRows s c op nq rs with
      | .error e => .error e
      | .ok l => .ok (b :: l)
    if r = 0xFFFF then rest none
    else
      match readBlocks s c op.fa (op.a + r * op.stride + 4 * op.step * mxBytes op.fa) nq with
      | .error o => .error (.poison (BitVec.ofNat 64 (2 ^ 60 + o)))
      | .ok b => rest (some b)

/-- The shard that a strand's decoder reads: the replica in its cluster. -/
def ownShard (s : State) (cl : Nat) (k : StrandKey) : Option Shard := (replicas s k).find? (fun h => h.cluster = cl)

/-- Bytes of a shard, or the shard offset of the first poisoned one. -/
def readShard (s : State) (h : Shard) (off n : Nat) : Except Nat (List Byte) :=
  let a := h.cluster * Config.wbufBytes + h.base + off
  match (List.range n).find? (fun i => poisoned s .wbuf (a + i) 1) with
  | some i => .error (off + i)
  | none => .ok (peekN s .wbuf a n)

/-- The pointer of a shard byte (R258). -/
def shardPtr (off : Nat) : Word := BitVec.ofNat 64 (2 ^ 61 + off)

/-- The B blocks of a step from the weight buffer (R245, R276). -/
def decodeB (s : State) (cl : Nat) (c : MatrixCmd) (op : MmaOp) (tab : Nat) : Except StepFail (List (List Blk)) :=
  let entry := op.b + 8 * op.step
  let t := tget {} (clusterOf s cl).tables tab
  if t.state ≠ 1 || t.fmt ≠ op.fb then .error (.malformed entry 0)
  else
    match ownShard s cl c.key with
    | none => .error (.malformed entry 0)
    | some h =>
      match readShard s h entry 8 with
      | .error o => .error (.poison (shardPtr o))
      | .ok e =>
        match entrySpan (leNat e) (dLimit (tget 0 (strandOf s c.key).segs 2)) with
        | none => .error (.malformed entry 0)
        | some (off, len) =>
          match readShard s h off len with
          | .error o => .error (.poison (shardPtr o))
          | .ok bs =>
            match decodeStream t.freq bs with
            | .error o => .error (.malformed entry o)
            | .ok b => .ok b

/-- The B blocks of a step, column by column (R244). -/
def readB (s : State) (cl : Nat) (c : MatrixCmd) (op : MmaOp) (nq : Nat) : Except StepFail (List (List Blk)) :=
  match op.tab with
  | some tab => decodeB s cl c op tab
  | none =>
    match readBlocks s c op.fb (op.b + op.step * 512 * mxBytes op.fb) (128 * nq) with
    | .error o => .error (.poison (BitVec.ofNat 64 (2 ^ 60 + o)))
    | .ok bs => .ok (chunks nq 128 bs)

/-- One row of the slot after a step. -/
def rowProducts (anchor f : Int) (row : List (Option (Nat × List Int))) (cols : List (List (Option (Nat × List Int))))
    (es : List Elem) : List Elem :=
  (cols.zip es).map (fun p => (row.zip p.1).foldl (fun e ab => blockProduct anchor f ab.1 ab.2 e) p.2)

/-- The slot after a step's products (R252). -/
def slotProducts (sl : SlotSt) (op : MmaOp) (rows : List (Option (List Blk))) (cols : List (List Blk)) : SlotSt :=
  let f := mxF op.fa + mxF op.fb
  let bq := cols.map (fun c => c.map (blkQ op.fb))
  let es : List (List Elem) := chunks 128 128 ((dense 0 16384 0 sl.w).zip ((dense false 16384 0 sl.n).map (fun n => (n, false))))
  let out := ((rows.zip es).map (fun p => match p.1 with
    | none => p.2
    | some a => rowProducts sl.anchor f (a.map (blkQ op.fa)) bq p.2)).flatMap id
  { sl with w := sparse 0 0 (out.map (·.1)), n := sparse false 0 (out.map (·.2.1))
            ovf := sl.ovf || out.any (·.2.2), steps := sl.steps + 1 }

/-- Tile steps of a command. -/
def stepCount (op : MmaOp) : Nat := (op.k + 127) / 128

/-- A tile step commits: the command moves on, or completes. -/
def stepCommit (s : State) (cl : Nat) (c : MatrixCmd) (op : MmaOp) (p : Nat) (sl : SlotSt) : State :=
  let s1 := setSlot s cl p (fun _ => sl)
  if op.step + 1 < stepCount op then requeue s1 { c with op := .mma { op with step := op.step + 1 } } else dequeue s1 c

/-- A tile step's reading wakes the granules that hold its operands (R190). -/
def wakeOperands (s : State) (c : MatrixCmd) (op : MmaOp) : State :=
  let nq := min 4 (op.k / 32 - 4 * op.step)
  let s1 := ((op.rows.getD (List.range 128)).filter (fun r => r ≠ 0xFFFF)).foldl (fun s r =>
    wakeScratch s c.core c.granules (op.a + r * op.stride + 4 * op.step * mxBytes op.fa) (nq * mxBytes op.fa)) s
  if op.tab.isSome then s1
  else wakeScratch s1 c.core c.granules (op.b + op.step * 512 * mxBytes op.fb) (128 * nq * mxBytes op.fb)

/-- A tile step reads its operands, which wakes their granules, and commits its products (R252). `bad` is how often its residue check fails
(R260). Of several bad operand bytes the lowest of the first A row is reported, and an A byte before anything of B (assumption 92). Records
of residue retries and of MACHINE bear ADDR 0 (assumption 111). -/
def stepProducts (s0 : State) (cl : Nat) (c : MatrixCmd) (op : MmaOp) (p bad : Nat) : State :=
  let s := wakeOperands s0 c op
  let sl := slotOf s cl p
  let nq := min 4 (op.k / 32 - 4 * op.step)
  let fail (e : StepFail) : State :=
    match e with
    | .poison v => matrixFault s cl c cAccess v v.toNat
    | .malformed entry off =>
      matrixFault s cl c cDecode (BitVec.ofNat 64 c.m) (entry % 2 ^ 32 + off % 2 ^ 16 * 2 ^ 32 + op.step % 2 ^ 8 * 2 ^ 48)
  match readRows s c op nq (op.rows.getD (List.range 128)) with
  | .error e => fail e
  | .ok rows =>
    match readB s cl c op nq with
    | .error e => fail e
    | .ok cols =>
      if 2 ≤ bad then matrixFault s cl c cMachine 0 0
      else
        let s1 := if bad = 1 then unitEvent s cl 6 0 c.key 0 else s
        stepCommit s1 cl c op p (slotProducts sl op rows cols)

/-- One tile step of the head command. Into a poisoned slot the command completes and reads nothing (R259). -/
def tileStep (s : State) (cl : Nat) (c : MatrixCmd) (op : MmaOp) (p bad : Nat) : State :=
  if (slotOf s cl p).poisoned then dequeue s c
  else if (slotOf s cl p).bad then matrixFault s cl c cMachine 0 0
  else stepProducts s cl c op p bad

/-- MATRIX_TILE_STEP (R252): the arbiter's choice, when it is a tile step. -/
def execMatrixTileStep (cl bad : Nat) (s : State) : Host.Outcome State Fault Refusal :=
  runEvent (clusterOk cl) (match nextUnit s cl with
    | some c => match c.op, c.slot with
      | .mma op, some p => tileStep (arbTake s cl) cl c op p bad
      | _, _ => s
    | none => s)

/-- MZERO_EXEC (R249). -/
def execMzeroExec (cl : Nat) (s : State) : Host.Outcome State Fault Refusal :=
  runEvent (clusterOk cl) (match nextUnit s cl with
    | some c => match c.op, c.slot with
      | .mzero a, some p =>
        dequeue (setSlot (arbTake s cl) cl p (fun x =>
          { x with w := [], n := [], anchor := a, ovf := false, poisoned := false, steps := 0, bad := false })) c
      | _, _ => s
    | none => s)

/-! ### Drains (R253 to R256) -/

/-- Draw of an element (R43). -/
def drainDraw (seed : Word) (op : DrainOp) (r j : Nat) : Nat :=
  if op.mode = 5 then drawOf seed op.tensor (op.row0 + r) (op.col0 + j) op.step else 0

/-- The bytes of slot row r in the target, and the conditions raised (R255). -/
def drainRow (seed : Word) (sl : SlotSt) (op : DrainOp) (r : Nat) : List Byte × Nat :=
  let v (j : Nat) : Exact := slotValue sl (128 * r + j)
  match op.kind with
  | 0 =>
    let es := tabulate 128 (fun j => convertTo (tyNum op.ty) op.mode (drainDraw seed op r j) op.sat false (v j))
    (es.flatMap (fun e => leBytes (tyWidth op.ty / 8) e.1), allFlags es)
  | 1 =>
    let bs := tabulate 4 (fun g =>
      mxPack op.ty2 op.mode op.sat (fun i => drainDraw seed op r (32 * g + i)) (fun _ => true) (tabulate 32 (fun i => v (32 * g + i))))
    (bs.flatMap (fun b => leBytes (mxBytes op.ty2) b.1), allFlags bs)
  | _ =>
    ((List.range 128).flatMap (fun j =>
      let e := 128 * r + j
      leBytes 16 (if slotNan sl e then 2 ^ 127 else ulow 128 (tget 0 sl.w e))), 0)

/-- The rows are written in ascending order, and the conditions collected; OF when the slot's overflow flag is set. -/
def drainWrite (s : State) (seed : Word) (sl : SlotSt) (core : Nat) (gs : List Nat) (op : DrainOp) : State × Nat :=
  op.rows.foldl (fun acc e =>
    let (bs, fl) := drainRow seed sl op e.1
    let ls := scratchLocs core gs e.2 bs.length
    (writeLocs (wakeLocs acc.1 ls) ls bs, acc.2 ||| fl)) (s, if sl.ovf then fOF else 0)

/-- A drain's unit runs (R255): with a pending fault on its slot it writes nothing, and its strand then traps (R259). -/
def drainRun (s : State) (cl : Nat) (c : MatrixCmd) (op : DrainOp) (p : Nat) : State :=
  let sl := slotOf s cl p
  if sl.bad then matrixFault s cl c cMachine 0 0
  else if (strandOf s c.key).faults.any (covers (some c.m)) then dequeue s c
  else
    let (s1, fl) := drainWrite s (runOf s c.key.run).seed sl c.core c.granules op
    let s2 := setStrand s1 c.key (fun t => orFlags t fl)
    dequeue (setSlot s2 cl p (fun x => { x with opened := true })) c

/-- DRAIN_CONVERT (R255). -/
def execDrainConvert (cl : Nat) (s : State) : Host.Outcome State Fault Refusal :=
  runEvent (clusterOk cl) (match nextUnit s cl with
    | some c => match c.op, c.slot with
      | .drain op, some p => drainRun (arbTake s cl) cl c op p
      | _, _ => s
    | none => s)

/-! ### Decoder tables (R267 to R270) -/

/-- MTLD's unit (R269). -/
def loadTable (s : State) (cl : Nat) (c : MatrixCmd) (tab fmt ptr : Nat) : State :=
  let n := symCount fmt
  let ls := scratchLocs c.core c.granules ptr (2 * n)
  let bad := ls.map (fun l => poisoned s l.1 l.2 1)
  let bs := ls.map (fun l => peek s l.1 l.2)
  let freq := tabulate n (fun i =>
    if bad.getD (2 * i) false || bad.getD (2 * i + 1) false then Config.poisonedFreq (256 * s.steps + i) % 2 ^ 16
    else leNat ((bs.drop (2 * i)).take 2))
  let ok := !bad.any id && freq.foldl (· + ·) 0 = 4096
  let s1 := setCluster s cl (fun d =>
    { d with tables := tins d.tables tab { state := if ok then 1 else 2, fmt := fmt, freq := freq } })
  match bad.findIdx? id with
  | some i => matrixFault s1 cl c cAccess (BitVec.ofNat 64 (2 ^ 60 + ptr + i)) (2 ^ 60 + ptr + i)
  | none => dequeue s1 c

/-- MTLD_EXEC (R269). -/
def execMtldExec (cl : Nat) (s : State) : Host.Outcome State Fault Refusal :=
  runEvent (clusterOk cl) (match nextUnit s cl with
    | some c => match c.op with
      | .mtld tab fmt ptr => loadTable (wakeScratch (arbTake s cl) c.core c.granules ptr (2 * symCount fmt)) cl c tab fmt ptr
      | _ => s
    | none => s)

/-- The 528 bytes of a table (R270). -/
def tableBytes (t : DecTable) : List Byte :=
  leBytes 1 t.state ++ leBytes 1 t.fmt ++ leBytes 14 0 ++ (tabulate 256 (fun i => t.freq.getD i 0)).flatMap (leBytes 2)

/-- MTSV_EXEC (R270). -/
def execMtsvExec (cl : Nat) (s : State) : Host.Outcome State Fault Refusal :=
  runEvent (clusterOk cl) (match nextUnit s cl with
    | some c => match c.op with
      | .mtsv tab ptr =>
        let s1 := arbTake s cl
        let ls := scratchLocs c.core c.granules ptr 528
        dequeue (writeLocs (wakeLocs s1 ls) ls (tableBytes (tget {} (clusterOf s cl).tables tab))) c
      | _ => s
    | none => s)

/-! ### The refresh window (R265, R266) -/

/-- WB_REFRESH_OPEN: the window is open when the die's cycle count says so. -/
def execWbRefreshOpen (cl : Nat) (s : State) : Host.Outcome State Fault Refusal :=
  runEvent (clusterOk cl) (if refreshPhase s cl < 512 then setCluster s cl (fun c => { c with refresh := true }) else s)

/-- WB_REFRESH_CLOSE. -/
def execWbRefreshClose (cl : Nat) (s : State) : Host.Outcome State Fault Refusal :=
  runEvent (clusterOk cl) (if refreshPhase s cl < 512 then s else setCluster s cl (fun c => { c with refresh := false }))

/-! ### Issue -/

/-- A matrix command of a strand: an inactive guard ends it; with its core's queue full it is not issued (R239, R247). -/
def matrixIssue (s : State) (t : Strand) (f : X96) (queued : Bool) (r : Res) : Res :=
  if !activeScalar t f then .ok s .seq
  else if queued && !queueRoom s t.core then .ok s .stay
  else r

/-- A span in a SCRATCH segment, as an engine reads or writes it: its sg1 offset (R110). -/
def scratchSpan (t : Strand) (ea : Word) (n : Nat) (acc : Access) : Except Trap Nat :=
  match segCheck t ea n acc true false with
  | .error e => .error e
  | .ok (.scratch off) => .ok off
  | .ok _ => .error { cause := cSegment, tval := ea }

/-- MZERO (R249). -/
def execMzero (f : X96) (s : State) : Host.Outcome State Fault Refusal :=
  let i := Instr.mzero f
  runStrand i s (fun t => matrixIssue s t f true (
    let m := f.vd.toNat
    match crewSlot s t m with
    | none => .trap s { cause := cClaim, tval := BitVec.ofNat 64 m }
    | some p =>
      let sl := slotOf s (clusterOfStrand t) p
      let a := (gx t f.rs.toNat).toInt
      if sl.master ≠ none && sl.master ≠ some t.key && !sl.opened then .trap s (parcelTrap cEngine s i)
      else if a < -512 || 511 < a then .trap s (parcelTrap cEngine s i)
      else
        let s1 := (enqueue s t (some p) m (.mzero a)).1
        .ok (setSlot s1 (clusterOfStrand t) p (fun x => { x with master := some t.key })) .seq))

/-- The shape register of R250: K, NR, ASTRIDE; none when it breaks a rule. -/
def mmaShape (f : X96) (gather : Bool) (v : Nat) : Option (Nat × Nat × Nat) :=
  let k := fld v 12 0
  let nr := fld v 31 16
  let st := fld v 49 32
  let bsrc := bit f.aux.toNat 0
  let packed := k / 32 * mxBytes f.ty.toNat
  if fld v 15 13 ≠ 0 || fld v 63 50 ≠ 0 then none
  else if k < 32 || 4096 < k || k % (if bsrc then 128 else 32) ≠ 0 then none
  else if gather != decide (nr ≠ 0) then none
  else if st ≠ 0 && st < packed then none
  else some (k, nr, if st = 0 then packed else st)

/-- An index list of 128 n16 entries, read at issue as the strand's own loads (R246, R251). -/
def readList (s : State) (t : Strand) (ptr : Word) : Except Trap (List Nat × State) :=
  if ptr.toNat % 16 ≠ 0 then .error { cause := cMisaligned, tval := ptr }
  else if dKind (segOf t ptr) ≠ kScratch then .error { cause := cSegment, tval := ptr }
  else
    match loadAs s t ptr 256 with
    | .error e => .error e
    | .ok (bs, s1) => .ok ((chunks 2 128 bs).map leNat, s1)

/-- The B operand's span (R251 step 4): its offset. -/
def mmaB (t : Strand) (f : X96) (k : Nat) : Except Trap Nat :=
  let ea := gx t f.vs2.toNat
  if bit f.aux.toNat 0 then
    if ea.toNat % 8 ≠ 0 then .error { cause := cMisaligned, tval := ea }
    else
      match (if dKind (segOf t ea) = kWeight then segCheck t ea (8 * k / 128) .eread true true
             else .error { cause := cSegment, tval := ea }) with
      | .error e => .error e
      | .ok (.weight off) => .ok off
      | .ok _ => .error { cause := cSegment, tval := ea }
  else scratchSpan t ea (4 * k * mxBytes f.ty2.toNat) .eread

/-- The list of an MMAG, or none for an MMA (R251 step 5). -/
def mmaRows (s : State) (t : Strand) (i : Instr) (f : X96) (gather : Bool) (nr : Nat) : Except Trap (Option (List Nat) × State) :=
  if !gather then .ok (none, s)
  else
    match readList s t (gx t f.rs.toNat) with
    | .error e => .error e
    | .ok (l, s1) =>
      if l.any (fun r => r ≠ 0xFFFF && decide (nr ≤ r)) then .error (parcelTrap cEngine s i) else .ok (some l, s1)

/-- MMA and MMAG (R251). -/
def mmaIssue (s : State) (t : Strand) (i : Instr) (f : X96) (gather : Bool) : Res :=
  match slotCheck s t i f.vd.toNat with
  | .error e => .trap s e
  | .ok p =>
    match mmaShape f gather (gx t f.vs3.toNat).toNat with
    | none => .trap s (parcelTrap cEngine s i)
    | some (k, nr, stride) =>
      let rows := if gather then nr else 128
      match scratchSpan t (gx t f.vs1.toNat) ((rows - 1) * stride + k / 32 * mxBytes f.ty.toNat) .eread with
      | .error e => .trap s e
      | .ok a =>
        match mmaB t f k with
        | .error e => .trap s e
        | .ok b =>
          match mmaRows s t i f gather nr with
          | .error e => .trap s e
          | .ok (l, s1) =>
            let op : MmaOp := { fa := f.ty.toNat, fb := f.ty2.toNat, k := k, stride := stride, a := a, b := b, rows := l
                                tab := if bit f.aux.toNat 0 then some (fld f.aux.toNat 2 1) else none, step := 0 }
            .ok (enqueue s1 t (some p) f.vd.toNat (.mma op)).1 .seq

/-- MMA (R251). -/
def execMma (f : X96) (s : State) : Host.Outcome State Fault Refusal :=
  runStrand (.mma f) s (fun t => matrixIssue s t f true (mmaIssue s t (.mma f) f false))

/-- MMAG (R251). -/
def execMmag (f : X96) (s : State) : Host.Outcome State Fault Refusal :=
  runStrand (.mmag f) s (fun t => matrixIssue s t f true (mmaIssue s t (.mmag f) f true))

/-- Packed row size U and destination unit E of a drain (R253). -/
def drainUnits (f : X96) : Nat × Nat :=
  match f.aux.toNat with
  | 0 => (16 * tyWidth f.ty.toNat, tyWidth f.ty.toNat / 8)
  | 1 => (4 * mxBytes f.ty2.toNat, 1)
  | _ => (2048, 16)

/-- The control register (R253): STRIDE, ROW0 and the number of rows; none when it breaks a rule (R254). -/
def drainCtl (f : X96) (v : Nat) : Option (Nat × Nat × Nat) :=
  let st := fld v 17 0
  let row0 := fld v 38 32
  let n := fld v 46 40 + 1
  let (u, e) := drainUnits f
  if fld v 31 18 ≠ 0 || bit v 39 || fld v 63 47 ≠ 0 || 128 < row0 + n then none
  else if st ≠ 0 && (st < u || st % e ≠ 0) then none
  else some (if st = 0 then u else st, row0, n)

/-- The rows a drain writes, each with its sg1 offset, checked as accesses of U bytes (R254 step 5). -/
def drainRows (t : Strand) (d : Word) (stride u : Nat) : List (Nat × Nat) → Except Trap (List (Nat × Nat))
  | [] => .ok []
  | (r, n) :: rest =>
    match scratchSpan t (d + BitVec.ofNat 64 (n * stride)) u .ewrite with
    | .error e => .error e
    | .ok off =>
      match drainRows t d stride u rest with
      | .error e => .error e
      | .ok l => .ok ((r, off) :: l)

/-- The destination row number of each slot row written: n for MDRAIN and MPEEK, the list's entry for MDRAINS. -/
def drainNumbers (s : State) (t : Strand) (f : X96) (row0 n : Nat) (listed : Bool) : Except Trap (List (Nat × Nat) × State) :=
  if !listed then .ok ((List.range n).map (fun j => (row0 + j, j)), s)
  else
    match readList s t (gx t f.vs3.toNat) with
    | .error e => .error e
    | .ok (l, s1) =>
      .ok (((List.range n).map (fun j => (row0 + j, l.getD (row0 + j) 0xFFFF))).filter (fun e => e.2 ≠ 0xFFFF), s1)

/-- The checks of R254, and the conversion they lead to. -/
def drainOp (s : State) (t : Strand) (i : Instr) (f : X96) (mode : Nat) (listed : Bool) : Except Trap (Nat × DrainOp × State) :=
  match slotCheck s t i f.vd.toNat with
  | .error e => .error e
  | .ok p =>
    match drainCtl f (gx t f.vs2.toNat).toNat with
    | none => .error (parcelTrap cEngine s i)
    | some (stride, row0, n) =>
      let d := gx t f.vs1.toNat
      let (u, e) := drainUnits f
      if d.toNat % e ≠ 0 then .error { cause := cMisaligned, tval := d }
      else if dKind (segOf t d) ≠ kScratch then .error { cause := cSegment, tval := d }
      else
        match drainNumbers s t f row0 n listed with
        | .error e => .error e
        | .ok (nums, s1) =>
          match drainRows t d stride u nums with
          | .error e => .error e
          | .ok rows =>
            let o := (gx t f.rs.toNat).toNat
            .ok (p, { kind := f.aux.toNat, ty := f.ty.toNat, ty2 := f.ty2.toNat, mode := mode, sat := f.sat, row0 := o / 2 ^ 32
                      col0 := o % 2 ^ 32, tensor := t.srtensor.toNat % 2 ^ 32, step := t.srstep.toNat % 2 ^ 32, rows := rows }, s1)

/-- MDRAIN and MDRAINS (R254, R256): the mode first (R421); the command enters the queue and the strand waits. -/
def drainIssue (s : State) (t : Strand) (i : Instr) (f : X96) (listed : Bool) : Res :=
  matrixIssue s t f true (
    match resolveMode t f.rm.toNat with
    | none => .trap s (illegal s i)
    | some mode =>
      match drainOp s t i f mode listed with
      | .error e => .trap s e
      | .ok (p, op, s1) =>
        let (s2, id) := enqueue s1 t (some p) f.vd.toNat (.drain op)
        .wait s2 (.drain id (some f.vd.toNat)))

/-- MDRAIN (R256). -/
def execMdrain (f : X96) (s : State) : Host.Outcome State Fault Refusal :=
  runStrand (.mdrain f) s (fun t => drainIssue s t (.mdrain f) f false)

/-- MDRAINS (R256). -/
def execMdrains (f : X96) (s : State) : Host.Outcome State Fault Refusal :=
  runStrand (.mdrains f) s (fun t => drainIssue s t (.mdrains f) f true)

/-- MPEEK (R254, R256): it waits for the snapshot. -/
def execMpeek (f : X96) (s : State) : Host.Outcome State Fault Refusal :=
  runStrand (.mpeek f) s (fun t =>
    if !activeScalar t f then .ok s .seq
    else
      match resolveMode t f.rm.toNat with
      | none => .trap s (illegal s (.mpeek f))
      | some mode =>
        match drainOp s t (.mpeek f) f mode false with
        | .error e => .trap s e
        | .ok (_, op, s1) => .wait s1 (.peek f.vd.toNat (f.vs3.truncate 5) op))

/-- Whether the slot's latest MZERO has executed: none is queued (R256). -/
def zeroDone (s : State) (core p : Nat) : Bool :=
  !(queueOf s core).any (fun c => c.slot = some p && (match c.op with
    | .mzero _ => true
    | _ => false))

/-- A slot as MPEEK's snapshot finds it: of storage that holds an uncorrectable error its elements are free values, and the error waits
for the next unit (R258, R260, assumption 41). -/
def peekedSlot (s : State) (sl : SlotSt) : SlotSt :=
  if !sl.bad then sl
  else
    let es := tabulate 16384 (fun e => Config.damagedElement s.steps e)
    { sl with w := sparse 0 0 (es.map (·.1.toInt)), n := sparse false 0 (es.map (·.2)) }

/-- The snapshot and the end of an MPEEK (R256), which meets no execution error (R258). -/
def waitPeek (s : State) (t : Strand) (m : Nat) (rd : BitVec 5) (op : DrainOp) : Res :=
  match crewSlot s t m with
  | none => .wait s (.peek m rd op)
  | some p =>
    if !zeroDone s t.core p then .wait s (.peek m rd op)
    else
      match reportFault s t (covers (some m)) with
      | some (tr, s1) => .trap s1 tr
      | none =>
        let cl := clusterOfStrand t
        let sl := peekedSlot s (slotOf s cl p)
        let (s1, fl) := drainWrite s (runOf s t.key.run).seed sl t.core t.granules op
        .ok (setStrand s1 t.key (fun t => sx (orFlags t fl) rd.toNat (BitVec.ofNat 64 sl.steps))) .seq

/-- The end of MDRAIN, MDRAINS and MTSV: once the command has run, a pending fault of its slot, else completion. -/
def waitDrain (s : State) (t : Strand) (id : Nat) (slot : Option Nat) : Res :=
  if (matrixOf s t).any (fun c => c.id = id) then .wait s (.drain id slot)
  else
    match slot with
    | none => .ok s .seq
    | some m =>
      match reportFault s t (covers (some m)) with
      | some (tr, s1) => .trap s1 tr
      | none => .ok s .seq

/-- Whether a matrix command is one that MWAIT awaits. -/
def awaits (slot : Option Nat) (c : MatrixCmd) : Bool :=
  match slot with
  | none => true
  | some m => c.slot.isSome && c.m = m

/-- The end of MWAIT (R257). -/
def waitMatrix (s : State) (t : Strand) (slot : Option Nat) : Res :=
  if (matrixOf s t).any (awaits slot) then .wait s (.mwait slot)
  else
    match reportFault s t (covers slot) with
    | some (tr, s1) => .trap s1 tr
    | none => .ok s .seq

/-- MWAIT (R257). -/
def execMwait (f : X96) (s : State) : Host.Outcome State Fault Refusal :=
  let i := Instr.mwait f
  runStrand i s (fun t =>
    if !activeScalar t f then .ok s .seq
    else if bit f.aux.toNat 0 then
      match slotCheck s t i f.vd.toNat with
      | .error e => .trap s e
      | .ok _ => waitMatrix s t (some f.vd.toNat)
    else waitMatrix s t none)

/-- MTLD (R269). -/
def execMtld (f : X96) (s : State) : Host.Outcome State Fault Refusal :=
  runStrand (.mtld f) s (fun t => matrixIssue s t f true (
    let p := gx t f.vs1.toNat
    if p.toNat % 2 ≠ 0 then .trap s { cause := cMisaligned, tval := p }
    else if dKind (segOf t p) ≠ kScratch then .trap s { cause := cSegment, tval := p }
    else
      match scratchSpan t p (2 * symCount f.ty2.toNat) .eread with
      | .error e => .trap s e
      | .ok off => .ok (enqueue s t none 0 (.mtld (fld f.aux.toNat 2 1) f.ty2.toNat off)).1 .seq))

/-- MTSV (R270): it waits for every earlier command of its queue. -/
def execMtsv (f : X96) (s : State) : Host.Outcome State Fault Refusal :=
  runStrand (.mtsv f) s (fun t => matrixIssue s t f true (
    let d := gx t f.vs1.toNat
    if d.toNat % 16 ≠ 0 then .trap s { cause := cMisaligned, tval := d }
    else if dKind (segOf t d) ≠ kScratch then .trap s { cause := cSegment, tval := d }
    else
      match scratchSpan t d 528 .ewrite with
      | .error e => .trap s e
      | .ok off =>
        let (s1, id) := enqueue s t none 0 (.mtsv (fld f.aux.toNat 2 1) off)
        .wait s1 (.drain id none)))

end Sys2Proof.Machine
end

