-- ==== Sys2Proof/Machine/Xform.lean ====
section
/-! DEFINITION. The transform coprocessor (spec/10 R227 to R236). -/

namespace Sys2Proof.Machine

/-! ### Request blocks (R229, R230) -/

/-- A request block. -/
structure XBlock where
  op : Nat
  fmt : Nat
  flags : Nat
  zero : Nat
  bar : Word
  src : Word
  dst : Word
  tab : Word
  idx : Word
  p0 : Nat
  p1 : Nat
  deriving DecidableEq, Repr

/-- The fields of a block held as a little-endian number. -/
def xBlockOf (v : Nat) : XBlock :=
  { op := fld v 7 0, fmt := fld v 15 8, flags := fld v 23 16, zero := fld v 31 24, bar := BitVec.ofNat 64 (v >>> 64)
    src := BitVec.ofNat 64 (v >>> 128), dst := BitVec.ofNat 64 (v >>> 192), tab := BitVec.ofNat 64 (v >>> 256)
    idx := BitVec.ofNat 64 (v >>> 320), p0 := fld v 447 384, p1 := fld v 511 448 }

/-- Tile bytes of a format. -/
def tileBytes (fmt : Nat) : Nat := 512 * mxBytes fmt

/-- Parameters. -/
def xT (b : XBlock) : Nat := fld b.p0 15 0
def xCap (b : XBlock) : Nat := fld b.p0 63 32
def xR (b : XBlock) : Nat := fld b.p0 15 0
def xK (b : XBlock) : Nat := fld b.p0 31 16
def xN (b : XBlock) : Nat := fld b.p0 31 0
def xFirst (b : XBlock) : Nat := fld b.p0 47 16
/-- Element bytes of a TRANSPOSE, and its row strides. -/
def xW (b : XBlock) : Nat := 2 ^ (b.fmt % 4)
def xSrcStride (b : XBlock) : Nat := fld b.p1 31 0
def xDstStride (b : XBlock) : Nat := fld b.p1 63 32

/-- Whether the fields of a block are legal for its operation (R229, R230, cases of BADREQ in R231). A VERIFY of no tiles is BADREQ as an
ENCODE of none is (assumption 89). -/
def xFieldsOk (b : XBlock) : Bool :=
  b.zero = 0 &&
  (match b.op with
   | 1 => decide (b.fmt < 5) && b.flags = 0 && decide (1 ≤ xT b) && fld b.p0 31 16 = 0 && xCap b % 16 = 0 && fld b.p1 63 32 = 0
   | 2 => decide (b.fmt < 5) && b.flags = 0 && b.tab = 0 && b.idx = 0 && b.p0 = 0 && b.p1 = 0
   | 3 => decide (b.fmt < 4) && b.flags = 0 && b.tab = 0 && b.idx = 0 && decide (1 ≤ xR b) && decide (1 ≤ xK b) && fld b.p0 63 32 = 0 &&
          decide (xK b * xW b ≤ xSrcStride b) && decide (xR b * xW b ≤ xDstStride b)
   | 4 => decide (b.fmt < 6) && decide (b.flags < 2) && b.tab = 0 && b.idx = 0 && fld b.p0 63 32 = 0 && b.p1 = 0
   | 5 => decide (b.fmt < 5) && b.flags = 0 && decide (1 ≤ xT b) && fld b.p0 63 48 = 0 && b.p1 = 0
   | _ => false)

/-- Source spans of an operation: pointer and bytes. The streams of a VERIFY are named by its index table, so only the
stream base is checked here. -/
def xSources (b : XBlock) : List (Word × Nat) :=
  match b.op with
  | 1 => [(b.src, xT b * tileBytes b.fmt), (b.tab, 2 * symCount b.fmt)]
  | 2 => [(b.src, 4 * symCount b.fmt)]
  | 3 => [(b.src, (xR b - 1) * xSrcStride b + xK b * xW b)]
  | 4 => [(b.src, xN b * mxBytes b.fmt)]
  | _ => [(b.idx + BitVec.ofNat 64 (8 * xFirst b), 8 * xT b), (b.src, 1), (b.tab, 2 * symCount b.fmt)]

/-- Destination spans of an operation. -/
def xDests (b : XBlock) : List (Word × Nat) :=
  match b.op with
  | 1 => [(b.dst, xCap b), (b.idx, 8 * xT b)]
  | 2 => [(b.dst, 2 * symCount b.fmt)]
  | 3 => [(b.dst, (xK b - 1) * xDstStride b + xR b * xW b)]
  | 4 => [(b.dst, xN b * mxBytes b.fmt)]
  | _ => [(b.dst, tileBytes b.fmt * xT b)]

/-- The byte count D (R230). -/
def xTotal (b : XBlock) : Nat :=
  match b.op with
  | 1 => xCap b + 8 * xT b
  | 2 => 2 * symCount b.fmt
  | 3 => xR b * xK b * xW b
  | 4 => xN b * mxBytes b.fmt
  | _ => tileBytes b.fmt * xT b

/-- A span resolved by the segment checks (R110): where it starts, and its bytes. -/
def xResolve (t : Strand) (acc : Access) (e : Word × Nat) : Option (Target × Nat) :=
  match segCheck t e.1 e.2 acc false false with
  | .error _ => none
  | .ok tg => some (tg, e.2)

/-- Whether two resolved spans share a byte. -/
def xMeet (a b : Target × Nat) : Bool :=
  match a.1, b.1 with
  | .scratch x, .scratch y => meets x a.2 y b.2
  | .virt x _, .virt y _ => meets x a.2 y b.2
  | _, _ => false

/-- Whether every span resolves and no destination meets a source, the barrier or the block (R230). -/
def xSpansOk (t : Strand) (ptr : Word) (b : XBlock) : Bool :=
  match (xSources b).mapM (xResolve t .load), (xDests b).mapM (xResolve t .store) with
  | some ss, some ds =>
    let bar : List (Target × Nat) := if b.bar = 0 then [] else [(.scratch (offOf b.bar), 16)]
    let fixed := ss ++ bar ++ [(.scratch (offOf ptr), 64)]
    !ds.any (fun d => fixed.any (xMeet d)) &&
    (b.op ≠ 5 || ds.all (fun d => match d.1 with
      | .scratch _ => true
      | _ => false))
  | _, _ => false

/-- The sg1 pointer of the block that a pointer into a SCRATCH segment names: every such segment shows the same scratchpad (R109). -/
def blockPtr (ptr : Word) : Word := BitVec.ofNat 64 (2 ^ 60 + offOf ptr)

/-- Whether a request is accepted as far as its block goes (R231 case 1). -/
def xAccepts (s : State) (t : Strand) (ptr : Word) (b : XBlock) : Bool :=
  xFieldsOk b && (b.bar = 0 || (barrierCheck t b.bar).isNone) && xSpansOk t ptr b &&
  !(xformsOf s t).any (fun q => q.ptr = blockPtr ptr)

/-- BUSY (R231 case 2). -/
def xBusy (s : State) (t : Strand) : Bool :=
  let cl := clusterOfStrand t
  decide ((crewOf s t.key).xq ≤ occupied s cl t.key.run (crewNo t.key)) && (freePools s cl).getD 17 0 = 0

/-- Writes a block's STATE (R232). -/
def setBlockState (s : State) (t : Strand) (ptr : Word) (v : Nat) : State :=
  let ls := scratchLocs t.core t.granules (offOf ptr + 4) 4
  writeLocs (wakeLocs s ls) ls (leBytes 4 v)

/-- XREQ (R228, R231). -/
def execXreq (f : X96) (s : State) : Host.Outcome State Fault Refusal :=
  runStrand (.xreq f) s (fun t =>
    let ptr := gx t f.rs.toNat
    if !activeScalar t f then .ok s .seq
    else if ptr.toNat % 64 ≠ 0 then .trap s { cause := cMisaligned, tval := ptr }
    else if dKind (segOf t ptr) ≠ kScratch then .trap s { cause := cSegment, tval := ptr }
    else
      match loadAs s t ptr 64 with
      | .error e => .trap s e
      | .ok (bs, s1) =>
        let answer (s : State) (v : Nat) : Res := .ok (setStrand s t.key (fun t => sx t f.vd.toNat (ptr ||| BitVec.ofNat 64 v))) .seq
        if !xAccepts s t ptr (xBlockOf (leNat bs)) then answer s1 2
        else if xBusy s t then answer s1 1
        else
          let q : XformReq := { key := t.key, ptr := blockPtr ptr, block := bs, state := 1 }
          let s2 := setCluster s1 (clusterOfStrand t) (fun c => { c with xq := c.xq ++ [q] })
          let s3 := setStrand s2 t.key (fun t => { t with xerrors := t.xerrors.filter (fun e => decide (e.1 ≠ blockPtr ptr)) })
          answer (setBlockState s3 t ptr 1) 0)

/-- The STATE that XPOLL and XWAIT see: the queue's while the request is outstanding, else the block's (R235). -/
def xState (s : State) (t : Strand) (ptr : Word) : Nat :=
  match (xformsOf s t).find? (fun q => q.ptr = blockPtr ptr) with
  | some q => q.state
  | none => leNat ((scratchLocs t.core t.granules (offOf ptr + 4) 4).map (fun l => peek s l.1 l.2))

/-- The pointer of XPOLL and XWAIT: bits [5:0] cleared (R228). -/
def xPointer (t : Strand) (f : X96) : Word := gx t f.rs.toNat &&& ~~~0x3F#64

/-- The block that XPOLL and XWAIT read: 64 bytes of a SCRATCH segment (R228). -/
def xBlockRead (s : State) (t : Strand) (ptr : Word) : Except Trap State :=
  if dKind (segOf t ptr) ≠ kScratch then .error { cause := cSegment, tval := ptr }
  else
    match loadAs s t ptr 64 with
    | .error e => .error e
    | .ok (_, s1) => .ok s1

/-- XPOLL (R235). -/
def execXpoll (f : X96) (s : State) : Host.Outcome State Fault Refusal :=
  runStrand (.xpoll f) s (fun t =>
    if !activeScalar t f then .ok s .seq
    else
      match xBlockRead s t (xPointer t f) with
      | .error e => .trap s e
      | .ok s1 => .ok (setStrand s1 t.key (fun u => sx u f.vd.toNat (BitVec.ofNat 64 (xState s t (xPointer t f))))) .seq)

/-- The trap of an XWAIT on a block in ERROR. -/
def xError (t : Strand) (ptr : Word) : Trap :=
  match t.xerrors.find? (fun e => e.1 = blockPtr ptr) with
  | some e => { cause := e.2.1.toNat, tval := e.2.2 }
  | none => { cause := if Config.forgedPage (blockPtr ptr) then cPage else cAccess, tval := Config.forgedAddr (blockPtr ptr) }

/-- XWAIT's test and completion (R235). Each test reads the block (R190, R205). -/
def waitXform (s : State) (t : Strand) (rd : BitVec 5) (ptr : Word) : Res :=
  match xBlockRead s t ptr with
  | .error e => .trap s e
  | .ok s1 =>
    let st := xState s t ptr
    if st = 1 || st = 2 then .wait s1 (.xwait rd ptr)
    else if st = 5 then .trap s1 (xError t ptr)
    else .ok (setStrand (if st = 0 then s1 else acquire s1 t.core) t.key (fun u => sx u rd.toNat (BitVec.ofNat 64 st))) .seq

/-- XWAIT (R235). -/
def execXwait (f : X96) (s : State) : Host.Outcome State Fault Refusal :=
  runStrand (.xwait f) s (fun t =>
    if !activeScalar t f then .ok s .seq
    else waitXform s t (f.vd.truncate 5) (xPointer t f))

/-! ### The operations (R230, R233, R234) -/

/-- How an operation stops before its end. -/
inductive XFail where
  /-- a data fault: the source address logged, and for ENCODE and VERIFY the index entry's offset, the tile and the stream offset -/
  | data (addr : Word) (tile : Option (Nat × Nat × Nat))
  | error (t : Trap)

/-- What a piece of an operation leaves: the state, and the bytes it wrote with the place of ENCODE's next stream, or its failure. -/
abbrev XRes := State × Except XFail (Nat × Nat)

/-- Engine reading of n bytes: a failed translation or a poisoned byte is an error, and so are bytes in a granule that is not granted,
with cause CLAIM (assumption 90). -/
def xRead (s : State) (t : Strand) (ea : Word) (n : Nat) : Except Trap (List Byte × State) :=
  match locateEng s t ea n .eread with
  | .error e => .error e
  | .ok (ls, s1) =>
    match ls.findIdx? (fun l => poisoned s1 l.1 l.2 1) with
    | some i => .error { cause := cAccess, tval := ea + BitVec.ofNat 64 i }
    | none => .ok (ls.map (fun l => peek s1 l.1 l.2), wakeLocs s1 ls)

/-- Engine writing. -/
def xWrite (s : State) (t : Strand) (ea : Word) (bs : List Byte) : Except Trap State :=
  match locateEng s t ea bs.length .ewrite with
  | .error e => .error e
  | .ok (ls, s1) => .ok (writeLocs (wakeLocs s1 ls) ls bs)

/-- Reads, then goes on. -/
def xThen (s : State) (t : Strand) (ea : Word) (n : Nat) (f : List Byte → State → XRes) : XRes :=
  match xRead s t ea n with
  | .error e => (s, .error (.error e))
  | .ok (bs, s1) => f bs s1

/-- Writes, then goes on. -/
def xPut (s : State) (t : Strand) (ea : Word) (bs : List Byte) (f : State → XRes) : XRes :=
  match xWrite s t ea bs with
  | .error e => (s, .error (.error e))
  | .ok s1 => f s1

/-- n16 values. -/
def n16s (n : Nat) (bs : List Byte) : List Nat := (chunks 2 n bs).map leNat

/-- Blocks of a tile, column by column. -/
def tileOf (fmt : Nat) (bs : List Byte) : List (List Blk) :=
  chunks 4 128 ((chunks (mxBytes fmt) 512 bs).map (fun b => blkOf fmt (leNat b)))

/-- A stream's bytes rounded up to 16. -/
def pad16 (n : Nat) : Nat := (n + 15) / 16 * 16

/-- ENCODE's tile i, its stream at byte `pos` of DST, which counts the 16-byte boundaries (assumption 110). Nothing of it is written before
the whole of it is coded (R234). -/
def xEncode (t : Strand) (b : XBlock) (freq : List Nat) (i pos : Nat) (s : State) : XRes :=
  let ea := b.src + BitVec.ofNat 64 (i * tileBytes b.fmt)
  let fault (s : State) : XRes := (s, .error (.data ea (some (8 * i, i, 0))))
  if freq.foldl (· + ·) 0 ≠ 4096 then fault s
  else
    xThen s t ea (tileBytes b.fmt) (fun bs s1 =>
      match encodeTile freq (tileOf b.fmt bs) with
      | none => fault s1
      | some out =>
        if xCap b < pos + out.length then fault s1
        else
          xPut s1 t (b.dst + BitVec.ofNat 64 pos) out (fun s2 =>
            xPut s2 t (b.idx + BitVec.ofNat 64 (8 * i)) (leBytes 4 (pos / 16 + fld b.p1 31 0) ++ leBytes 2 out.length ++ leBytes 2 0)
              (fun s3 => (s3, .ok (out.length + 8, pad16 (pos + out.length))))))

/-- Present symbols by descending count, then ascending symbol (R233). -/
def freqOrder (counts : List Nat) : List Nat :=
  (sortBy (fun (x y : Nat × Nat) => decide (y.2 < x.2) || (x.2 = y.2 && decide (x.1 ≤ y.1)))
    ((counts.zipIdx.map (fun e => (e.2, e.1))).filter (fun e => decide (0 < e.2)))).map (·.1)

/-- One pass of a normalising loop of R233 over the symbols in order, while r units remain. -/
def freqPass (down : Bool) : List Nat → List Nat → Nat → List Nat × Nat
  | [], f, r => (f, r)
  | _ :: _, f, 0 => (f, 0)
  | x :: xs, f, r + 1 =>
    if down then
      if 1 < f.getD x 0 then freqPass down xs (f.set x (f.getD x 0 - 1)) r else freqPass down xs f (r + 1)
    else freqPass down xs (f.set x (f.getD x 0 + 1)) r

/-- Passes until nothing remains; each pass moves a unit. -/
def freqLoop (down : Bool) (order : List Nat) : Nat → List Nat → Nat → List Nat
  | 0, f, _ => f
  | fuel + 1, f, r =>
    if r = 0 then f
    else
      let (g, q) := freqPass down order f r
      freqLoop down order fuel g q

/-- The frequencies of R233; none when no symbol is present. -/
def buildFreq (counts : List Nat) : Option (List Nat) :=
  let total := counts.foldl (· + ·) 0
  if total = 0 then none
  else
    let f := counts.map (fun c => if c = 0 then 0 else max 1 (c * 4096 / total))
    let sum := f.foldl (· + ·) 0
    let down := decide (4096 < sum)
    let r := if down then sum - 4096 else 4096 - sum
    some (freqLoop down (freqOrder counts) (r + 1) f r)

/-- The rows of a TRANSPOSE's source. -/
def xRows (t : Strand) (b : XBlock) : Nat → Nat → State → Except Trap (List (List Byte) × State)
  | 0, _, s => .ok ([], s)
  | fuel + 1, i, s =>
    match xRead s t (b.src + BitVec.ofNat 64 (i * xSrcStride b)) (xK b * xW b) with
    | .error e => .error e
    | .ok (bs, s1) =>
      match xRows t b fuel (i + 1) s1 with
      | .error e => .error e
      | .ok (r, s2) => .ok (bs :: r, s2)

/-- The columns of some rows of a TRANSPOSE become parts of the rows of its destination, from byte `off` of each on. -/
def xCols (t : Strand) (b : XBlock) (off : Nat) (rows : List (List Byte)) : Nat → Nat → State → XRes
  | 0, _, s => (s, .ok (rows.length * xK b * xW b, 0))
  | fuel + 1, k, s =>
    xPut s t (b.dst + BitVec.ofNat 64 (k * xDstStride b + off)) (rows.flatMap (fun r => (r.drop (k * xW b)).take (xW b)))
      (xCols t b off rows fuel (k + 1))

/-- TRANSPOSE's source rows from the 128 i-th on, at most 128 (R236). -/
def xTranspose (t : Strand) (b : XBlock) (i : Nat) (s : State) : XRes :=
  match xRows t b (min 128 (xR b - 128 * i)) (128 * i) s with
  | .error e => (s, .error (.error e))
  | .ok (rows, s1) => xCols t b (128 * i * xW b) rows (xK b) 0 s1

/-- REPACK's blocks from the 128 i-th on, at most 128, between the layouts of R25 and R26. -/
def xRepack (t : Strand) (b : XBlock) (i : Nat) (s : State) : XRes :=
  let e := 4 * mxBits b.fmt
  let m := min 128 (xN b - 128 * i)
  let part (p : Word) (o : Nat) : Word := p + BitVec.ofNat 64 o
  let whole := m * (e + 1)
  if b.flags = 0 then
    xThen s t (part b.src (128 * i * (e + 1))) whole (fun bs s1 =>
      let cs := chunks (e + 1) m bs
      xPut s1 t (part b.dst (128 * i * e)) (cs.flatMap (fun c => c.take e)) (fun s2 =>
        xPut s2 t (part b.dst (xN b * e + 128 * i)) (cs.flatMap (fun c => c.drop e)) (fun s3 => (s3, .ok (whole, 0)))))
  else
    xThen s t (part b.src (128 * i * e)) (m * e) (fun bs s1 =>
      xThen s1 t (part b.src (xN b * e + 128 * i)) m (fun xs s2 =>
        xPut s2 t (part b.dst (128 * i * (e + 1))) (((chunks e m bs).zip (chunks 1 m xs)).flatMap (fun p => p.1 ++ p.2)) (fun s3 =>
          (s3, .ok (whole, 0)))))

/-- VERIFY's blocks from the 128 q-th on of tile i, 128 of them, where its stream decodes whole. -/
def xVerify (t : Strand) (b : XBlock) (freq : List Nat) (i q : Nat) (s : State) : XRes :=
  let part := 128 * mxBytes b.fmt
  let entry := 8 * (xFirst b + i)
  let dst := b.dst + BitVec.ofNat 64 (i * tileBytes b.fmt)
  let fault (s : State) (ea : Word) (off : Nat) : XRes :=
    match xWrite s t dst (List.replicate (tileBytes b.fmt) 0) with
    | .error e => (s, .error (.error e))
    | .ok s1 => (s1, .error (.data ea (some (entry, i, off))))
  xThen s t (b.idx + BitVec.ofNat 64 entry) 8 (fun e s1 =>
    match entrySpan (leNat e) (dLimit (segOf t b.src) - offOf b.src) with
    | none => fault s1 b.src 0
    | some (off, len) =>
      let ea := b.src + BitVec.ofNat 64 off
      xThen s1 t ea len (fun bs s2 =>
        match decodeStream freq bs with
        | .error o => fault s2 (ea + BitVec.ofNat 64 o) o
        | .ok cols =>
          xPut s2 t (dst + BitVec.ofNat 64 (q * part)) (((cols.drop (32 * q)).take 32).flatMap (fun c => c.flatMap (blkBytes b.fmt)))
            (fun s3 => (s3, .ok (part, 0)))))

/-- The pieces of an operation: runs of 128 source rows or blocks, four of them in a tile, at whose ends a cancel may stop it (R236,
assumption 75). -/
def xPieces (b : XBlock) : Nat :=
  match b.op with
  | 1 => 4 * xT b
  | 2 => 1
  | 3 => (xR b + 127) / 128
  | 4 => (xN b + 127) / 128
  | _ => 4 * xT b

/-- Piece i of an operation (R230, R233, R234). The last quarter of an ENCODE tile writes it. -/
def xPiece (t : Strand) (b : XBlock) (i pos : Nat) (s : State) : XRes :=
  let n := symCount b.fmt
  match b.op with
  | 1 => if i % 4 = 3 then xThen s t b.tab (2 * n) (fun bs s1 => xEncode t b (n16s n bs) (i / 4) pos s1) else (s, .ok (0, pos))
  | 2 => xThen s t b.src (4 * n) (fun bs s1 =>
      match buildFreq ((chunks 4 n bs).map leNat) with
      | none => (s1, .error (.data b.src none))
      | some f => xPut s1 t b.dst (f.flatMap (leBytes 2)) (fun s2 => (s2, .ok (2 * n, 0))))
  | 3 => xTranspose t b i s
  | 4 => xRepack t b i s
  | _ => xThen s t b.tab (2 * n) (fun bs s1 => xVerify t b (n16s n bs) (i / 4) (i % 4) s1)

/-- Changes a request in its queue. -/
def setXform (s : State) (cl : Nat) (q : XformReq) (f : XformReq → XformReq) : State :=
  setCluster s cl (fun c => { c with xq := lmodWhere (fun x => x.key = q.key && x.ptr = q.ptr) f c.xq })

/-- The running request goes on by a piece: the barrier is credited with the bytes written (R232). -/
def xAdvance (s : State) (cl : Nat) (q : XformReq) : State × Except XFail XformReq :=
  match findStrand s q.key with
  | none => (s, .ok q)
  | some t =>
    let b := xBlockOf (leNat q.block)
    match xPiece t b q.piece q.pos s with
    | (s1, .error e) => (s1, .error e)
    | (s1, .ok (n, pos)) =>
      let q1 : XformReq := { q with piece := q.piece + 1, pos := pos, credited := q.credited + n }
      (credit (setXform s1 cl q (fun _ => q1)) q.key t.issued b.bar n 0, .ok q1)

/-- The pieces that remain, `fuel` of them: the state, the request as it then stands, and its failure. -/
def xRest (cl : Nat) : Nat → XformReq → State → State × XformReq × Option XFail
  | 0, q, s => (s, q, none)
  | fuel + 1, q, s =>
    match xAdvance s cl q with
    | (s1, .error e) => (s1, q, some e)
    | (s1, .ok q1) => xRest cl fuel q1 s1

/-- A request leaves the queue in a final state: STATE written, the barrier credited with the rest of D (R232), and its entry, when no
claim covered it, free for the requests that wait (R214, R221). -/
def xFinish (s : State) (cl : Nat) (q : XformReq) (final bits : Nat) : State :=
  let s1 := setCluster s cl (fun c => { c with xq := c.xq.filter (fun x => !(x.key = q.key && x.ptr = q.ptr)) })
  match findStrand s1 q.key with
  | none => serveClaims s1 cl
  | some t =>
    let b := xBlockOf (leNat q.block)
    let s2 := if t.granules.length ≤ (offOf q.ptr) / Config.granule then s1 else setBlockState s1 t q.ptr final
    serveClaims (credit s2 q.key t.issued b.bar (xTotal b - q.credited) bits) cl

/-- The event records of a failed request, from source unit 10: a data fault's address, and the tile where it has one
(assumption 76). -/
def xLog (s : State) (cl : Nat) (k : StrandKey) (f : XFail) : State :=
  let src := unitSource cl 10
  match f with
  | .data a none => logStrand s src 4 0 k a.toNat
  | .data a (some (e, t, o)) =>
    logStrand (logStrand s src 4 0 k a.toNat) src 5 cDecode k (e % 2 ^ 32 + o % 2 ^ 16 * 2 ^ 32 + t % 2 ^ 8 * 2 ^ 48)
  | .error e => noteTrap (logStrand s src (if e.cause = cAccess then 3 else 4) e.cause k e.tval.toNat) e

/-- A failed request ends in DATAFAULT, or in ERROR with its cause and address kept for XWAIT (R232, R235). -/
def xFailed (s : State) (cl : Nat) (q : XformReq) (f : XFail) : State :=
  match f with
  | .data a v => xFinish (xLog s cl q.key (.data a v)) cl q 4 stFault
  | .error e =>
    let s1 := setStrand s q.key (fun t => { t with xerrors := t.xerrors ++ [(q.ptr, BitVec.ofNat 8 e.cause, e.tval)] })
    xFinish (xLog s1 cl q.key (.error e)) cl q 5 stFault

/-- The running request runs to its end. -/
def xComplete (s : State) (cl : Nat) (q : XformReq) : State :=
  match xRest cl (xPieces (xBlockOf (leNat q.block)) - q.piece) q s with
  | (s1, q1, none) => xFinish s1 cl q1 3 0
  | (s1, q1, some f) => xFailed s1 cl q1 f

/-- The running request goes on by one piece. -/
def xOnePiece (s : State) (cl : Nat) : State :=
  match (clusterOf s cl).xq with
  | [] => s
  | q :: _ =>
    if q.state ≠ 2 || xPieces (xBlockOf (leNat q.block)) ≤ q.piece then s
    else
      match xAdvance s cl q with
      | (s1, .ok _) => s1
      | (s1, .error f) => xFailed s1 cl q f

/-- A strand's request is stopped by a cancel or a STKILL: what it has written stays (R236). -/
def xCancel (cl : Nat) (s : State) (q : XformReq) : State := xFinish s cl q 6 stCancelled

/-- XFORM_START (R227): the next accepted request, one at a time. -/
def execXformStart (cl : Nat) (s : State) : Host.Outcome State Fault Refusal :=
  runEvent (clusterOk cl) (match (clusterOf s cl).xq with
    | [] => s
    | q :: _ =>
      if q.state = 1 then
        let s1 := setCluster s cl (fun c => { c with xq := lmod (fun x => { x with state := 2 }) c.xq 0 })
        match findStrand s1 q.key with
        | none => s1
        | some t => setBlockState s1 t q.ptr 2
      else s)

/-- XFORM_COMPLETE (R232). -/
def execXformComplete (cl : Nat) (s : State) : Host.Outcome State Fault Refusal :=
  runEvent (clusterOk cl) (match (clusterOf s cl).xq with
    | [] => s
    | q :: _ => if q.state = 2 then xComplete s cl q else s)

end Sys2Proof.Machine
end

