-- ==== Sys2Proof/Machine/Claim.lean ====
section
/-! DEFINITION. The claim instructions (spec/10 R216 to R224). -/

namespace Sys2Proof.Machine

/-- The amount a request names (R216). -/
def claimAmount (s : State) (n : BitVec 7) (rs1 : BitVec 5) : Nat := n.toNat + (xGet s rs1).toNat

/-- The CLAIM trap of an amount. -/
def amountTrap (a : Nat) : Trap := { cause := cClaim, tval := BitVec.ofNat 64 a }

/-- TRYACQ (R218). -/
def execTryacq (rd : BitVec 5) (cls : BitVec 3) (n : BitVec 7) (rs1 : BitVec 5) (s : State) : Host.Outcome State Fault Refusal :=
  runStrand (.tryacq rd cls n rs1) s (fun t =>
    let a := claimAmount s n rs1
    let v := claimTest s t cls.toNat a
    .ok (xSet (if v = 0 then grantUnits s t.key cls.toNat a else s) rd (BitVec.ofNat 64 v)) .seq)

/-- Whether a request stands before another one in its queue: it came earlier, or in the same cycle from a lower strand (R221). -/
def asksBefore (p q : ClaimReq) : Bool :=
  decide (p.since < q.since) || (p.since = q.since && decide (p.key.gls ≤ q.key.gls))

/-- A request takes its place among those that wait. -/
def insertReq (q : ClaimReq) (l : List ClaimReq) : List ClaimReq :=
  l.takeWhile (fun p => asksBefore p q) ++ q :: l.dropWhile (fun p => asksBefore p q)

/-- A request joins its pool's queue (R219). -/
def joinQueue (s : State) (t : Strand) (cls a : Nat) : State :=
  setCluster s (clusterOfStrand t) (fun c =>
    { c with claimq := insertReq { key := t.key, cls := cls, amount := a, since := now s t.core, recorded := false } c.claimq })

/-- ACQ (R219). -/
def execAcq (rd : BitVec 5) (cls : BitVec 3) (n : BitVec 7) (rs1 : BitVec 5) (s : State) : Host.Outcome State Fault Refusal :=
  runStrand (.acq rd cls n rs1) s (fun t =>
    let a := claimAmount s n rs1
    match claimTest s t cls.toNat a with
    | 0 => .ok (xSet (grantUnits s t.key cls.toNat a) rd 0) .seq
    | 3 => .trap s (amountTrap a)
    | _ => .wait (joinQueue s t cls.toNat a) (.acq rd))

/-- Whether a matrix command uses scratch bytes from offset `off` on. -/
def matrixTouches (c : MatrixCmd) (off : Nat) : Bool :=
  match c.op with
  | .mzero _ => false
  | .mma op =>
    let rows := match op.rows with
      | some l => (l.filter (fun r => r ≠ 0xFFFF)).foldl max 0
      | none => 127
    decide (off < op.a + rows * op.stride + op.k / 32 * mxBytes op.fa) ||
    (op.tab.isNone && decide (off < op.b + 4 * op.k * mxBytes op.fb))
  | .drain op =>
    let u := match op.kind with
      | 0 => 16 * tyWidth op.ty
      | 1 => 4 * mxBytes op.ty2
      | _ => 2048
    op.rows.any (fun r => decide (off < r.2 + u))
  | .mtld _ fmt ptr => decide (off < ptr + 2 * symCount fmt)
  | .mtsv _ ptr => decide (off < ptr + 528)

/-- Whether a transform request uses scratch bytes of its strand from offset `off` on. -/
def xformTouches (t : Strand) (q : XformReq) (off : Nat) : Bool :=
  let b := xBlockOf (leNat q.block)
  ((q.ptr, 64) :: (b.bar, 16) :: (xSources b ++ xDests b)).any (fun e => scratchFrom t off e.1 (e.1.toNat + e.2 - 1)) ||
  (b.op = 5 && dKind (segOf t b.src) = kScratch)

/-- Whether an engine command of the strand still uses scratch from offset `off` on (R111, R223). -/
def scratchBusy (s : State) (t : Strand) (off : Nat) : Bool :=
  (copiesOf s t).any (fun c => copyTouches t c off) || (xformsOf s t).any (fun q => xformTouches t q off) ||
  (matrixOf s t).any (fun c => matrixTouches c off) || (collsOf s t).any (fun c => collTouches t c off)

/-- Whether a strand is blocked on an MPEEK of its crew's slot m or of one above it. -/
def peeksFrom (t : Strand) (m : Nat) : Bool :=
  match t.life, t.wait with
  | .blocked, some (_, .peek n _ _) => decide (m ≤ n)
  | _, _ => false

/-- Whether a command of any strand of the crew into one of the last a slots is queued, or an MPEEK of one waits (R223). -/
def slotsBusy (s : State) (t : Strand) (a : Nat) : Bool :=
  let c := crewOf s t.key
  let gone := c.mslots.drop (c.mslots.length - a)
  (crewStrands s t.key.run (crewNo t.key)).any (fun u => peeksFrom u (c.mslots.length - a)) ||
  (clusterOf s c.cluster).mq.any (fun q => q.2.any (fun m => match m.slot with
    | some p => gone.contains p
    | none => false))

/-- Whether a release has still to wait (R223). -/
def relBusy (s : State) (t : Strand) (cls a : Nat) : Bool :=
  match cls with
  | 0 => false
  | 1 => scratchBusy s t ((t.granules.length - a) * Config.granule)
  | 2 => slotsBusy s t a
  | _ => decide ((crewOf s t.key).xq - a < occupied s (clusterOfStrand t) t.key.run (crewNo t.key))

/-- Whether an undelivered posting of the strand names one of its last a granules (R350). -/
def relPosted (s : State) (t : Strand) (a : Nat) : Bool :=
  (runOf s t.key.run).postings.any (fun p =>
    p.gls = t.key.gls && decide ((t.granules.length - a) * Config.granule < p.src + p.len))

/-- REL from its wait on (R223): the release, and the queues served. What is held is tested at issue alone (assumption 70). -/
def tryRel (s : State) (t : Strand) (rd : BitVec 5) (cls a : Nat) : Res :=
  if relBusy s t cls a then .wait s (.rel rd cls a)
  else
    let s1 := xSet (releaseUnits s t.key cls a) rd 0
    .ok (serveClaims s1 (clusterOfStrand t)) .seq

/-- REL (R223). -/
def execRel (rd : BitVec 5) (cls : BitVec 3) (n : BitVec 7) (rs1 : BitVec 5) (s : State) : Host.Outcome State Fault Refusal :=
  runStrand (.rel rd cls n rs1) s (fun t =>
    let a := claimAmount s n rs1
    if heldBy s t cls.toNat < a then .trap s (amountTrap a)
    else if a = 0 then .ok (xSet s rd 0) .seq
    else if cls = 1 && relPosted s t a then .trap s (parcelTrap cEngine s (.rel rd cls n rs1))
    else tryRel s t rd cls.toNat a)

/-- CLAIMQ (R224). -/
def execClaimq (rd : BitVec 5) (cls : BitVec 3) (s : State) : Host.Outcome State Fault Refusal :=
  runStrand (.claimq rd cls) s (fun t =>
    let c := cls.toNat
    let r := runOf s t.key.run
    .ok (xSet s rd (BitVec.ofNat 64
      (heldBy s t c + claimMax r c * 2 ^ 8 + claimInit r c * 2 ^ 16 + classSize c * 2 ^ 24))) .seq)

/-! ### Long waits (R222) -/

/-- CLAIM_WAIT_STALL: a blocked request has waited 65,536 cycles; it holds for as long as one such request waits. -/
def execClaimWaitStall (cl : Nat) (s : State) : Host.Outcome State Fault Refusal :=
  runEvent (clusterOk cl) (
    let late := (waitingReqs s cl).any (fun q => q.since + 65536 ≤ (dieOf s (dieOfCluster cl)).cycles)
    setCluster s cl (fun c => { c with stalled := late }))

/-- The record of a claim request, once, when it has waited 2^26 cycles (R222). -/
def recordWait (s : State) (k : StrandKey) : State :=
  match findStrand s k with
  | none => s
  | some t =>
    let cl := clusterOfStrand t
    match (clusterOf s cl).claimq.find? (fun q => q.key = k) with
    | none => s
    | some q =>
      if !q.recorded && decide (q.since + 2 ^ 26 ≤ now s t.core) then
        let s1 := setCluster s cl (fun c =>
          { c with claimq := lmodWhere (fun x => decide (x.key = k)) (fun x => { x with recorded := true }) c.claimq })
        logStrand s1 (unitSource cl 11) 11 0 k (q.cls + q.amount % 2 ^ 32 * 2 ^ 32)
      else s

/-- CLAIM_WAIT_RECORD (R222). -/
def execClaimWaitRecord (k : StrandKey) (s : State) : Host.Outcome State Fault Refusal := .next (recordWait s k)

end Sys2Proof.Machine
end

