-- ==== Sys2Proof/Machine/Life.lean ====
section
/-! DEFINITION. The end of strands, crews and holdings: HALT, CANCEL, the dispositions of trapped strands, and what
completes a blocked instruction (spec/04 R113, R114, spec/05 R138 to R141, spec/08 R191 to R196, spec/10 R225, R226). -/

namespace Sys2Proof.Machine

/-! ### What an ending strand leaves -/

/-- A strand's engine commands stop, by a cancel or an STKILL (R236, R261, R294, R411, R412). -/
def stopCommands (s : State) (t : Strand) : State :=
  let cl := clusterOfStrand t
  let s1 := (copiesOf s t).foldl (copyStop cl stCancelled) (dropClaim s t)
  let s2 := (xformsOf s1 t).foldl (xCancel cl) s1
  let s3 := setQueue s2 t.core (fun q => q.filter (fun c => c.key ≠ t.key))
  (collsOf s3 t).foldl (stopColl collFailAll .cancelled) s3

/-- Faults that are still pending when a strand ends become event records (R138, R259, R288, R348). -/
def reportEnded (s : State) (t : Strand) : State :=
  let s1 := t.faults.foldl (fun s f => logStrand s f.src 4 f.cause.toNat t.key f.addr) s
  t.deliveries.foldl (fun s d => logStrand s (coreSource t.core) 4 cClaim t.key d.toNat) s1

/-- The granules of a strand's list that its undelivered postings name, by logical number (R350). -/
def postedIn (s : State) (k : StrandKey) (granules : List Nat) : Tab Nat :=
  ((runOf s k.run).postings.filter (fun p => p.gls = k.gls)).foldl (fun acc p =>
    (List.range ((p.src + p.len - 1) / Config.granule + 1 - p.src / Config.granule)).foldl (fun acc i =>
      let g := p.src / Config.granule + i
      match granules[g]? with
      | some ph => tins acc g ph
      | none => acc) acc) []

def postedGranules (s : State) (t : Strand) : Tab Nat := postedIn s t.key t.granules

/-- Granules stay behind for the undelivered postings of a strand that has left (R350). -/
def keepPosted (s : State) (k : StrandKey) (core : Nat) (stay : Tab Nat) : State :=
  if stay.isEmpty then s
  else { s with postHolds := s.postHolds ++ [{ run := k.run, crew := crewNo k, key := k, core := core, granules := stay }] }

/-- A strand masters no slot that a SAVED crew has surrendered any more. -/
def forgetMaster (s : State) (k : StrandKey) : State :=
  { s with crews := s.crews.map (fun c => { c with savedSlots := c.savedSlots.map (fun e => (if e.1 = some k then none else e.1, e.2)) }) }

/-- The strand's mastership of its slots ends (R103). -/
def endMastership (s : State) (t : Strand) : State :=
  forgetMaster (setCluster s (clusterOfStrand t) (fun c =>
    { c with slots := c.slots.map (fun e => (e.1, if e.2.master = some t.key then { e.2 with master := none } else e.2)) })) t.key

/-- Its slot is empty: no request, no save. -/
def clearSlotBits (s : State) (t : Strand) : State :=
  setCore s t.core (fun c => { c with req := setBit4 c.req (slotBit t) false, savingBits := setBit4 c.savingBits (slotBit t) false })

/-- A strand without claims, slot or pending work. -/
def goneStrand (life : Life) (t : Strand) : Strand :=
  { t with life := life, v := [], vblocks := 0, granules := [], wait := none, rep := none, recapture := false, resv := none
           saving := none, cancelPending := false, preSince := none, arrived := false, faults := [], deliveries := []
           xerrors := [], escalated := false, saveAddr := 0, saveSize := 0 }

/-- The die manager forgets what it holds of a strand that has ended or goes on. -/
def dropEscalated (s : State) (t : Strand) : State :=
  setDie s (dieOfCore t.core) (fun d => { d with escalated := d.escalated.filter (fun p => p.ofHandler || p.key ≠ t.key) })

/-! ### Bind records in a die's slot table (R337, R338) -/

/-- The fields of a bind record. -/
structure BindRec where
  launch : Nat
  crew0 : Nat
  flags : Nat
  ncrew : Nat
  cluster : Nat
  cores : Nat
  percore : Nat
  saveBase : Nat
  saveSize : Nat
  deriving DecidableEq, Repr

def bindRecOf (r : BitVec 256) : BindRec :=
  let v := r.toNat
  { launch := fld v 31 0, crew0 := fld v 55 32, flags := fld v 63 56, ncrew := fld v 87 64, cluster := fld v 95 88
    cores := fld v 103 96, percore := fld v 111 104, saveBase := fld v 191 128, saveSize := fld v 223 192 }

def recGang (b : BindRec) : Bool := bit b.flags 1
def recResume (b : BindRec) : Bool := bit b.flags 2
def recInherit (b : BindRec) : Bool := bit b.flags 3

/-- The launch of a record: the oldest launch of that id that has passed to the die managers and is not complete. -/
def recRun (s : State) (b : BindRec) : Option Nat :=
  (List.range s.runs.length).find? (fun n =>
    let r := runOf s n
    r.launchid = b.launch && (r.stage = .passed || r.stage = .gangWait || r.stage = .bound))

/-- Whether every crew that the record of an entry has bound has ended or been saved: one that another record has bound since was
saved in between (R338). -/
def recLeft (s : State) (die entry : Nat) (b : BindRec) : Bool :=
  match recRun s b with
  | none => true
  | some n => (List.range b.ncrew).all (fun i => match findCrew s n (b.crew0 + i) with
    | none => true
    | some c => !c.live || c.saved || c.boundBy != some (die, entry))

/-- The entries of a launch's records become FREE when `p` says so of their die, their number and them (R338). -/
def freeEntries (s : State) (run : Nat) (p : Nat → Nat → BindEntry → Bool) : State :=
  forUpTo Config.dies s (fun d s => setDie s d (fun x => { x with table := x.table.filter (fun e =>
    !e.2.any (fun b => recRun s (bindRecOf b.record) = some run && p d e.1 b)) }))

/-- DONE entries of a launch whose crews have all ended or been saved become FREE. -/
def freeDone (s : State) (run : Nat) : State :=
  freeEntries s run (fun d n e =>
    let b := bindRecOf e.record
    decide (b.crew0 + b.ncrew ≤ e.next) && recLeft s d n b)

/-! ### Crews (R139, R376) -/

/-- Whether a strand of a crew still runs, waits, is frozen or is saved. -/
def crewActive (s : State) (run crew : Nat) : Bool := (crewStrands s run crew).any (fun t => onCore t || t.life = .saved)

/-- A crew completes when its last strand has left: its slots and transform entries are released, and its launch is told. -/
def crewDone (s : State) (k : StrandKey) : State :=
  let n := crewNo k
  if crewActive s k.run n || !(crewOf s k).live then s
  else
    let c := crewOf s k
    let s1 := setCluster s c.cluster (fun d => { d with slots := c.mslots.foldl tdel d.slots })
    let s2 := setCrew s1 k.run n (fun c => { c with live := false, mslots := [], xq := 0 })
    let s3 := setRun s2 k.run (fun r => { r with crewsDone := r.crewsDone ++ [n] })
    { s3 with due := s3.due ++ [.launchComplete k.run] }

/-- Whether a crossing has become due: every strand has arrived or ended, and one waits. -/
def crossingDue (s : State) (run : Nat) : State :=
  if (runOf s run).steps && allArrived s run && (runStrands s run).any (·.arrived) then { s with due := s.due ++ [.crossing run] }
  else s

/-- The crew's slots and transform entries are surrendered when none of its strands is left on a core and one of them is saved
(R200, R225). -/
def surrenderCrew (s : State) (k : StrandKey) : State :=
  let c := crewOf s k
  let ts := crewStrands s k.run (crewNo k)
  if ts.any onCore || !ts.any (fun t => t.life = .saved) || !c.live || c.saved then s
  else
    let tables := (clusterOf s c.cluster).tables
    let marks := c.mslots.map (fun p => ((slotOf s c.cluster p).master, (slotOf s c.cluster p).opened))
    let s1 := setCluster s c.cluster (fun d => { d with slots := c.mslots.foldl tdel d.slots })
    setCrew s1 k.run (crewNo k) (fun c => { c with mslots := [], xq := 0, saved := true, savedTables := tables, savedSlots := marks })

/-- A strand has left its slot: its crew may be complete or surrendered, its launch may cross, and blocked requests may be granted. -/
def leftSlot (s : State) (t : Strand) : State :=
  crossingDue (serveClaims (freeDone (surrenderCrew (crewDone s t.key) t.key) t.key.run) (clusterOfStrand t)) t.key.run

/-- A strand enters ENDED (R113, R138, R225). `keep`: the granules that its undelivered postings name stay (R350). -/
def endStrand (s : State) (k : StrandKey) (keep : Bool) : State :=
  match findStrand s k with
  | none => s
  | some t =>
    let stay := if keep then postedGranules s t else []
    let s1 := clearSlotBits (endMastership (dropEscalated (dropClaim (reportEnded s t) t) t) t) t
    let s2 := powerDown s1 t.core (blockFrom t.slot 0)
    let s3 := powerDown s2 t.core (granuleOf (t.granules.filter (fun g => !(stay.map (·.2)).contains g)))
    let s4 := setStrand s3 k (goneStrand .ended)
    leftSlot (keepPosted s4 k t.core stay) t

/-- A strand enters RETAINED: its claims, and its crew's when it is the last, are held under the tag (R138, R139). -/
def retainStrand (s : State) (t : Strand) (tag : Word) : State :=
  let s1 := clearSlotBits (dropEscalated (reportEnded s t) t) t
  let s2 := setStrand s1 t.key (goneStrand .retained)
  let last := !crewActive s2 t.key.run (crewNo t.key)
  let c := crewOf s2 t.key
  let h : Retained := { ctx := t.ctx, tag := tag, key := t.key, core := t.core, v := t.v, vblocks := t.vblocks
                        granules := t.granules, mslots := if last then c.mslots else [], xq := if last then c.xq else 0
                        since := now s t.core }
  let s3 : State := { s2 with retained := s2.retained ++ [h] }
  let s4 := if last then setCrew s3 t.key.run (crewNo t.key) (fun c => { c with mslots := [], xq := 0 }) else s3
  let s5 := setCore s4 t.core (fun c => { c with drowsy := (c.drowsy ++ t.granules.map PowerUnit.granule).eraseDups })
  leftSlot (forUpTo t.vblocks s5 (fun b s => renameUnit s t.core (.vreg t.slot b) (.held t.key.run t.key.gls b))) t

/-- A holding ends: its units are released, with the strand's masterships; the granules that undelivered postings name stay
(R113, R226, R350). -/
def dropRetained (s : State) (h : Retained) : State :=
  let cl := clusterOfCore h.core
  let stay := postedIn s h.key h.granules
  let s1 : State := { s with retained := s.retained.filter (fun x => x.key ≠ h.key) }
  let s2 := setCluster (endMastership s1 (strandOf s h.key)) cl (fun d => { d with slots := h.mslots.foldl tdel d.slots })
  let s3 := powerDown (powerDown s2 h.core (granuleOf (h.granules.filter (fun g => !(stay.map (·.2)).contains g)))) h.core (blockHeld h.key)
  serveClaims (setStrand (keepPosted s3 h.key h.core stay) h.key (fun t => { t with life := .ended })) cl

/-- RETAIN_EXPIRY (R113): 2^20 cycles without a successor. -/
def execRetainExpiry (ctx : Nat) (tag : Word) (s : State) : Host.Outcome State Fault Refusal :=
  .next (match s.retained.find? (fun h => h.ctx = ctx && h.tag = tag) with
    | none => s
    | some h => if h.since + 2 ^ 20 ≤ now s h.core then dropRetained s h else s)

/-! ### HALT (R138) -/

/-- HALT from its wait on. -/
def tryHalt (s : State) (t : Strand) (tag : Word) (retain : Bool) (parcel : Word) : Res :=
  if !classesDone s t 29 then .wait s (.halt tag retain parcel)
  else if retain && s.retained.any (fun h => h.ctx = t.ctx && h.tag = tag) then .trap s { cause := cEngine, tval := parcel }
  else
    let s1 := release s t.core t.key
    .ok (if retain then retainStrand s1 t tag else endStrand s1 t.key true) .stay

/-- HALT. -/
def execHalt (rs1 : BitVec 5) (retain : Bool) (s : State) : Host.Outcome State Fault Refusal :=
  runStrand (.halt rs1 retain) s (fun t =>
    let tag := gx t rs1.toNat
    if retain && tag = 0 then .trap s (parcelTrap cEngine s (.halt rs1 retain))
    else tryHalt s t tag retain (curParcel s (.halt rs1 retain)))

/-! ### Cancels (R140, R141, R377) -/

/-- A cancel sets out for a strand: it ends before it issues another instruction. -/
def cancelStrand (s : State) (t : Strand) : State :=
  if t.life = .ended then s
  else
    let s1 := setStrand s t.key (fun t => { t with cancelPending := true })
    { s1 with due := s1.due ++ [.strandCancel t.key] }

/-- The undelivered postings of some strands of a launch are discarded, with the granules that stayed for them (R140, R170,
R350). -/
def discardPosts (s : State) (run : Nat) (p : Nat → Bool) : State :=
  let s1 := setRun s run (fun r =>
    { r with postings := r.postings.filter (fun x => !p x.gls), adds := r.adds.filter (fun x => !p x.gls)
             heldAdds := r.heldAdds.filter (fun x => !p x.gls) })
  freePostHolds s1 (fun h => h.run = run && p h.key.gls)

/-- A cancel of one crew. -/
def cancelCrew (s : State) (run crew : Nat) : State :=
  (crewStrands s run crew).foldl cancelStrand (discardPosts s run (fun g => decide (g / 32 = crew)))

/-- The cause that a launch or graph ends with: the earliest by GTC, then by source number (R375). -/
def firstCause (old : Option (Nat × Nat × Nat)) (new : Nat × Nat × Nat) : Option (Nat × Nat × Nat) :=
  match old with
  | some o => if o.2.1 < new.2.1 || (o.2.1 = new.2.1 && o.2.2 ≤ new.2.2) then some o else some new
  | none => some new

/-- A launch ends with a status, unless an earlier cause has ended it (R375): none of its crews binds any more, its strands
end and its postings are discarded. -/
def endRun (s : State) (run status src : Nat) : State :=
  if (runOf s run).stage = .done then s
  else
    let s0 := freeEntries (nameRun s run) run (fun _ _ _ => true)
    let s1 := setRun s0 run (fun r => { r with cancelled := true, status := firstCause r.status (status, gtcOf s (sourceDie src), src) })
    let s2 := (runStrands s1 run).foldl cancelStrand (discardPosts s1 run (fun _ => true))
    { s2 with due := s2.due ++ [.launchComplete run] }

/-- The statuses of R375. -/
def stOk : Nat := 0
def stCancel : Nat := 1
def stLevel : Nat := 2
def stUnplaceable : Nat := 3
def stMalformed : Nat := 4
def stHardFault : Nat := 5
def stReplay : Nat := 6

/-- The launches of a graph run. -/
def graphRuns (s : State) (g : Nat) : List Nat :=
  (List.range s.runs.length).filter (fun r => match (runOf s r).origin with
    | .node h _ => h = g
    | .packet _ _ => false)

/-- A cancel of a graph run: the walker starts nothing more of it. -/
def cancelGraph (s : State) (g src : Nat) : State :=
  let s1 : State := { s with graphs := lmod (fun x =>
    if x.done then x else { x with ending := true, cause := firstCause x.cause (stCancel, gtcOf s (sourceDie src), src), ready := [] }) s.graphs g }
  (graphRuns s1 g).foldl (fun s r => endRun s r stCancel src) s1

/-- CANCEL's effect on its scope: 0 the crew, 1 the launch, 2 the graph that holds the launch. -/
def cancelScope (s : State) (t : Strand) (scope : Nat) : State :=
  let src := coreSource t.core
  let run := t.key.run
  if scope = 0 then cancelCrew s run (crewNo t.key)
  else
    match scope, (runOf s run).origin with
    | 2, .node g _ => cancelGraph s g src
    | _, _ => endRun s run stCancel src

/-- CANCEL (R140): the issuing strand ends at it. -/
def execCancel (scope : BitVec 5) (s : State) : Host.Outcome State Fault Refusal :=
  runStrand (.cancel scope) s (fun t =>
    let s1 := logStrand s (coreSource t.core) 8 0 t.key 0
    let s2 := cancelScope s1 t scope.toNat
    .ok (endStrand (stopCommands s2 (strandOf s2 t.key)) t.key false) .stay)

/-- A cancelled strand ends: its commands stop, and what it has posted since the cancel set out, in the pass of a repetition, is discarded
as well (R140, R170). -/
def endCancelled (s : State) (t : Strand) : State :=
  endStrand (stopCommands (discardPosts s t.key.run (fun g => g = t.key.gls)) t) t.key false

/-- A cancel ends a strand that it has reached (R113, R140): a repetition stops at a pass boundary. It has no effect on a SAVED
strand, which ends once it has resumed, before it issues (assumption 57). -/
def cancelNow (s : State) (t : Strand) : State :=
  match t.life with
  | .ended => s
  | .saved => s
  | .retained =>
    match s.retained.find? (fun h => h.key = t.key) with
    | some h => dropRetained s h
    | none => s
  | .running => if atBoundary t then endCancelled s t else s
  | .blocked => endCancelled s t
  | .frozen => endCancelled s t

/-- STRAND_CANCEL (R140). -/
def execStrandCancel (k : StrandKey) (s : State) : Host.Outcome State Fault Refusal :=
  .next (match findStrand s k with
    | none => s
    | some t => if t.cancelPending then cancelNow s t else s)

/-! ### Dispositions (R195, R196) -/

/-- A FROZEN strand resumes at its window pc: with `repst` ACTIVE it captures its body again (R186), and the count of a
pending request goes on from where it stood (R114). -/
def thaw (s : State) (t : Strand) : State :=
  let c := now s t.core
  setStrand (dropEscalated s t) t.key (fun t =>
    { t with life := .running, recapture := t.repst.getLsbD 0, escalated := false
             preSince := t.preSince.map (fun p => c - (t.frozenAt - p)) })

/-- STKILL: the strand ends, and its commands stop (R113); a cancel that has set out for it discards its postings (R170). -/
def kill (s : State) (t : Strand) : State :=
  if t.cancelPending then endCancelled s t else endStrand (stopCommands s t) t.key true

/-- A packet goes to the die manager, its strand staying FROZEN: an event record, and the context's vector (R363, R390). -/
def escalate (s : State) (core : Nat) (p : Packet) : State :=
  let d := dieOfCore core
  let t := strandOf s p.key
  let s1 := setDie s d (fun x => { x with escalated := x.escalated ++ [p] })
  let s2 := if t.life = .frozen then setStrand s1 p.key (fun t => { t with escalated := true }) else s1
  raiseVector (logStrand s2 (dieSource d) 1 p.cause.toNat p.key p.tval.toNat) (ctxVector t.ctx)

/-- Whether a core has a strand's packet, loaded or waiting, and has not disposed of it. -/
def holdsPacket (s : State) (core : Nat) (k : StrandKey) : Bool :=
  let c := coreOf s core
  (c.valid && (match c.loaded with
    | some p => decide (p.key = k)
    | none => false)) || c.faultq.any (fun p => decide (p.key = k))

/-- The packet is disposed of: VALID is cleared, or it leaves the queue. -/
def disposePacket (s : State) (core : Nat) (k : StrandKey) : State :=
  setCore s core (fun c =>
    { c with valid := c.valid && (match c.loaded with
               | some p => decide (p.key ≠ k)
               | none => true)
             faultq := c.faultq.filter (fun p => p.key ≠ k) })

/-- STRES, STKILL and ESCAL: the strand named by rs1, FROZEN with a packet that this core holds. -/
def dispose (i : Instr) (rs1 : BitVec 5) (s : State) (f : State → Nat → Strand → State) : Host.Outcome State Fault Refusal :=
  runHandler i s (fun c =>
    match physStrand s (dieOfCore c) ((xGet s rs1).toNat % 2 ^ 12) with
    | none => .trap s (parcelTrap cEngine s i)
    | some t =>
      if t.life = .frozen && holdsPacket s c t.key then .ok (f (disposePacket s c t.key) c t) .seq
      else .trap s (parcelTrap cEngine s i))

/-- STRES (R195). -/
def execStres (rs1 : BitVec 5) (s : State) : Host.Outcome State Fault Refusal :=
  dispose (.stres rs1) rs1 s (fun s _ t => thaw s t)

/-- STKILL (R195). -/
def execStkill (rs1 : BitVec 5) (s : State) : Host.Outcome State Fault Refusal :=
  dispose (.stkill rs1) rs1 s (fun s _ t => kill s t)

/-- ESCAL (R195). -/
def execEscal (rs1 : BitVec 5) (s : State) : Host.Outcome State Fault Refusal :=
  dispose (.escal rs1) rs1 s (fun s c t => escalate s c (t.packet.getD {}))

/-- The next packet of a fault queue is loaded and the handler starts at its entry, or it sleeps (R196). -/
def nextPacket (s : State) (core : Nat) : State :=
  setCore s core (fun c =>
    match c.faultq with
    | [] => { c with hawake := false, hpc := 0, valid := false }
    | p :: rest => { c with hawake := true, hpc := 0, faultq := rest, loaded := some p, valid := true })

/-- STRET (R196). -/
def execStret (s : State) : Host.Outcome State Fault Refusal :=
  runHandler .stret s (fun c =>
    let h := coreOf s c
    let s1 := match h.valid, h.loaded with
      | true, some p => escalate s c p
      | _, _ => s
    .ok (nextPacket s1 c) .stay)

/-- The core named in a core's `pairtab`, package-wide. -/
def buddyOf (s : State) (core : Nat) : Nat := dieOfCore core * Config.dieCores + pairtabOf s core

/-- FAULT_PACKET_DELIVER (R192): the oldest waiting packet goes to its buddy's queue unless that is full, or to the die
manager when `pairtab` names the core itself. A BUDDY that names no core of the die takes none (assumption 87). -/
def execFaultPacketDeliver (core : Nat) (s : State) : Host.Outcome State Fault Refusal :=
  runEvent (coreOk core) (match (coreOf s core).outq with
    | [] => s
    | p :: rest =>
      let sent := setCore s core (fun c => { c with outq := rest })
      let b := buddyOf s core
      if b = core then escalate sent core p
      else if Config.dieCores ≤ pairtabOf s core || 16 ≤ (coreOf s b).faultq.length then s
      else
        let s1 := setCore sent b (fun c => { c with faultq := c.faultq ++ [p] })
        { s1 with due := s1.due ++ [.handlerWake b] })

/-- HANDLER_WAKE (R191). -/
def execHandlerWake (core : Nat) (s : State) : Host.Outcome State Fault Refusal :=
  runEvent (coreOk core) (
    let c := coreOf s core
    if c.hawake || c.hfrozen || c.faultq.isEmpty then s else nextPacket s core)

/-- DIE_MANAGER_DISPOSITION (R196): an escalated strand, named by PHYS, is resumed, ended or left to the host. -/
def execDieManagerDisposition (q : Nat) (act : Disposition) (s : State) : Host.Outcome State Fault Refusal :=
  runEvent (decide (q / 2 ^ 12 < Config.dies)) (match physStrand s (q / 2 ^ 12) (q % 2 ^ 12) with
    | none => s
    | some t =>
      if !(t.life = .frozen && t.escalated) then s
      else
        match act with
        | .resume => thaw s t
        | .kill => kill s t
        | .toHost => dropEscalated s t)

/-! ### The end of a blocked instruction (R113) -/

/-- What a blocked instruction does when it is looked at again. -/
def waitRes (s : State) (t : Strand) (w : Wait) : Res :=
  match w with
  | .acq rd => .wait s (.acq rd)
  | .rel rd cls a => tryRel s t rd cls a
  | .bwait rd ptr p => waitBarrier s t rd ptr p
  | .recv rd => tryRecv s t rd
  | .send multi g v parcel => trySend s t multi g v parcel
  | .xwait rd ptr => waitXform s t rd ptr
  | .stepFence => stepStart s t
  | .stepLanding => .wait s .stepLanding
  | .mwait slot => waitMatrix s t slot
  | .drain id slot => waitDrain s t id slot
  | .peek m rd op => waitPeek s t m rd op
  | .halt tag retain parcel => tryHalt s t tag retain parcel
  | .fencex a b => if classesDone s t a then .ok (fencexEffect s a b) .seq else .wait s (.fencex a b)
  | .atomic op n rd ea aq rl => doAtomic s op n rd ea aq rl

/-- The blocked strand completes, traps, or waits on. -/
def unblock (s : State) (t : Strand) (len : Nat) (w : Wait) : State :=
  match waitRes { s with cur := .strand t.key } t w with
  | .wait s1 w1 => setStrand s1 t.key (fun t => { t with wait := some (len, w1) })
  | .trap s1 tr => if tr.stall then s else takeTrap s1 t.key tr
  | .ok s1 n =>
    complete (setStrand s1 t.key (fun t => if t.life = .blocked then { t with life := .running, wait := none } else t)) len n

/-- STRAND_UNBLOCK (R113). -/
def execStrandUnblock (k : StrandKey) (s : State) : Host.Outcome State Fault Refusal :=
  .next (match findStrand s k with
    | none => s
    | some t =>
      match t.life, t.wait with
      | .blocked, some (len, w) => if t.saving.isNone || drainEnds s t then { unblock s t len w with cur := s.cur } else s
      | _, _ => s)

/-- MPEEK_SNAPSHOT (R256): a strand that waits on an MPEEK gets its snapshot. -/
def execMpeekSnapshot (k : StrandKey) (s : State) : Host.Outcome State Fault Refusal :=
  .next (match findStrand s k with
    | none => s
    | some t =>
      match t.life, t.wait with
      | .blocked, some (len, .peek m rd op) => if t.saving.isNone then { unblock s t len (.peek m rd op) with cur := s.cur } else s
      | _, _ => s)

/-- Whether a strand's reservation is 65,536 cycles old (R123). -/
def resvOld (s : State) (t : Strand) : Bool := t.resv.elim false (fun r => decide (r.cycle + 65536 ≤ now s t.core))

/-- Such a reservation is lost. -/
def expireResv (s : State) (k : StrandKey) : State := setStrand s k (fun t => if resvOld s t then { t with resv := none } else t)

/-- RESERVATION_EXPIRY (R123): 65,536 cycles after the LR. -/
def execReservationExpiry (k : StrandKey) (s : State) : Host.Outcome State Fault Refusal := .next (expireResv s k)

/-! ### Replay divergence (R388) -/

/-- What a strand's home holds of it for a record: the kind and LOC of its records, and the cycle since which it waits. -/
def heldLocs (s : State) (t : Strand) : List (Nat × Nat × Nat) :=
  let r := runOf s t.key.run
  let wait := match t.life, t.wait with
    | .blocked, some (_, .atomic _ n _ ea _ _) =>
      (match locate s t ea n .amo with
       | .ok ((_, a) :: _, _) => [(rAtomic, 8 * (a / 8), t.blockedAt)]
       | _ => [])
    | .blocked, some (_, .send true g _ _) => [(rSend, g, t.blockedAt)]
    | _, _ => []
  wait ++ (r.heldAdds.filter (fun p => p.gls = t.key.gls)).map (fun p => (rVamoadd, p.addr, r.heldSince)) ++
  ((copiesOf s t).filter (fun c => reduceOpen c (shapeOf (leNat c.record)))).filterMap (fun c =>
    (nextElement s t c).map (fun a => (rCpyred, a, c.since)))
where
  /-- the home of the next element of a reduce-copy -/
  nextElement (s : State) (t : Strand) (c : CopyCmd) : Option Nat :=
    let h := shapeOf (leNat c.record)
    match locateEng s t (rowDst h (c.done / dstRow h)) (dstRow h) .ewrite with
    | .ok (ls, _) => (ls[c.done % dstRow h]?).map (·.2)
    | .error _ => none

/-- The launches that use the records of a manifest up together with a launch (R388, assumption 96). -/
def sessionRuns (s : State) (r : Run) : List Nat :=
  (List.range s.runs.length).filter (fun n => (runOf s n).ctx = r.ctx && (runOf s n).replay = r.replay)

/-- The strands that the home of a location holds for their records, each with the cycle since which it waits. -/
def waitingAt (s : State) (r : Run) (kind loc : Nat) : List (StrandKey × Nat) :=
  ((sessionRuns s r).flatMap (runStrands s)).flatMap (fun u =>
    ((heldLocs s u).filter (fun e => e.2.1 = loc &&
        (if kind ≤ rCpyred then decide (e.1 ≤ rCpyred) else rCpyred < e.1 && (runOf s u.key.run).launchid = r.launchid))).map
      (fun e => (u.key, e.2.2)))

/-- The cycle at which a record of a location was last served: its next record has been awaited since then at most. -/
def lastServed (s : State) (r : Run) (kind loc : Nat) : Nat :=
  let here := ((decisions s r).filter (Decision.standsAt r kind loc)).map (·.index)
  (((sessionRuns s r).flatMap (fun n => (runOf s n).served)).filter (fun e => here.contains e.1)).foldl (fun acc e => max acc e.2) 0

/-- Whether the party of a location's next record, which bears the index, has stayed away for 2^26 cycles while others waited there, this
strand being the waiting one with the lowest gls (R388, assumption 98). -/
def stayedAway (s : State) (t : Strand) (index : Nat) : Bool :=
  let r := runOf s t.key.run
  (heldLocs s t).any (fun e =>
    let waiting := waitingAt s r e.1 e.2.1
    (nextRecord s r e.1 e.2.1).any (fun d =>
      d.index = index && !d.isOf r t && waiting.any (fun w => decide (max w.2 (lastServed s r e.1 e.2.1) + 2 ^ 26 ≤ now s t.core)) &&
      waiting.all (fun w => t.key.gls < w.1.gls || (t.key.gls = w.1.gls && t.key.run ≤ w.1.run))))

/-- The launches that a divergence stops: those of the job in the package, 0 being a job id like any other (R373, R403, assumption 99). -/
def jobRunsOf (s : State) (run : Nat) : List Nat :=
  let r := runOf s run
  (List.range s.runs.length).filter (fun n =>
    (runOf s n).ctx = r.ctx && (runOf s n).stage ≠ .done && (n = run || (runIds s n).2 = r.jobid))

/-- Every queue of a context takes note of what has ended: packets visible now complete with the status when they are reached (R377). -/
def markCover (s : State) (ctx : Nat) (what : CoverKind) (id status : Nat) : State :=
  setContext s ctx (fun c => { c with queues := c.queues.map (fun q =>
    { q with cancelled := q.cancelled ++ [{ what := what, id := id, tail := some q.tail, status := status }] }) })

/-- The job of a diverged launch writes nothing more (R3): its launches that have not started complete with REPLAY, the visible ones and
those that are still to come under the replay (assumption 99). -/
def shutReplay (s : State) (r : Run) : State :=
  setContext (markCover s r.ctx .job r.jobid stReplay) r.ctx (fun c => { c with queues := c.queues.map (fun q =>
    if q.replay = r.replay then
      { q with cancelled := q.cancelled ++ [{ what := .job, id := r.jobid, tail := none, status := stReplay }] }
    else q) })

/-- A strand stops at once, inside a repetition too; a SAVED one, which holds no slot, ends where it is and resumes no more, so that none
of its saved copies is issued again (R3, R388). -/
def stopStrand (s : State) (t : Strand) : State :=
  if t.life = .saved then leftSlot (setStrand (reportEnded (endMastership s t) t) t.key (goneStrand .ended)) t
  else
    cancelNow (setStrand s t.key (fun t => { t with rep := none, recapture := false })) { t with rep := none, recapture := false }

/-- Every other strand of a launch stops. -/
def stopRun (k : StrandKey) (src : Nat) (s : State) (run : Nat) : State :=
  let s1 := endRun s run stReplay src
  ((runStrands s1 run).filter (fun t => t.key ≠ k)).foldl stopStrand s1

/-- The strand that diverged freezes with REPLAY, tval the index of the record, and its engine commands stop. -/
def freezeDiverged (s : State) (t : Strand) (index : Nat) : State :=
  let s0 := setStrand s t.key (fun t => { t with diverged := none })
  let s1 := if t.life = .running || t.life = .blocked then
    takeTrap (abandon s0 t) t.key { cause := cReplay, tval := BitVec.ofNat 64 index } else s0
  stopCommands s1 (strandOf s1 t.key)

/-- REPLAY_DIVERGE (R388): the strand that diverged, or the one that has waited in vain, freezes with REPLAY, and the launches of its job
stop and end with REPLAY. -/
def execReplayDiverge (k : StrandKey) (index : Nat) (s : State) : Host.Outcome State Fault Refusal :=
  .next (match findStrand s k with
    | none => s
    | some t =>
      let r := runOf s k.run
      if r.replay.isSome && (t.diverged = some index || stayedAway s t index) then
        (jobRunsOf s k.run).foldl (stopRun k (coreSource t.core)) (shutReplay (freezeDiverged s t index) r)
      else s)

end Sys2Proof.Machine
end

