-- ==== Sys2Proof/Machine/Save.lean ====
section
/-! DEFINITION. The save engine (spec/08 R200, R201, R203, R204, spec/13 R291, R299, spec/18 R353). -/

namespace Sys2Proof.Machine

/-! ### What a save writes -/

/-- Copies that a save stops: CPYs into the strand's sg1 (R200, R291), named by a DST of segment register 1 (assumption 125). -/
def stoppedCopies (s : State) (t : Strand) : List CopyCmd :=
  (copiesOf s t).filter (fun c => c.kind = 0 && decide ((shapeOf (leNat c.record)).dst.toNat / 2 ^ 60 = 1))

/-- The distinct barriers that some copies credit. -/
def creditedBarriers (cs : List CopyCmd) : List Word := ((cs.map (·.barrier)).filter (fun p => p ≠ 0)).eraseDups

/-- Numbers of the bits set among the first n. -/
def bitsSet (n v : Nat) : List Nat := (List.range n).filter (bit v)

/-- The granules saved: those named, and those that undelivered postings name (R350). -/
def savedGranules (s : State) (t : Strand) (mask : Nat) : List Nat :=
  (List.range t.granules.length).filter (fun g => bit mask g || (tfind (postedGranules s t) g).isSome)

/-- A save in hand: what it writes. -/
structure SavePlan where
  regs : List Nat
  grans : List Nat
  slots : List Nat
  copies : List CopyCmd
  barriers : List Word
  forced : Bool

def savePlan (s : State) (t : Strand) (live : BitVec 64 × BitVec 16 × BitVec 8 × Bool) : SavePlan :=
  let cs := stoppedCopies s t
  { regs := bitsSet 64 live.1.toNat, grans := savedGranules s t live.2.1.toNat, slots := bitsSet 8 live.2.2.1.toNat
    copies := cs, barriers := creditedBarriers cs, forced := live.2.2.2 }

/-- Bytes of a saved slot. -/
def slotBytes : Nat := 262208

/-- The save size S of R200. -/
def saveSizeOf (p : SavePlan) : Nat :=
  Config.saveFixed + 64 * p.regs.length + Config.granule * p.grans.length + slotBytes * p.slots.length +
  128 * p.copies.length + 16 * p.barriers.length

/-! ### Refusal, waiting and pending faults -/

/-- The end of a request that is not honoured: REQ and SAVING cleared. -/
def endRequest (s : State) (t : Strand) (f : BitVec 4 → BitVec 4) (g : BitVec 4 → BitVec 4) : State :=
  let s1 := setStrand s t.key (fun t => { t with saving := none, preSince := none })
  setCore s1 t.core (fun c =>
    { c with req := setBit4 c.req (slotBit t) false, savingBits := setBit4 c.savingBits (slotBit t) false
             refused := f c.refused, aborted := g c.aborted })

/-- The strands whose saves go together: those of the crew with a request pending, or all of a stepping launch, none of which is saved while
another is not (R339, R353, R354, assumption 69). -/
def saveGroup (s : State) (t : Strand) : List Strand :=
  (requestGroup s t).filter (fun u => requested s u || (runOf s t.key.run).steps)

/-- The requests that go with a strand's end with it: the crew, or the stepping launch, stays resident whole (R339, R354,
assumption 69). -/
def endMates (s : State) (t : Strand) : State :=
  ((saveGroup s t).filter (fun u => u.key ≠ t.key)).foldl (fun s u => endRequest s u id id) s

/-- The claim queues of some strands' clusters are served: requests of theirs wait again (R221). -/
def serveGroup (s : State) (g : List Strand) : State := (g.map clusterOfStrand).eraseDups.foldl serveClaims s

/-- A refused request (R203): the crew stays resident whole, so the requests that go with it end too (R354). -/
def refuseSave (s : State) (t : Strand) : State :=
  serveGroup (logStrand (endRequest (endMates s t) t (fun v => setBit4 v (slotBit t) true) id) (coreSource t.core) 7 0 t.key t.saveAddr)
    (t :: saveGroup s t)

/-- Whether the save has still to wait (R200 step 3): commands of other engines, but for a drain that will be abandoned, and copies
that it does not stop. -/
def saveWaits (s : State) (t : Strand) : Bool :=
  let own (c : MatrixCmd) : Bool := match t.life, t.wait with
    | .blocked, some (_, .drain id _) => decide (c.id = id)
    | _, _ => false
  !((xformsOf s t).isEmpty && (matrixOf s t).all own && (collsOf s t).isEmpty) || drainEnds s t ||
  decide ((copiesOf s t).length ≠ (stoppedCopies s t).length)

/-- A pending fault traps the strand at the save point; the request stays pending (R259). -/
def saveFault (s : State) (t : Strand) : Option State :=
  (reportFault s t (fun _ => true)).map (fun r =>
    takeTrap (abandon r.2 t) t.key r.1)

/-- What a strand's save writes as things stand: a forced save takes everything that it holds now (R199). -/
def planNow (s : State) (t : Strand) (live : BitVec 64 × BitVec 16 × BitVec 8 × Bool) : SavePlan :=
  savePlan s t (if live.2.2.2 then everything s t else live)

/-- Whether a strand has come to its save point with an area that suffices and nothing to wait for. -/
def saveReady (s : State) (t : Strand) : Bool :=
  t.saving.any (fun live => decide (saveSizeOf (planNow s t live) ≤ t.saveSize)) && !saveWaits s t && t.faults.isEmpty &&
  decide (t.life = .running ∨ t.life = .blocked) && !cancelFirst t

/-! ### Copies are stopped (R200 step 4) -/

/-- Credit undone for n bytes. -/
def withdrawNat (b n : Nat) : Nat :=
  let e := bExpected b
  let a := bArrived b
  if e = 0 then barrierNat 0 ((a + 2 ^ 32 - n % 2 ^ 32) % 2 ^ 32) (bPhase b) (bStatus b)
  else
    let k := if n ≤ a then 0 else (n - a + e - 1) / e
    barrierNat e (a + k * e - n) ((bPhase b + 2 ^ 16 - k % 2 ^ 16) % 2 ^ 16) (bStatus b)

/-- The credits of a stopped copy are withdrawn, and it leaves the engine. A barrier with a nonzero reserved bit is rejected whole, as by
a credit (R13, assumption 63). -/
def stopForSave (s : State) (t : Strand) (c : CopyCmd) : State :=
  let s1 := copyDrop s (clusterOfStrand t) c
  if c.barrier = 0 || t.granules.length ≤ offOf c.barrier / Config.granule then s1
  else
    let a := barrierAt t c.barrier
    let b := peekNat s1 .spad a 16
    if bBroken b then s1 else updateHome (wakeLoc s1 (.spad, a)) .spad a (leBytes 16 (withdrawNat b c.done))

/-- The lowest poisoned byte of the barriers that stopped copies credit, by its address: the save engine's read of such a barrier gets an
error response (R204, R205). -/
def badBarrier (s : State) (t : Strand) (p : SavePlan) : Option Nat :=
  (p.barriers.filter (fun b => decide (offOf b / Config.granule < t.granules.length))).findSome? (fun b =>
    firstBad s (tabulate 16 (fun i => (Space.spad, barrierAt t b + i))))

/-- Saved commands enter the engine again, whole (R202, R204). -/
def reissueCopies (s : State) (cl : Nat) (cs : List CopyCmd) : State :=
  setCluster s cl (fun d => { d with copies := d.copies ++ cs.map (fun c => { c with done := 0, row := none }) })

/-! ### The area (R201) -/

/-- One element of a slot as a window pair (R29). -/
def windowPair (sl : SlotSt) (e : Nat) : List Byte := leBytes 16 (if slotNan sl e then 2 ^ 127 else ulow 128 (tget 0 sl.w e))

/-- A saved slot: the header and the window pairs. -/
def slotImage (sl : SlotSt) (m : Nat) : List Byte :=
  leBytes 1 m ++ leBytes 1 0 ++ leBytes 2 (ulow 16 sl.anchor) ++ leBytes 1 (b2n sl.ovf) ++ leBytes 1 (b2n sl.opened) ++
  List.replicate 58 0 ++ (List.range 16384).flatMap (windowPair sl)

/-- A saved copy command. -/
def copyImage (c : CopyCmd) : List Byte :=
  c.record ++ leBytes 8 c.barrier.toNat ++ c.instr ++ List.replicate (56 - c.instr.length) 0

/-- A saved barrier: its pointer and its pending count, modulo 2^32; the entry's last 4 bytes are not written (R201, R358). -/
def barrierImage (s : State) (t : Strand) (p : Word) : List Byte :=
  let b := peekNat s .spad (barrierAt t p) 16
  leBytes 8 p.toNat ++ leBytes 4 ((bExpected b + 2 ^ 32 - bArrived b) % 2 ^ 32)

/-- The count word at 0x010, with the ring's occupancy and the transfer sequence number. -/
def countWord (p : SavePlan) (t : Strand) : Nat :=
  p.regs.length + p.grans.length * 2 ^ 8 + p.slots.length * 2 ^ 16 + p.copies.length * 2 ^ 20 + p.barriers.length * 2 ^ 25 +
  (t.ringtail + 2 ^ 32 - t.ringhead.toNat % 2 ^ 32) % 2 ^ 12 * 2 ^ 30 + t.putSeq * 2 ^ 42

/-- The word at 0x048: the granule mask and the ring's recorded sender. -/
def granuleWord (p : SavePlan) (t : Strand) : Nat :=
  (p.grans.foldl (fun a g => a + 2 ^ g) 0) + (match t.ringFrom with
    | some g => 2 ^ 16 + g * 2 ^ 17
    | none => 0)

/-- The fixed words from 0x008 to 0x0FF. -/
def saveHead (s : State) (t : Strand) (p : SavePlan) : List Byte :=
  leBytes 8 (saveSizeOf p) ++ leBytes 8 (countWord p t) ++ leBytes 8 t.pc.toNat ++ leBytes 8 t.dead.toNat ++
  leBytes 8 t.draw.toNat ++ leBytes 8 (claimst s t) ++ leBytes 8 t.ordSeq ++
  leBytes 8 (p.regs.foldl (fun a r => a + 2 ^ r) 0) ++ leBytes 8 (granuleWord p t) ++
  leBytes 8 (p.slots.foldl (fun a m => a + 2 ^ m) 0) ++ List.replicate 168 0

/-- Bytes to be written at an offset of the area; with the lowest scratchpad address among them whose word is poisoned. -/
abbrev Piece := Nat × List Byte × Option Nat

def clean (off : Nat) (bs : List Byte) : Piece := (off, bs, none)

/-- The GPRs that are written: neither x0 nor dead. -/
def gprPieces (t : Strand) : List Piece :=
  ((List.range 32).filter (fun n => n ≠ 0 && !t.dead.getLsbD n)).map (fun n => clean (0x100 + 8 * n) (leBytes 8 (gx t n).toNat))

/-- The user CSRs, with `repst` by R186. -/
def csrBytes (t : Strand) : List Byte :=
  let u := { t with repst := if t.recapture then t.repst else repstOf t }
  (List.range 13).flatMap (fun k => leBytes 8 (userCsr u k).toNat) ++ List.replicate 24 0

/-- The located bytes of granule g of a strand. -/
def granuleLocs (t : Strand) (g : Nat) : List Loc := scratchLocs t.core t.granules (g * Config.granule) Config.granule

/-- One granule, as the save engine reads it. -/
def granulePiece (s : State) (t : Strand) (off g : Nat) : Piece :=
  (off, (granuleLocs t g).map (fun l => peek s l.1 l.2), firstBad s (granuleLocs t g))

/-- The whole area but CTRL, with the strand as it stands after its copies have been stopped. -/
def savePieces (s : State) (t : Strand) (p : SavePlan) : List Piece :=
  let cl := clusterOfStrand t
  let ms := (crewOf s t.key).mslots
  let g0 := Config.saveFixed + 64 * p.regs.length
  let s0 := g0 + Config.granule * p.grans.length
  let c0 := s0 + slotBytes * p.slots.length
  [clean 0x008 (saveHead s t p)] ++ gprPieces t ++ [clean 0x200 (csrBytes t)] ++
  [clean 0x280 (p.regs.flatMap (fun r => leBytes 64 (tget 0 t.v r).toNat))] ++
  p.grans.zipIdx.map (fun e => granulePiece s t (g0 + Config.granule * e.2) e.1) ++
  p.slots.zipIdx.map (fun e => clean (s0 + slotBytes * e.2) (slotImage (slotOf s cl (ms.getD e.1 0)) e.1)) ++
  [clean c0 (p.copies.flatMap copyImage)] ++
  p.barriers.zipIdx.map (fun e => clean (c0 + 128 * p.copies.length + 16 * e.2) (barrierImage s t e.1))

/-- The first byte of an access, shorter than a page, that fails to translate. -/
def failingByte (s : State) (ctx va : Nat) : Nat :=
  match ctxLocs s ctx va 1 .store with
  | .error _ => va
  | .ok _ => va + pageRest va

/-- Writes the pieces at the area's address, until one fails to translate or its read gets an error response: the state, and the
address that failed with what the failure logs (R204, R205, R332). -/
def writePieces (core ctx base : Nat) : List Piece → State → State × Option (Nat × Failure)
  | [], s => (s, none)
  | (off, bs, bad) :: rest, s =>
    match bad with
    | some a => (s, some (a, .response (coreSource core) a))
    | none =>
      match ctxLocs s ctx (base + off) bs.length .store with
      | .error e => (s, some (failingByte s ctx (base + off), e.onDie (dieOfCore core)))
      | .ok (ls, s1) => writePieces core ctx base rest (writeLocs s1 ls bs)

/-! ### The end of a save -/

/-- A strand that has surrendered everything. -/
def savedStrand (t : Strand) : Strand :=
  { t with life := .saved, x := [], dead := 0, v := [], vblocks := 0, granules := [], resv := none, rep := none, recapture := false
           saving := none, preSince := none }

/-- Step 6 of R200. -/
def surrender (s : State) (t : Strand) : State :=
  let cl := clusterOfStrand t
  let s1 := powerDown (powerDown (endRequest s t id id) t.core (blockFrom t.slot 0)) t.core (granuleOf t.granules)
  let s2 := setCrew (setStrand s1 t.key savedStrand) t.key.run (crewNo t.key) (fun c => { c with lastSaved := some t.key })
  serveClaims (freeDone (surrenderCrew s2 t.key) t.key.run) cl

/-- An aborted save (R204): the strand freezes with MACHINE and the logged address, 0 where the error has none (R116); the saves that go
with it end, so that nothing is surrendered (assumption 69). -/
def abortSave (s : State) (t : Strand) (addr : Nat) : State :=
  let s1 := endRequest (endMates s t) t id (fun v => setBit4 v (slotBit t) true)
  let s2 := logStrand s1 (coreSource t.core) 7 cMachine t.key addr
  serveGroup (takeTrap (abandon s2 t) t.key { cause := cMachine, tval := BitVec.ofNat 64 addr }) (t :: saveGroup s t)

/-- The storage that a save reads wakes (R190). -/
def wakeSaved (s : State) (t : Strand) (p : SavePlan) : State :=
  p.grans.foldl (fun s g => wake s t.core (.granule (t.granules.getD g 0)))
    (p.regs.foldl (fun s r => wake s t.core (.vreg t.slot (r / 8))) s)

/-- What a save that fails leaves: the address that it reports, and what it logs. -/
abbrev SaveFailure := Nat × Option Failure

/-- Steps 4 and 5 of R200 for one strand, but for CTRL: the state, the copies that it stopped, and how it failed. A barrier that cannot
be read fails it before any copy is stopped. -/
def writeArea (s : State) (t : Strand) (p : SavePlan) : State × List CopyCmd × Option SaveFailure :=
  let ms := (crewOf s t.key).mslots
  let s0 := release (wakeSaved s t p) t.core t.key
  match badBarrier s0 t p with
  | some a => (s0, [], some (a, some (.response (coreSource t.core) a)))
  | none =>
    let s1 := p.copies.foldl (fun s c => stopForSave s t c) s0
    let bad := p.slots.any (fun m => (slotOf s1 (clusterOfStrand t) (ms.getD m 0)).bad)
    match writePieces t.core t.ctx t.saveAddr (savePieces s1 t p) s1 with
    | (s2, some (a, f)) => (s2, p.copies, some (a, some f))
    | (s2, none) => (s2, p.copies, if bad then some (0, none) else none)

/-- A group of saves as far as it has come: the copies stopped, strand by strand, and the strand that failed. -/
abbrev SaveRun := State × List (Strand × List CopyCmd) × Option (Strand × SaveFailure)

/-- The areas of a group of strands are written, but for CTRL, until one fails. -/
def writeAreas : List (Strand × SavePlan) → State → SaveRun
  | [], s => (s, [], none)
  | (t, p) :: rest, s =>
    match writeArea s t p with
    | (s1, cs, some f) => (s1, [(t, cs)], some (t, f))
    | (s1, cs, none) =>
      let r := writeAreas rest s1
      (r.1, (t, cs) :: r.2.1, r.2.2)

/-- CTRL of each area of a group is written, once every other byte of all of them has been (R200 step 5). -/
def writeCtrls : List (Strand × SavePlan) → State → State × Option (Strand × SaveFailure)
  | [], s => (s, none)
  | (t, p) :: rest, s =>
    match writePieces t.core t.ctx t.saveAddr [clean 0 (leBytes 8 (1 + 2 * b2n p.forced))] s with
    | (s1, none) => writeCtrls rest s1
    | (s1, some (a, f)) => (s1, some (t, a, some f))

/-- What each strand of a group saves. -/
def savePlans (s : State) (g : List Strand) : List (Strand × SavePlan) :=
  g.filterMap (fun t => t.saving.map (fun live => (t, planNow s t live)))

/-- One save of a group has failed: every copy that was stopped is issued again, and that save aborts (R204). -/
def failSaves (s : State) (stopped : List (Strand × List CopyCmd)) (t : Strand) (f : SaveFailure) : State :=
  let s1 := stopped.foldl (fun s e => reissueCopies s (clusterOfStrand e.1) e.2) s
  abortSave (f.2.elim s1 (noteFailure s1)) t f.1

/-- Steps 4 to 6 of R200 for the strands that are saved together: every area whole, then all are surrendered; or none is
(R339, R353, assumption 69). -/
def writeSaves (s : State) (g : List Strand) : State :=
  let ps := savePlans s g
  match writeAreas ps s with
  | (s1, cs, some (t, f)) => failSaves s1 cs t f
  | (s1, cs, none) =>
    match writeCtrls ps s1 with
    | (s2, some (t, f)) => failSaves s2 cs t f
    | (s2, none) => g.foldl surrender (g.foldl abandon s2)

/-- The save of a strand goes on once it has come to its save point; a cancel that waits there goes first (R114). -/
def saveStep (s : State) (t : Strand) (live : BitVec 64 × BitVec 16 × BitVec 8 × Bool) : State :=
  let p := planNow s t live
  if cancelFirst t then s
  else if t.saveSize < saveSizeOf p then refuseSave s t
  else if saveWaits s t then s
  else
    match saveFault s t with
    | some s1 => s1
    | none => if (saveGroup s t).all (saveReady s) then writeSaves s (saveGroup s t) else s

/-- SAVE_WRITE (R200): the save of a strand goes on, refused, waiting, trapped by a pending fault, or written whole. -/
def execSaveWrite (k : StrandKey) (s : State) : Host.Outcome State Fault Refusal :=
  .next (match findStrand s k with
    | none => s
    | some t =>
      match t.saving with
      | none => s
      | some live => if t.life = .running || t.life = .blocked then saveStep s t live else s)

end Sys2Proof.Machine
end

