-- ==== Sys2Proof/Machine/Bind.lean ====
section
/-! DEFINITION. The slot table, admission, binding, inheritance and resumption (spec/18 R336 to R341, R353 to R355, spec/10
R211 to R215, R226, spec/08 R202, spec/19 R357). -/

namespace Sys2Proof.Machine

/-! ### Bind records (R337) -/

/-- Whether a record keeps the limits of R337. -/
def bindRecOk (r : BitVec 256) : Bool :=
  let b := bindRecOf r
  fld r.toNat 127 112 = 0 && fld r.toNat 255 224 = 0 && b.flags < 16 && 1 ≤ b.ncrew && b.ncrew + b.crew0 ≤ 2 ^ 24 &&
  b.cluster < Config.clusters && b.cores ≠ 0 && 1 ≤ b.percore && b.percore ≤ 4 && b.saveBase % 64 = 0 && b.saveSize % 64 = 0

/-- An entry of a slot table. -/
def entryOf (s : State) (die entry : Nat) : Option BindEntry := tget none (dieOf s die).table entry
def setEntry (s : State) (die entry : Nat) (e : Option BindEntry) : State :=
  setDie s die (fun d => { d with table := tset none d.table entry e })

/-- FREE: no record stands in the entry. -/
def entryFree (s : State) (die entry : Nat) : Bool := (entryOf s die entry).isNone

/-- BIND_RECORD_WRITE (R337, R338): a valid record arms a free entry; one that breaks a limit is rejected whole. -/
def execBindRecordWrite (die entry : Nat) (rec : BitVec 256) (s : State) : Host.Outcome State Fault Refusal :=
  runEvent (decide (die < Config.dies ∧ entry < 256)) (
    if bindRecOk rec && rec.getLsbD 56 && entryFree s die entry then
      setEntry s die entry (some { record := rec, next := (bindRecOf rec).crew0 })
    else s)

/-- BIND_RECORD_WITHDRAW (R338). -/
def execBindRecordWithdraw (die entry : Nat) (s : State) : Host.Outcome State Fault Refusal :=
  runEvent (decide (die < Config.dies ∧ entry < 256)) (setEntry s die entry none)

/-! ### Clusters that may take a crew -/

/-- The decoder tables of a context come to a cluster (R267): those of the context before it are kept. -/
def loadTables (s : State) (cl ctx : Nat) : State :=
  setCluster s cl (fun c =>
    if c.tablesCtx = some ctx then c
    else
      let kept := match c.tablesCtx with
        | some o => tins c.ctxTables o c.tables
        | none => c.ctxTables
      { c with ctxTables := kept, tables := tget [] kept ctx, tablesCtx := some ctx })

/-- Whether an image's shard for a crew stands in a cluster. -/
def holdsShard (s : State) (r : Run) (crew cl : Nat) : Bool :=
  r.image = 0 || s.shards.any (fun h => h.ctx = r.ctx && h.image = r.image && h.shard = shardNo r crew && h.cluster = cl)

/-- Whether a staging launch that has begun writes a cluster's weight buffer: it counts as resident wherever it was given a replica
(R264, assumption 71). -/
def stagesIn (s : State) (run cl : Nat) : Bool :=
  let r := runOf s run
  r.staging && decide (r.stage ≠ .queued) && decide (r.stage ≠ .done) &&
  s.shards.any (fun h => h.ctx = r.ctx && h.image = r.image && h.cluster = cl)

/-- The rules between staging launches and launches that name images (R264); of two staging launches that are to write a cluster's buffer
the one that entered the package first goes before the other (assumption 71). -/
def stagingOk (s : State) (run cl : Nat) : Bool :=
  let r := runOf s run
  (residentCrews s cl).all (fun c =>
    let o := runOf s c.run
    c.run = run || !((r.staging && o.image ≠ 0) || (o.staging && r.image ≠ 0))) &&
  (r.image = 0 || !(List.range s.runs.length).any (fun n => n ≠ run && stagesIn s n cl && !(r.staging && run < n)))

/-- Whether a gang launch has waited 2^20 cycles (R341), of die 0 (assumption 121). -/
def gangLate (s : State) (r : Run) : Bool := r.priority || decide (r.since + 2 ^ 20 ≤ (dieOf s 0).cycles)

/-- A gang launch that waits for its admission before launch `run`: gangs are served in the order of their launches (R340, R341). -/
def gangBars (s : State) (run cl n : Nat) : Bool :=
  let g := runOf s n
  n ≠ run && g.stage = .gangWait && !g.cancelled && (gangLate s g || g.reserved.contains cl) &&
  !((runOf s run).stage = .gangWait && decide (run < n))

/-- Whether a cluster admits crews at all: in service, no long wait (R222), no gang launch before it that has reserved the cluster or
waited too long (R340, R341). -/
def clusterOpen (s : State) (run cl : Nat) : Bool :=
  let c := clusterOf s cl
  let late := c.claimq.any (fun q => decide (q.since + 65536 ≤ (dieOf s (dieOfCluster cl)).cycles))
  !c.outOfService && !c.stalled && !late && !(List.range s.runs.length).any (gangBars s run cl)

/-- Whether a crew of a launch may be bound to a cluster, claims apart: the context, the image, the cluster's service. -/
def clusterTakes (s : State) (run crew cl : Nat) : Bool :=
  let r := runOf s run
  clusterOpen s run cl && holdsShard s r crew cl && stagingOk s run cl &&
  (residentCrews s cl).all (fun c => decide ((runOf s c.run).ctx = r.ctx))

/-! ### Slots -/

/-- The lowest free slot of a core. -/
def freeSlot (s : State) (core : Nat) : Option Nat :=
  if (coreOf s core).failed then none else (List.range Config.slots).find? (fun i => (slotStrand s core i).isNone)

/-- Strands of a crew on a core. -/
def crewOnCore (s : State) (run crew core : Nat) : Nat :=
  ((crewStrands s run crew).filter (fun t => onCore t && decide (t.core = core))).length

/-- The place of the next strand: the first core of the mask with a free slot and fewer than PERCORE strands of the crew. -/
def nextPlace (s : State) (run crew cl cores percore : Nat) : Option (Nat × Nat) :=
  (List.range Config.cores).findSome? (fun i =>
    let core := cl * Config.cores + i
    if bit cores i && decide (crewOnCore s run crew core < percore) then (freeSlot s core).map (fun j => (core, j)) else none)

/-- The same on one core. -/
def placeOn (s : State) (run crew percore core : Nat) : Option (Nat × Nat) :=
  if crewOnCore s run crew core < percore then (freeSlot s core).map (fun j => (core, j)) else none

/-! ### Binding a crew (R215, R226, R338) -/

/-- The size of the shards of a launch's image: that of the image staged now, or, for the launch that stages it, that of its record (R262). -/
def shardSize (s : State) (r : Run) : Nat :=
  let staged := (contextOf s r.ctx).bind (fun c => c.images.find? (fun i => i.id = r.image))
  if r.staging then r.shsz else staged.elim r.shsz (·.shsz)

/-- The segment registers of a strand (R107). -/
def launchSegs (s : State) (run : Nat) : Tab DescBits :=
  let r := runOf s run
  let c := contextOf s r.ctx
  let code := c.elim 0 (·.code)
  let size := c.elim 0 (·.codeSize)
  (0, descOf (code / 2 ^ 13) (size - 1) kConst true false true 0) ::
  (1, descOf 0 (Config.spadBytes - 1) kScratch true true false 0) ::
  (2, if r.image = 0 then descOf 0 0 kWeight false false false 0
      else descOf 0 (shardSize s r - 1) kWeight (!r.staging) r.staging false 0) :: r.segs

/-- The die manager writes a strand's save-area entry (R200). -/
def writeEntry (s : State) (core slot addr size : Nat) : State :=
  let d := dieOf s (dieOfCore core)
  writeHome s .dev (d.saveTable + 64 * (core % Config.dieCores) + 16 * slot) (leBytes 8 addr ++ leBytes 8 size)

/-- The holding that strand g of a launch inherits (R226). -/
def inherited (s : State) (run g : Nat) : Option Retained :=
  let r := runOf s run
  if r.inherit = 0 then none
  else s.retained.find? (fun h => h.ctx = r.ctx && h.tag = r.inherit + BitVec.ofNat 64 g)

/-- Whether undelivered postings still name granules of a holding: it passes on only once the crossing has read them (R350,
assumption 72). -/
def holdingPosted (s : State) (h : Retained) : Bool := !(postedIn s h.key h.granules).isEmpty

/-- What strand `a` had inherited belongs to strand b now (R226). -/
def passHeir (s : State) (a b : StrandKey) : State :=
  { s with strands := s.strands.map (fun u => match u.heir with
      | some (h, m) => if h = a && u.key ≠ a then { u with heir := some (b, m) } else u
      | none => u) }

/-- A holding passes to a strand: its units become the first of their class, and the slots that its strand mastered the heir's, whichever
holding of its crew keeps them (R138, R226). A slot of the holding that another retained strand masters stays that strand's, for its own
heir; of a slot that belongs to another crew, still or again, its mastership ends. -/
def takeHolding (s : State) (k : StrandKey) (h : Retained) : State :=
  let cl := clusterOfCore h.core
  let s1 : State := forgetMaster { s with retained := s.retained.filter (fun x => x.key ≠ h.key) } h.key
  let s2 := passHeir (setStrand s1 h.key (fun t => { t with life := .ended, heir := some (k, h.granules.length) })) h.key k
  let s3 := forUpTo h.vblocks (setStrand s2 k (fun t => { t with v := h.v, vblocks := h.vblocks, granules := h.granules })) (fun b s =>
    renameUnit s h.core (.held h.key.run h.key.gls b) (.vreg (strandOf s k).slot b))
  let s4 := setCrew s3 k.run (crewNo k) (fun c => { c with mslots := c.mslots ++ h.mslots, xq := c.xq + h.xq })
  let elsewhere (m : Nat) : Bool :=
    s4.crews.any (fun c => c.cluster = cl && c.mslots.contains m && !(c.run = k.run && c.crew = crewNo k))
  setCluster s4 cl (fun c =>
    { c with slots := c.slots.map (fun e => (e.1,
        if e.2.master = some h.key then { e.2 with master := if elsewhere e.1 then none else some k } else e.2)) })

/-- A class is brought from what is held up to a first count, or down to a second. -/
def settleTo (s : State) (k : StrandKey) (cls low high : Nat) : State :=
  let n := heldBy s (strandOf s k) cls
  if n < low then grantUnits s k cls (low - n)
  else if high < n then releaseUnits s k cls (n - high)
  else s

/-- A class is brought from what is held to the initial grant, or down to the maximum. -/
def settle (s : State) (k : StrandKey) (cls : Nat) : State :=
  settleTo s k cls (claimInit (runOf s k.run) cls) (claimMax (runOf s k.run) cls)

/-! ### Save areas (R338, R354, R365) -/

/-- The largest save of a strand of a launch (R354): its declared maxima, 16 copies and 16 barriers. -/
def saveMaximum (r : Run) : Nat :=
  Config.saveFixed + 512 * claimMax r 0 + Config.granule * claimMax r 1 + slotBytes * claimMax r 2 + 128 * 16 + 16 * 16

/-- The save areas that strands of a context keep: address and bytes. -/
def areasOf (s : State) (ctx : Nat) : List (Nat × Nat) :=
  (s.strands.filter (fun t => t.ctx = ctx && t.saveSize ≠ 0)).map (fun t => (t.saveAddr, t.saveSize))

/-- The free bytes of a context's save pool from an address on, up to the next area or the end of the pool. -/
def gapAt (c : Context) (used : List (Nat × Nat)) (a : Nat) : Nat :=
  if c.save ≤ a && a < c.save + c.saveSize && !used.any (fun u => u.1 ≤ a && a < u.1 + u.2) then
    (used.filter (fun u => decide (a < u.1))).foldl (fun m u => min m (u.1 - a)) (c.save + c.saveSize - a)
  else 0

/-- The area that the pool gives a strand being bound (R365): in the lowest free range that holds the maximum, else the largest that
fits, down to none of no bytes at address 0. An area starts at a multiple of 64 (R200). -/
def drawArea (s : State) (ctx size : Nat) : Nat × Nat :=
  match contextOf s ctx with
  | none => (0, 0)
  | some c =>
    let used := areasOf s ctx
    let starts := (c.save :: used.map (fun u => u.1 + u.2)).map (fun a => (a + 63) / 64 * 64)
    let gaps := sortBy (fun a b => decide (a.1 ≤ b.1)) (starts.map (fun a => (a, gapAt c used a)))
    match gaps.find? (fun g => decide (size ≤ g.2)) with
    | some g => (g.1, size)
    | none =>
      gaps.foldl (fun m g => if m.2 < g.2 then g else m) (0, 0)

/-- The save area of strand k of the crew of index idx in a record (R338): a record that gives no area leaves the draw to the pool
(R365, assumption 59). -/
def strandArea (s : State) (run idx k : Nat) (b : BindRec) : Nat × Nat :=
  if b.saveSize = 0 then drawArea s (runOf s run).ctx (saveMaximum (runOf s run))
  else (b.saveBase + b.saveSize * (idx * 32 + k), b.saveSize)

/-- A strand comes to a slot: with a request pending for it or for one that goes with it, all of them are requested, and its count begins
(R199, R339, R353; assumption 107). -/
def startCount (s : State) (t : Strand) : State :=
  let g := requestGroup s t
  if !g.any (requested s) then s
  else
    let s1 := g.foldl (fun s u => requestSlot u.core u.slot s) s
    setStrand s1 t.key (fun t => { t with preSince := some (t.preSince.getD (now s1 t.core)) })

/-- One strand of a crew is bound: an acquire of its core (R321). `idx` is the crew's index in its record. -/
def bindStrand (s : State) (run crew cl idx k : Nat) (b : BindRec) : Option State :=
  let key : StrandKey := ⟨run, crew * 32 + k⟩
  let h := if recInherit b then inherited s run key.gls else none
  let place := match h with
    | some h => if clusterOfCore h.core = cl && !holdingPosted s h then placeOn s run crew b.percore h.core else none
    | none => nextPlace s run crew cl b.cores b.percore
  match place with
  | none => none
  | some (core, slot) =>
    let r := runOf s run
    let area := strandArea s run idx k b
    let t : Strand := { key := key, ctx := r.ctx, core := core, slot := slot, pc := BitVec.ofNat 64 r.entry
                        segs := launchSegs s run, saveAddr := area.1, saveSize := area.2 }
    let s0 := acquire (startCount { s with strands := s.strands ++ [t] } t) core
    let s1 := writeEntry s0 core slot area.1 area.2
    let s2 := match h with
      | some h => takeHolding s1 key h
      | none => s1
    some (settle (settle s2 key 0) key 1)

/-- The strands of a crew, in ascending number. -/
def bindStrands (run crew cl idx : Nat) (b : BindRec) : Nat → Nat → State → Option State
  | 0, _, s => some s
  | fuel + 1, k, s =>
    match bindStrand s run crew cl idx k b with
    | none => none
    | some s1 => bindStrands run crew cl idx b fuel (k + 1) s1

/-- Whether a cluster's pools hold no more than they have. -/
def poolsFit (s : State) (cl : Nat) : Bool :=
  let hs := holders s cl
  (List.range 18).all (fun p =>
    decide ((hs.map (fun h => h.held.getD p 0)).foldl (· + ·) 0 + (if p = 17 then uncovered s cl else 0) ≤ poolSize p))

/-- Whether every declared maximum of a crew is within its pool's capacity (R215). -/
def maximaFit (s : State) (run crew cl : Nat) : Bool :=
  let r := runOf s run
  claimMax r 2 ≤ 8 && claimMax r 3 ≤ 4 &&
  (List.range Config.cores).all (fun i =>
    let n := crewOnCore s run crew (cl * Config.cores + i)
    decide (n * claimMax r 0 ≤ 32) && decide (n * claimMax r 1 ≤ 16))

/-- The state after a crew has been bound by a record, when R215 admits it. A gang's launch waits until all of its crews are. -/
def admitCrew (s : State) (run crew cl idx : Nat) (b : BindRec) : Option State :=
  let r := runOf s run
  if !clusterTakes s run crew cl || (findCrew s run crew).isSome then none
  else
    let s1 : State := { s with crews := s.crews ++ [{ run := run, crew := crew, cluster := cl }] }
    match bindStrands run crew cl idx b r.nstrand 0 s1 with
    | none => none
    | some s2 =>
      let k : StrandKey := ⟨run, crew * 32⟩
      let s3 := settle (settle s2 k 2) k 3
      let granted := (crewStrands s3 run crew).all (fun t => decide (claimInit r 1 ≤ t.granules.length)) &&
        decide (claimInit r 2 ≤ (crewOf s3 k).mslots.length)
      if granted && poolsFit s3 cl && maximaFit s3 run crew cl && safe s3 cl then
        some (setRun (serveClaims (loadTables s3 cl r.ctx) cl) run (fun r =>
          { r with stage := if r.stage = .gangWait then .gangWait else .bound }))
      else none

/-! ### Resumption (R202, R355, R357) -/

/-- A word of a save area: none when it cannot be read. -/
def areaWord (s : State) (ctx addr : Nat) : Option Nat := (ctxRead s ctx addr 8).map leNat

/-- The user CSRs as an area holds them, and the ring as R299 restores it. -/
def restoreCsrs (t : Strand) (w : Nat → Word) (occ : Nat) (sender : Option Nat) : Strand :=
  { t with lpcount := w 0, lpstart := w 1, lpend := w 2, deadmask := w 3, vxflags := w 4, vxrm := w 5, srtensor := w 6, srstep := w 7
           ringbase := w 8, ringsize := w 9, ringhead := w 10, ringsend := w 11, repst := w 12
           recapture := (w 12).getLsbD 0, ringtail := ((w 10).toNat + occ) % 2 ^ 32, ringFrom := sender }

/-- What an access to the first n bytes of a strand's area logs when it fails, made for a core. -/
def areaFailure (s : State) (t : Strand) (core n : Nat) (acc : Access) : Option Failure :=
  ctxFailure s t.ctx t.saveAddr n acc (dieOfCore core) (coreSource core)

/-- The same for a resumption: it reads the fixed part and then the whole of the saved image, whose size stands at 0x008, and writes
CTRL. -/
def areaTrouble (s : State) (t : Strand) (core : Nat) : Option Failure :=
  ((areaFailure s t core Config.saveFixed .load).orElse (fun _ =>
    areaFailure s t core (min t.saveSize ((areaWord s t.ctx (t.saveAddr + 8)).getD 0)) .load)).orElse (fun _ =>
    areaFailure s t core 8 .store)

/-- Whether n bytes of an area from an offset on are zero. -/
def areaZero (s : State) (t : Strand) (off n : Nat) : Bool := (ctxRead s t.ctx (t.saveAddr + off) n).any (fun bs => bs.all (· = 0))

/-- Whether the bytes of an area that R201 has zero are zero, in CTRL, in the fixed part and in each copy command: the restore engine
refuses an area in which one is not (R13, assumption 105). -/
def areaSound (s : State) (t : Strand) : Bool :=
  let w (o : Nat) : Nat := (areaWord s t.ctx (t.saveAddr + o)).getD 0
  let count (o : Nat) : Nat := (bitsSet 64 (w o)).length
  let nc := fld (w 0x010) 24 20
  let c0 := Config.saveFixed + 64 * count 0x040 + Config.granule * (bitsSet 16 (w 0x048)).length + slotBytes * (bitsSet 8 (w 0x050)).length
  w 0 < 4 && areaZero s t 0x058 168 && areaZero s t 0x268 24 && (List.range nc).all (fun i => areaZero s t (c0 + 128 * i + 84) 44)

/-- Saved vector registers. -/
def restoreRegs (s : State) (t : Strand) : List (Nat × Nat) → Option Strand
  | [] => some t
  | (r, off) :: rest =>
    match ctxRead s t.ctx (t.saveAddr + off) 64 with
    | none => none
    | some bs => restoreRegs s { t with v := tset 0 t.v r (BitVec.ofNat 512 (leNat bs)) } rest

/-- Saved granules. -/
def restoreGranules (t : Strand) : List (Nat × Nat) → State → Option State
  | [], s => some s
  | (g, off) :: rest, s =>
    match ctxRead s t.ctx (t.saveAddr + off) Config.granule with
    | none => none
    | some bs => restoreGranules t rest (writeLocs s (granuleLocs t g) bs)

/-- A saved slot's contents (R29, R201). The image has no poison: a slot that was poisoned comes back with every N set, and not poisoned.
Of an image that a program has altered the whole i16 is the anchor, and the low 96 bits of a pair are W (assumption 93). -/
def slotFrom (k : StrandKey) (head : Nat) (bs : List Byte) : SlotSt :=
  let vs := (chunks 16 16384 bs).map leNat
  { w := sparse 0 0 (vs.map (fun v => if v = 2 ^ 127 then 0 else sint 96 v)), n := sparse false 0 (vs.map (fun v => decide (v = 2 ^ 127)))
    anchor := sint 16 (head >>> 16), ovf := bit head 32, master := some k, opened := bit head 40 }

/-- The masters and open states of a SAVED crew's slots come back with the slots that it is granted (R103, R202). -/
def restoreMarks (s : State) (cl : Nat) : List (Nat × Option StrandKey × Bool) → State
  | [] => s
  | (p, master, opened) :: rest => restoreMarks (setSlot s cl p (fun x => { x with master := master, opened := opened })) cl rest

/-- Saved slots: those that the strand masters still; another strand of the crew may have taken one since (R103). -/
def restoreSlots (t : Strand) (cl : Nat) (ms : List Nat) : List (Nat × Nat) → State → Option State
  | [], s => some s
  | (m, off) :: rest, s =>
    match areaWord s t.ctx (t.saveAddr + off), ctxRead s t.ctx (t.saveAddr + off + 64) (slotBytes - 64) with
    | some h, some bs =>
      let s1 := match ms[m]? with
        | some p => if (slotOf s cl p).master = some t.key then setSlot s cl p (fun _ => slotFrom t.key h bs) else s
        | none => s
      restoreSlots t cl ms rest s1
    | _, _ => none

/-- A saved command as its image holds it. -/
def copyFrom (s : State) (t : Strand) (bs : List Byte) : CopyCmd :=
  let h := shapeOf (leNat (bs.take 64))
  { id := s.nextId, key := t.key, order := t.issued, kind := 0, record := bs.take 64
    barrier := BitVec.ofNat 64 (leNat ((bs.drop 64).take 8)), instr := bs.drop 72, total := copyTotal h, done := 0
    unit := if h.mxd = 1 then mxBytes h.dty else tyWidth h.dty / 8, seq := none, posts := false }

/-- A saved command enters the engine again, whole (R202). One that the engine does not accept is rejected, and acts on nothing: a
pending fault with the cause and the tval that its issue would have trapped with (R13, R282, R286, assumption 88). -/
def reissueCopy (s : State) (t : Strand) (cl : Nat) (bs : List Byte) : State :=
  let c := copyFrom s t bs
  let h := shapeOf (leNat c.record)
  let eng : Trap := { cause := cEngine, tval := BitVec.ofNat 64 (leNat (c.instr.take 4)) }
  let s1 := setStrand s t.key (fun t => { t with issued := t.issued + 1 })
  match if shapeOk h then copyChecks t 0 h c.barrier eng else some eng with
  | some e =>
    if c.barrier = 0 then logStrand s1 (unitSource cl 9) 4 e.cause t.key e.tval.toNat
    else addFault s1 t.key { order := c.order, cause := BitVec.ofNat 8 e.cause, fetch := e.fetch, tval := e.tval, slot := none,
                               barrier := some c.barrier, src := unitSource cl 9, addr := e.tval.toNat }
  | none =>
    if c.total = 0 then s1 else setCluster { s1 with nextId := s1.nextId + 1 } cl (fun d => { d with copies := d.copies ++ [c] })

/-- The saved copy commands, in saved order. -/
def restoreCopies (t : Strand) (cl : Nat) : List Nat → State → Option State
  | [], s => some s
  | off :: rest, s =>
    match ctxRead s t.ctx (t.saveAddr + off) 84 with
    | none => none
    | some bs => restoreCopies t cl rest (reissueCopy s (strandOf s t.key) cl bs)

/-- Barriers outside the saved granules (R357). An entry that a program has altered is skipped where its pointer lies in no granule, and
else written at the pointer's offset (assumption 88). -/
def restoreBarriers (t : Strand) (mask : Nat) : List Nat → State → Option State
  | [], s => some s
  | off :: rest, s =>
    match ctxRead s t.ctx (t.saveAddr + off) 16 with
    | none => none
    | some bs =>
      let p : Word := BitVec.ofNat 64 (leNat bs)
      let n := leNat ((bs.drop 8).take 4)
      let s1 := if bit mask (offOf p / Config.granule) || t.granules.length ≤ offOf p / Config.granule then s
        else writeHome s .spad (barrierAt t p) (leBytes 16 (barrierNat n 0 0 0))
      restoreBarriers t mask rest s1

/-- Numbers with the offsets of their images, n bytes each from `off` on. -/
def offsets (off n : Nat) (l : List Nat) : List (Nat × Nat) := l.zipIdx.map (fun e => (e.1, off + n * e.2))

/-- The fixed part of an area, as a strand in its new place. Registers take what a write of them would: bits [63:60] of an instruction
address are 0 (R64), reserved bits stay 0 (R13). Bits [1:0] of the pc are kept (assumption 85). -/
def restoreFixed (t : Strand) (w : Nat → Nat) (dead : BitVec 32) : Strand :=
  let word (o : Nat) : Word := BitVec.ofNat 64 (w o)
  let xs := ((List.range 32).filter (fun n => n ≠ 0 && !dead.getLsbD n)).foldl (fun acc n => tset 0 acc n (word (0x100 + 8 * n))) []
  let u := { t with pc := word 0x018 &&& 0x0FFFFFFFFFFFFFFF, dead := dead &&& 0xFFFFFFFE#32, draw := word 0x028, ordSeq := w 0x038, putSeq := fld (w 0x010) 54 42, x := xs }
  restoreCsrs u (fun k => word (0x200 + 8 * k) &&& csrMask k) (fld (w 0x010) 41 30)
    (if bit (w 0x048) 16 then some (fld (w 0x048) 45 17) else none)

/-- Steps 2 to 6 of R202 for a strand that has its claims. -/
def restoreStrand (s : State) (t : Strand) (w : Nat → Nat) : Option State :=
  let cl := clusterOfStrand t
  let ms := (crewOf s t.key).mslots
  let regs := bitsSet 64 (w 0x040)
  let mask := fld (w 0x048) 15 0
  let grans := bitsSet 16 mask
  let slots := bitsSet 8 (w 0x050)
  let nc := fld (w 0x010) 24 20
  let g0 := Config.saveFixed + 64 * regs.length
  let s0 := g0 + Config.granule * grans.length
  let c0 := s0 + slotBytes * slots.length
  let b0 := c0 + 128 * nc
  match restoreRegs s (restoreFixed t w (BitVec.ofNat 32 (w 0x020))) (offsets 0x280 64 regs) with
  | none => none
  | some u =>
    match restoreGranules t (offsets g0 Config.granule grans) (setStrand s t.key (fun _ => u)) with
    | none => none
    | some s1 =>
      match restoreSlots t cl ms (offsets s0 slotBytes slots) s1 with
      | none => none
      | some s2 =>
        match restoreBarriers t mask ((List.range (fld (w 0x010) 29 25)).map (fun i => b0 + 16 * i)) s2 with
        | none => none
        | some s3 =>
          match restoreCopies t cl ((List.range nc).map (fun i => c0 + 128 * i)) s3 with
          | none => none
          | some s4 => ctxWrite s4 t.ctx t.saveAddr (leBytes 8 (w 0 - w 0 % 2))

/-- A saved strand takes a place with the claims its area records: an acquire of its core (R320). A strand that inherits goes to the
core of its holding (R226, R355). -/
def placeSaved (s : State) (t : Strand) (cl : Nat) (b : BindRec) : Option State :=
  let run := t.key.run
  let h := if recInherit b then inherited s run t.key.gls else none
  let place := match h with
    | some h => if clusterOfCore h.core = cl && !holdingPosted s h then placeOn s run (crewNo t.key) b.percore h.core else none
    | none => nextPlace s run (crewNo t.key) cl b.cores b.percore
  match place, areaWord s t.ctx t.saveAddr, areaWord s t.ctx (t.saveAddr + 0x030) with
  | some (core, slot), some ctrl, some claims =>
    if ctrl % 2 = 0 || !areaSound s t then none
    else
      let u : Strand := { t with life := .running, core := core, slot := slot, segs := launchSegs s run }
      let s0 := acquire (startCount (setStrand s t.key (fun _ => u)) u) core
      let s1 := writeEntry s0 core slot t.saveAddr t.saveSize
      let s2 := h.elim s1 (takeHolding s1 t.key)
      let n0 := fld claims 7 0
      let n1 := fld claims 15 8
      some (settleTo (settleTo s2 t.key 0 n0 n0) t.key 1 n1 n1)
  | _, _, _ => none

def foldOpt {α β : Type} (f : β → α → Option β) : List α → β → Option β
  | [], b => some b
  | a :: l, b =>
    match f b a with
    | none => none
    | some c => foldOpt f l c

/-- The 8-byte words of an area's first 0x268 bytes, by offset: none when they cannot be read. -/
def areaFixed (s : State) (t : Strand) : Option (Nat → Nat) :=
  (ctxRead s t.ctx t.saveAddr 0x268).map (fun bs => fun o => leNat ((bs.drop o).take 8))

/-- The claim counts of a saved strand. -/
def savedClaims (s : State) (t : Strand) : Nat := (areaWord s t.ctx (t.saveAddr + 0x030)).getD 0

/-- Whether a cluster's decoder tables suit a resuming crew (R267). -/
def tablesSuit (s : State) (c : Crew) (ctx cl : Nat) : Bool :=
  let d := clusterOf s cl
  (residentCrews s cl).isEmpty || (d.tablesCtx = some ctx && d.tables = c.savedTables)

/-- The recorded tables are loaded into a cluster that holds none of the context's crews. -/
def resumeTables (s : State) (c : Crew) (ctx cl : Nat) : State :=
  if (residentCrews s cl).isEmpty then setCluster (loadTables s cl ctx) cl (fun d => { d with tables := c.savedTables }) else s

/-- A saved crew comes back whole, when R215 admits it with its saved counts (R202). -/
def resumeCrew (s : State) (run crew cl : Nat) (b : BindRec) : Option State :=
  let r := runOf s run
  match findCrew s run crew with
  | none => none
  | some c =>
    if !c.saved || !c.live || !clusterTakes s run crew cl || !tablesSuit s c r.ctx cl then none
    else
      let ts := (crewStrands s run crew).filter (fun t => t.life = .saved)
      let s0 := setCrew (resumeTables s c r.ctx cl) run crew (fun c => { c with saved := false, cluster := cl })
      match foldOpt (fun s t => placeSaved s t cl b) ts s0 with
      | none => none
      | some s1 =>
        let k : StrandKey := ⟨run, crew * 32⟩
        let last := savedClaims s (strandOf s (c.lastSaved.getD k))
        let s2 := settleTo (settleTo s1 k 2 (fld last 19 16) (fld last 19 16)) k 3 (fld last 22 20) (fld last 22 20)
        let granted := ts.all (fun t => decide ((strandOf s2 t.key).granules.length = fld (savedClaims s t) 15 8)) &&
          decide ((crewOf s2 k).mslots.length = fld last 19 16)
        if granted && poolsFit s2 cl && maximaFit s2 run crew cl && safe s2 cl then
          let s3 := setCrew (restoreMarks s2 cl ((crewOf s2 k).mslots.zip c.savedSlots)) run crew (fun c => { c with savedSlots := [] })
          (foldOpt (fun s t => match areaFixed s (strandOf s t.key) with
            | none => none
            | some w => restoreStrand s (strandOf s t.key) w) ts s3).map (fun s => serveClaims s cl)
        else none

/-! ### The dispatch hardware (R338, R340) -/

/-- One crew of the record in an entry, bound or resumed. -/
def dispatchCrew (s : State) (run crew die entry : Nat) (b : BindRec) : Option State :=
  let cl := die * Config.clusters + b.cluster
  (if recResume b then resumeCrew s run crew cl b else admitCrew s run crew cl (crew - b.crew0) b).map (fun s =>
    setCrew s run crew (fun c => { c with boundBy := some (die, entry) }))

/-- What the restore engine logs of the crews that a record would resume on a die now (R332, R391). -/
def restoreNote (s : State) (run crew die : Nat) (b : BindRec) : State :=
  let cl := die * Config.clusters + b.cluster
  if recResume b && (findCrew s run crew).any (fun c => c.saved && c.live && tablesSuit s c (runOf s run).ctx cl) && clusterTakes s run crew cl then
    (((crewStrands s run crew).filter (fun t => t.life = .saved)).findSome? (fun t => areaTrouble s t (cl * Config.cores))).elim s (noteFailure s)
  else s

/-- The next crew of an armed record without GANG, when it is admitted. -/
def dispatchNext (s : State) (die entry : Nat) (resume : Bool) : State :=
  match entryOf s die entry with
  | none => s
  | some e =>
    let b := bindRecOf e.record
    if recGang b || recResume b != resume || b.crew0 + b.ncrew ≤ e.next then s
    else
      match recRun s b with
      | none => s
      | some run =>
        let r := runOf s run
        if (r.cancelled && !resume) || r.steps || r.ncrew ≤ e.next then s
        else
          match dispatchCrew s run e.next die entry b with
          | none => restoreNote s run e.next die b
          | some s1 => setEntry s1 die entry (some { e with next := e.next + 1 })

/-- BIND_CREW (R338). -/
def execBindCrew (die entry : Nat) (s : State) : Host.Outcome State Fault Refusal :=
  runEvent (decide (die < Config.dies ∧ entry < 256)) (dispatchNext s die entry false)

/-- RESUME (R202, R338). -/
def execResume (die entry : Nat) (s : State) : Host.Outcome State Fault Refusal :=
  runEvent (decide (die < Config.dies ∧ entry < 256)) (dispatchNext s die entry true)

/-- The armed GANG records of a launch: die, entry and record. -/
def gangRecords (s : State) (run : Nat) : List (Nat × Nat × BindRec) :=
  (List.range Config.dies).flatMap (fun d => (dieOf s d).table.filterMap (fun e => e.2.bind (fun x =>
    let b := bindRecOf x.record
    if recGang b && b.launch = (runOf s run).launchid && x.next < b.crew0 + b.ncrew then some (d, e.1, b) else none)))

/-- The crews that GANG records name, each with its die, entry and record. -/
def gangCrews (l : List (Nat × Nat × BindRec)) : List (Nat × Nat × Nat × BindRec) :=
  l.flatMap (fun e => (List.range e.2.2.ncrew).map (fun i => (e.2.2.crew0 + i, e.1, e.2.1, e.2.2)))

/-- The crews of a gang are bound or resumed, one after the other, or none of them is. -/
def gangBind (s : State) (run : Nat) (l : List (Nat × Nat × Nat × BindRec)) : Option State :=
  foldOpt (fun s e => dispatchCrew s run e.1 e.2.1 e.2.2.1 e.2.2.2) l s

/-- The records of a bound gang are DONE. -/
def gangMark (s : State) (l : List (Nat × Nat × BindRec)) : State :=
  l.foldl (fun s e => match entryOf s e.1 e.2.1 with
    | some x => setEntry s e.1 e.2.1 (some { x with next := e.2.2.crew0 + e.2.2.ncrew })
    | none => s) s

/-- Whether a stepping launch waits to be bound, or whole to be resumed. -/
def gangWaits (s : State) (run : Nat) : Bool :=
  let r := runOf s run
  r.steps && ((r.stage = .gangWait && !r.cancelled) ||
    (r.stage = .bound && (s.crews.filter (fun c => c.run = run && c.live)).all (·.saved)))

/-- Whether a launch has reached the front of its queue, has still to start, and steps. -/
def gangQueued (s : State) (r : Run) : Bool :=
  r.stage = .queued && (readRecord s r).any (fun v => (kernelAt s r.ctx (recField v 0 4) (recField v 4 2)).any (·.steps))

/-- Whether a launch comes first among the stepping launches that reached the front of their queues and are not bound (R341): a STAGE that
waits to be started stands in the order too. -/
def gangFirst (s : State) (run : Nat) : Bool :=
  !((List.range run).any (fun n => let r := runOf s n; (decide (r.stage = .gangWait) || gangQueued s r) && !r.cancelled))

/-- The crews that a gang must bind in one step: all, or the saved ones. -/
def gangNeeds (s : State) (run : Nat) : List Nat :=
  if (runOf s run).stage = .bound then (s.crews.filter (fun c => c.run = run && c.live)).map (·.crew)
  else List.range (runOf s run).ncrew

/-- GANG_ADMIT (R340): the crews of a stepping launch are bound together, or none of them is. -/
def execGangAdmit (run : Nat) (s : State) : Host.Outcome State Fault Refusal :=
  .next (
    let recs := gangRecords s run
    let crews := gangCrews recs
    if gangWaits s run && gangFirst s run && (gangNeeds s run).all (fun c => crews.any (fun e => e.1 = c)) then
      let needed := crews.filter (fun e => (gangNeeds s run).contains e.1)
      match gangBind s run needed with
      | some s1 => gangMark (setRun s1 run (fun r => { r with stage := .bound })) recs
      | none => needed.foldl (fun s e => restoreNote s run e.1 e.2.1 e.2.2.2) s
    else s)

/-- Whether a gang launch has waited 2^20 cycles, on die 0 (R341, assumption 121). -/
def gangLong (s : State) (run : Nat) : Bool :=
  let r := runOf s run
  r.stage = .gangWait && r.since + 2 ^ 20 ≤ (dieOf s 0).cycles

/-- Such a launch has priority. -/
def raisePriority (s : State) (run : Nat) : State := if gangLong s run then setRun s run (fun r => { r with priority := true }) else s

/-- GANG_PRIORITY (R341): a gang launch has waited 2^20 cycles. -/
def execGangPriority (run : Nat) (s : State) : Host.Outcome State Fault Refusal := .next (raisePriority s run)

/-- Whether a GPR entry of a slot drowses (R190): it is dead, or its slot is empty. -/
def gprDrowsy (s : State) (core slot r : Nat) : Bool := (slotStrand s core slot).elim true (fun t => t.dead.getLsbD r)

/-- Whether a storage unit of a core holds state. -/
def unitPowered (s : State) (core : Nat) (unit : PowerUnit) : Bool :=
  match unit with
  | .granule g => (usedGranules s core).contains g
  | .vreg slot b => (slotStrand s core slot).elim false (fun t => decide (b < t.vblocks))
  | .held run gls b => s.retained.any (fun h => h.key = ⟨run, gls⟩ && h.core = core && decide (b < h.vblocks))

/-- Whether a storage unit that holds state has had no access for 2,048 cycles and does not drowse yet (R190). -/
def mayDrowse (s : State) (core : Nat) (unit : PowerUnit) : Bool :=
  unitPowered s core unit && decide (tget 0 (coreOf s core).lastUse (unitNo unit) + 2048 ≤ now s core) &&
  !(coreOf s core).drowsy.contains unit

/-- Such storage drowses. -/
def drowse (s : State) (core : Nat) (unit : PowerUnit) : State :=
  if mayDrowse s core unit then setCore s core (fun c => { c with drowsy := c.drowsy ++ [unit] }) else s

/-- BANK_DROWSY (R190): storage that holds state has had no access for 2,048 cycles. -/
def execBankDrowsy (core : Nat) (unit : PowerUnit) (s : State) : Host.Outcome State Fault Refusal :=
  runEvent (coreOk core) (drowse s core unit)

end Sys2Proof.Machine
end

