-- ==== Sys2Proof/Machine/Launch.lean ====
section
/-! DEFINITION. Launches, completion counters, command queues and the graph walker (spec/20 R366 to R368, R373 to R381,
R385, R387, spec/10 R262 to R264, spec/18 R340). -/

namespace Sys2Proof.Machine

/-! ### Contexts and queues -/

def noQueue : Queue := {}
def queueAt (s : State) (ctx q : Nat) : Queue := ((contextOf s ctx).bind (fun c => c.queues[q]?)).getD noQueue
def putQueue (s : State) (ctx q : Nat) (f : Queue → Queue) : State := setContext s ctx (fun c => { c with queues := lmod f c.queues q })

/-- Packet indices are n32 (R366). -/
def idxAdd (a n : Nat) : Nat := (a + n) % 2 ^ 32
def idxSub (a b : Nat) : Nat := (a + 2 ^ 32 - b % 2 ^ 32) % 2 ^ 32

/-- The address of a packet's ring slot (R365). -/
def slotAddr (s : State) (ctx q i : Nat) : Nat :=
  let c := contextOf s ctx
  c.elim 0 (·.code) + c.elim 0 (·.codeSize) + q * Config.ringBytes + i % Config.ringPackets * 64

/-- A packet's 64 bytes: none when its slot fails translation or holds poison. -/
def readPacket (s : State) (ctx q i : Nat) : Option Nat := (ctxRead s ctx (slotAddr s ctx q i) 64).map leNat

/-- The head passes the packets that have completed (R366), and the next one to start stays no lower; `fuel` bounds their number. -/
def passHead : Nat → Queue → Queue
  | 0, q => q
  | fuel + 1, q =>
    if q.finished.contains q.head then
      passHead fuel { q with finished := q.finished.erase q.head, head := idxAdd q.head 1
                             next := if q.next = q.head then idxAdd q.head 1 else q.next }
    else q

/-- Whether packet i is one of those that were visible below a tail (R377). -/
def belowTail (tail i : Nat) : Bool := 1 ≤ idxSub tail i && idxSub tail i ≤ Config.ringPackets

/-- What covers packets up to a tail is done with once the head has come there: a later packet of the same index is another one. -/
def dropCovered (q : Queue) : Queue := { q with cancelled := q.cancelled.filter (fun e => e.tail.elim true (fun t => belowTail t q.head)) }

/-- A packet has completed: IRQ raises the queue's vector. -/
def packetDone (s : State) (ctx q i : Nat) (irq : Bool) : State :=
  let s1 := putQueue s ctx q (fun x =>
    let y := { x with running := x.running.erase i, finished := x.finished ++ [i], hold := if x.hold = some i then none else x.hold }
    dropCovered (passHead y.finished.length y))
  if irq then raiseVector s1 (queueVector ctx q) else s1

/-- An address that cannot be written (R367, R375). -/
def hostFault (s : State) (ctx addr : Nat) : State :=
  raiseVector (logEvent s { gtc := 0, src := hostSource, kind := 10, addr := addr }) (ctxVector ctx)

/-! ### Completion counters (R375) -/

/-- Every store of the package registers at its home: a completion is a release. -/
def releaseAll (s : State) : State := (s.cores.map (·.1)).foldl drainStores s

/-- A completion: a release (R376), and at the counter VALUE + 1, STATUS and TAG; 0 names no counter. One that is misaligned is skipped
like one that cannot be translated (assumption 100). -/
def countUp (s : State) (ctx addr status tag : Nat) : State :=
  let s1 := releaseAll s
  if addr = 0 then s1
  else if addr % 16 ≠ 0 then hostFault s1 ctx addr
  else
    match ctxLocs s1 ctx addr 16 .store with
    | .error f => hostFault (noteFailure s1 (f.onDie 0)) ctx addr
    | .ok (ls, s2) =>
      if ls.any (fun l => poisoned s2 l.1 l.2 1) then hostFault s1 ctx addr
      else
        let v := leNat ((ls.take 8).map (fun l => peek s2 l.1 l.2))
        writeLocs s2 ls (leBytes 8 (v + 1) ++ leBytes 2 status ++ leBytes 2 0 ++ leBytes 4 tag)

/-- Writes an 8-byte value with a release; none when the address cannot be written (R367). -/
def signalWrite (s : State) (ctx addr v : Nat) : Option State :=
  let s1 := releaseAll s
  match ctxLocs s1 ctx addr 8 .store with
  | .error _ => none
  | .ok (ls, s2) => if ls.any (fun l => poisoned s2 l.1 l.2 1) then none else some (writeLocs s2 ls (leBytes 8 v))

/-! ### The graph walker's run (R379 to R381) -/

def noGraph : Graph := { ctx := 0, q := 0, idx := 0, gid := 0, counter := 0, tag := 0, irq := false, done := true }
def graphAt (s : State) (g : Nat) : Graph := (s.graphs[g]?).getD noGraph
def putGraph (s : State) (g : Nat) (f : Graph → Graph) : State := { s with graphs := lmod f s.graphs g }

/-- A graph with nothing running and nothing left to start completes (R381). -/
def graphCheck (s : State) (g : Nat) : State :=
  let x := graphAt s g
  if x.done || !x.running.isEmpty || !x.ready.isEmpty then s
  else
    let s1 := putGraph s g (fun x => { x with done := true })
    packetDone (countUp s1 x.ctx x.counter (x.cause.elim stOk (·.1)) x.tag) x.ctx x.q x.idx x.irq

/-- A run ends with a status: the walker starts nothing more of it (R380). -/
def graphEnd (s : State) (g : Nat) (cause : Nat × Nat × Nat) : State :=
  putGraph s g (fun x => { x with ready := [], ending := true, cause := firstCause x.cause cause })

/-- A cause that the graph walker finds now. -/
def walkerCause (s : State) (status : Nat) : Nat × Nat × Nat := (status, s.gtc, 6148)

/-- A node has finished: its successors are to be started, unless the run is ending. -/
def nodeDone (s : State) (g : Nat) (succ : List Word) : State :=
  graphCheck (putGraph s g (fun x => if x.ending then x else { x with ready := x.ready ++ succ.filter (fun a => a ≠ 0) })) g

/-- A node's launch has completed. -/
def nodeLaunched (s : State) (g run status : Nat) : State :=
  let succ := match (graphAt s g).running.find? (fun e => e.1 = run) with
    | some (_, a, b) => [a, b]
    | none => []
  let s1 := putGraph s g (fun x => { x with running := x.running.filter (fun e => e.1 ≠ run) })
  if status = stOk then nodeDone s1 g succ
  else graphCheck (graphEnd s1 g ((runOf s run).status.getD (walkerCause s status))) g

/-! ### The end of a launch (R376) -/

/-- A launch is complete: its counter, and its packet or its node. -/
def finishRun (s : State) (run status : Nat) : State :=
  let r := runOf s run
  let cause := if status = stOk then none else some (status, s.gtc, hostSource)
  let s1 := countUp (setRun s run (fun r => { r with stage := .done, status := r.status.orElse (fun _ => cause) })) r.ctx r.counter status r.tag
  match r.origin with
  | .packet q i => packetDone s1 r.ctx q i r.irq
  | .node g _ => nodeLaunched s1 g run status

/-- PUTX and PUTXADD postings made after the last STEP are discarded with an event record (R348). -/
def dropPostings (s : State) (run : Nat) : State :=
  let ps := (runOf s run).postings
  let s1 := ps.foldl (fun s p =>
    let k : StrandKey := ⟨run, p.gls⟩
    logStrand s (coreSource (strandOf s k).core) 4 cClaim k p.dst.toNat) s
  dropPostHolds (setRun s1 run (fun r => { r with postings := [] })) run

/-- VAMOADD.o postings are applied (R169). -/
def applyAdds (s : State) (run : Nat) : State :=
  let r := runOf s run
  let s1 := (sortPosts r.adds).foldl (applyPost run) s
  setRun s1 run (fun r => { r with adds := [] })

/-- A staged image is in force from the STAGE's completion on; one that did not end OK leaves no shard and no image (assumption 112). -/
def stageEnd (s : State) (run status : Nat) : State :=
  let r := runOf s run
  if !r.staging || r.image = 0 then s
  else if status = stOk then
    setContext s r.ctx (fun c => { c with images := c.images ++ [{ id := r.image, nsh := r.nsh, shsz := r.shsz }] })
  else { s with shards := s.shards.filter (fun h => !(h.ctx = r.ctx && h.image = r.image)) }

/-- Whether every crew has completed, and none remains to be bound (R376). -/
def crewsFinished (s : State) (run : Nat) : Bool :=
  let r := runOf s run
  let mine := s.crews.filter (fun c => c.run = run)
  mine.all (fun c => r.crewsDone.contains c.crew) && (r.cancelled || decide (mine.length = r.ncrew))

/-- LAUNCH_COMPLETE (R376). -/
def execLaunchComplete (run : Nat) (s : State) : Host.Outcome State Fault Refusal :=
  .next (
    let r := runOf s run
    if r.stage = .done || run ≥ s.runs.length || !(r.cancelled || r.stage = .bound) || !crewsFinished s run ||
        !r.heldAdds.isEmpty then s
    else
      let status := r.status.elim stOk (·.1)
      finishRun (stageEnd (applyAdds (dropPostings s run) run) run status) run status)

/-- GRAPH_COMPLETE (R381). -/
def execGraphComplete (g : Nat) (s : State) : Host.Outcome State Fault Refusal := .next (graphCheck s g)

/-! ### The start of a launch (R373, R374) -/

/-- Whether a descriptor of sgN keeps R108, and a declaration when it has one (R107, R373). -/
def descOk (k : Kernel) (n : Nat) (d : DescBits) : Bool :=
  d = 0 ||
  (decide (dKind d < 6) && !dX d && !(dW d && dKind d = kConst) && decide (dStride d ≤ 2 ^ 34) && (dStride d = 0 || dKind d = kGlobal) &&
   (match k.segs.find? (fun e => e.1 = n) with
    | some (_, kind, perm, _) => decide (dKind d = kind) && dR d == bit perm 0 && dW d == bit perm 1
    | none => false))

/-- The descriptors of a launch record, by register. -/
def recordSegs (v : Nat) : Tab DescBits :=
  ((List.range 13).map (fun i => (i + 3, BitVec.ofNat 128 (v >>> (8 * (0x40 + 16 * i)))))).filter (fun e => e.2 ≠ 0)

/-- Whether a launch record is accepted (R373). An NSH that is not the staged image's is (assumption 112). -/
def recordOk2 (s : State) (r : Run) (v : Nat) (k : Kernel) : Bool :=
  let image := recField v 0x20 4
  let ncrew := recField v 0x10 4
  let shsz := recField v 0x30 4
  recField v 0x06 2 = 0 && recField v 0x26 2 = 0 && recField v 0x34 12 = 0 && 1 ≤ ncrew && ncrew ≤ 2 ^ 24 &&
  (image = 0 || (1 ≤ recField v 0x24 2 && 1 ≤ recField v 0x14 4 && recField v 0x14 4 ≤ 2 ^ 24)) &&
  (if r.staging then image ≠ 0 && 1 ≤ shsz && shsz ≤ Config.wbufBytes
   else image = 0 || (contextOf s r.ctx).elim false (fun c => c.images.any (fun i => i.id = image))) &&
  (List.range 13).all (fun i => descOk k (i + 3) (BitVec.ofNat 128 (v >>> (8 * (0x40 + 16 * i)))))

/-- The queue and the index of the packet that a launch comes from: its own, or that of its graph. -/
def runPlace (s : State) (r : Run) : Nat × Nat :=
  match r.origin with
  | .packet q i => (q, i)
  | .node g _ => ((graphAt s g).q, (graphAt s g).idx)

/-- Whether a packet was visible when its job was closed. -/
def beforeClose (j : Job) (q i : Nat) : Bool :=
  let n := idxSub (j.closedAt.getD q 0) i
  1 ≤ n && n < 2 ^ 31

/-- A closed job starts no further launch: none whose packet a later doorbell made visible (R402, R419, assumption 97). -/
def jobShut (s : State) (r : Run) (id : Nat) : Bool :=
  s.jobs.any (fun j => j.ctx = r.ctx && j.id = id && j.closed && !beforeClose j (runPlace s r).1 (runPlace s r).2)

/-- A launch as its record sets it up. -/
def launchOf (s : State) (r : Run) (v : Nat) (k : Kernel) : Run :=
  let c := contextOf s r.ctx
  let image := recField v 0x20 4
  let replay := (queueAt s r.ctx (runPlace s r).1).replay
  { r with
    launchid := recField v 0x08 4, jobid := recField v 0x0C 4, ncrew := recField v 0x10 4, nstrand := k.strands
    seed := BitVec.ofNat 64 (recField v 0x18 8), image := image, nsh := recField v 0x24 2, shdiv := recField v 0x14 4
    shsz := if r.staging then recField v 0x30 4
      else (c.bind (fun c => c.images.find? (fun i => i.id = image))).elim 0 (·.shsz)
    inherit := BitVec.ofNat 64 (recField v 0x28 8), level := c.elim 0 (·.level), replay := replay
    steps := k.steps, claims := k.claims, segs := recordSegs v, entry := k.entry, handle := recField v 0 4 }

/-! ### Placement tests (R340, R374) -/

/-- The clusters in service. -/
def servedClusters (s : State) : List Nat :=
  (List.range (Config.dies * Config.clusters)).filter (fun c => !(clusterOf s c).outOfService)

/-- How many strands of a launch one core holds at its declared maxima. -/
def strandsPerCore (r : Run) : Nat :=
  let cap (size m : Nat) : Nat := if m = 0 then Config.slots else size / m
  min Config.slots (min (cap 32 (claimMax r 0)) (cap 16 (claimMax r 1)))

/-- How many crews of a launch a cluster holds at its declared maxima, with nothing else resident. -/
def crewsPerCluster (s : State) (r : Run) (cl : Nat) : Nat :=
  let cores := ((List.range Config.cores).filter (fun i => !(coreOf s (cl * Config.cores + i)).failed)).length
  let cap (size m : Nat) : Nat := if m = 0 then Config.cores * Config.slots else size / m
  min (cores * strandsPerCore r / (max 1 r.nstrand)) (min (cap 8 (claimMax r 2)) (cap 4 (claimMax r 3)))

/-- Finds crew c a cluster beside the crews placed in m: one with room, or one whose crew moves on to another. `seen` are the
clusters tried on this way; `fuel` bounds its length. -/
def placeCrew (can : Nat → Nat → Bool) (room : Nat → Nat) (cls : List Nat) : Nat → List Nat → List (Nat × Nat) → Nat → Option (List (Nat × Nat))
  | 0, _, _, _ => none
  | fuel + 1, seen, m, c =>
    let fit := cls.filter (fun cl => can c cl && !seen.contains cl)
    let users (cl : Nat) : List (Nat × Nat) := m.filter (fun e => e.2 = cl)
    match fit.find? (fun cl => decide ((users cl).length < room cl)) with
    | some cl => some (m ++ [(c, cl)])
    | none => fit.findSome? (fun cl => (users cl).findSome? (fun e =>
        (placeCrew can room cls fuel (cl :: seen) (m.erase e) e.1).map (· ++ [(c, cl)])))

/-- A cluster for every crew of a stepping launch in the package with no other crew resident, or none (R340). -/
def crewPlaces (s : State) (r : Run) : Option (List (Nat × Nat)) :=
  if Config.dies * Config.dieStrands < r.ncrew * r.nstrand then none
  else
    let cls := servedClusters s
    foldOpt (fun m c => placeCrew (holdsShard s r) (crewsPerCluster s r) cls (cls.length + 1) [] m c) (List.range r.ncrew) []

/-- Whether the package, empty, could hold every crew of a stepping launch. -/
def placeable (s : State) (r : Run) : Bool := (crewPlaces s r).isSome

/-- The lowest free range of a weight buffer that holds a shard. -/
def bufferGap (hs : List Shard) (cl size : Nat) : Option Nat :=
  let mine := hs.filter (fun h => h.cluster = cl)
  ((0 :: mine.map (fun h => h.base + h.size)).filter (fun a =>
    a + size ≤ Config.wbufBytes && mine.all (fun h => decide (a + size ≤ h.base) || decide (h.base + h.size ≤ a)))).foldl (fun acc a =>
      match acc with
      | none => some a
      | some b => some (min a b)) none

/-- One replica of shard i: in the first of the clusters with room. -/
def putShard (r : Run) (i : Nat) (cls : List Nat) (hs : List Shard) : Option (List Shard) :=
  cls.findSome? (fun cl => (bufferGap hs cl r.shsz).map (fun a =>
    hs ++ [{ ctx := r.ctx, image := r.image, shard := i, cluster := cl, base := a, size := r.shsz }]))

/-- One replica of each shard, then a further one in every other cluster with room (assumption 20). -/
def fillShards (r : Run) (cls : List Nat) (hs : List Shard) : Option (List Shard) :=
  let turn (i : Nat) : List Nat := cls.drop (i % max 1 cls.length) ++ cls.take (i % max 1 cls.length)
  (foldOpt (fun hs i => putShard r i (turn i) hs) (List.range r.nsh) hs).map (fun hs =>
    cls.zipIdx.foldl (fun hs e =>
      if hs.any (fun h => h.cluster = e.1 && h.ctx = r.ctx && h.image = r.image) then hs
      else (putShard r (e.2 % max 1 r.nsh) [e.1] hs).getD hs) hs)

/-- One replica of each of some shards is kept, so chosen that the rest of the plan succeeds. -/
def keepOne (plan : List Shard → Option (List Shard)) : List (List Shard) → List Shard → Option (List Shard)
  | [], kept => plan kept
  | replicas :: rest, kept => replicas.findSome? (fun h => keepOne plan rest (kept ++ [h]))

/-- The replicas of each shard of which none stays by itself. -/
def looseShards (hs kept : List Shard) : List (List Shard) :=
  let same (g h : Shard) : Bool := g.ctx = h.ctx && g.image = h.image && g.shard = h.shard
  let firsts := hs.zipIdx.filterMap (fun e => if (hs.take e.2).any (same e.1) then none else some e.1)
  (firsts.filter (fun h => !kept.any (same h))).map (fun h => hs.filter (same h))

/-- A plan over the shards that stay when replicas beyond one per shard are dropped, but for those that `keep` names (R374). A replica that
stays keeps its place (assumption 101). -/
def dropReplicas (keep : Shard → Bool) (plan : List Shard → Option (List Shard)) (hs : List Shard) : Option (List Shard) :=
  keepOne plan (looseShards hs (hs.filter keep)) (hs.filter keep)

/-- Whether a crew of a launch that names an image is resident in a cluster. -/
def imageBusy (s : State) (cl : Nat) : Bool := (residentCrews s cl).any (fun c => (runOf s c.run).image ≠ 0)

/-- The shards of the other images than the one that a staging launch replaces. -/
def otherShards (s : State) (r : Run) : List Shard := s.shards.filter (fun h => !(h.ctx = r.ctx && h.image = r.image))

/-- The shards after a staging launch has been given its replicas in some clusters: replicas of its context's other images are dropped to
make room (R374), and, where that is not enough, those of other contexts' images (assumption 20). -/
def planIn (s : State) (r : Run) (cls : List Nat) (keep : Shard → Bool) : Option (List Shard) :=
  let hs := otherShards s r
  (fillShards r cls hs).orElse (fun _ =>
    (dropReplicas (fun h => h.ctx ≠ r.ctx || keep h) (fillShards r cls) hs).orElse (fun _ => dropReplicas keep (fillShards r cls) hs))

/-- Whether the weight buffers in service hold a staging launch's shards beside one replica of each shard of its context's other images,
and how (R374): another context's shards do not count. -/
def stageFits (s : State) (r : Run) : Option (List Shard) :=
  dropReplicas (fun _ => false) (fillShards r (servedClusters s)) ((otherShards s r).filter (fun h => h.ctx = r.ctx))

/-- Whether a staging launch under way writes the shards of an image. -/
def stagingNow (s : State) (ctx image : Nat) : Bool :=
  s.runs.any (fun r => r.staging && r.ctx = ctx && r.image = image && r.stage ≠ .queued && r.stage ≠ .done)

/-- The shards that a staging launch begins with: its replicas stand in clusters without a resident crew that names an image, and it
waits while one of those still holds the image that it replaces or the room it needs, while that image is being staged, and while only
other contexts' last replicas leave it no room (R264, assumption 71). What an earlier gang launch is to find stays. Crews that are still
to be bound or resumed find the new shards (assumption 112). -/
def stagePlan (s : State) (run : Nat) (r : Run) : Option (List Shard) :=
  let awaited (h : Shard) : Bool := (List.range run).any (fun n =>
    let g := runOf s n
    g.stage = .gangWait && !g.cancelled && g.ctx = h.ctx && g.image = h.image)
  if s.shards.any (fun h => h.ctx = r.ctx && h.image = r.image && imageBusy s h.cluster) || stagingNow s r.ctx r.image then none
  else planIn s r ((servedClusters s).filter (fun cl => !imageBusy s cl)) (fun h =>
    imageBusy s h.cluster || stagingNow s h.ctx h.image || awaited h)

/-! ### LAUNCH_START -/

/-- The status with which a packet completes unrun: a cancel, or the end of its job, covered it before it was reached (R377). -/
def coveredBy (s : State) (ctx q i : Nat) (what : CoverKind) (id : Nat) : Option Nat :=
  ((queueAt s ctx q).cancelled.find? (fun e => e.what = what && e.id = id &&
    e.tail.elim true (fun t => belowTail t i))).map (·.status)

/-- The same of a launch with its record: by its launch id where it has a packet of its own, and by its job. -/
def runCovered (s : State) (r : Run) (v : Nat) : Option Nat :=
  let (q, i) := runPlace s r
  let byJob := coveredBy s r.ctx q i .job (recField v 0x0C 4)
  match r.origin with
  | .packet _ _ => (coveredBy s r.ctx q i .launch (recField v 0x08 4)).orElse (fun _ => byJob)
  | .node _ _ => byJob

/-- A launch under replay reads its manifest: a read that fails is logged. -/
def noteManifest (s : State) (r : Run) : State :=
  (r.replay.bind (fun p => manifestStop s r.ctx p.base (p.size / 32) 0)).elim s (fun a => noteRead s r.ctx a 32)

/-- A launch's crews pass to the die managers; a stepping launch waits for its gang admission and reserves clusters (R340). Where the
launch records, a manifest without room is closed first (R383). -/
def passRun (s : State) (run : Nat) (r : Run) : State :=
  let s1 := noteManifest (if r.level = 2 && r.replay.isNone then closeManifest s r.ctx else s) r
  setRun s1 run (fun _ => { r with
    stage := if r.steps then .gangWait else .passed, since := (dieOf s 0).cycles
    reserved := if r.steps then (((crewPlaces s1 r).getD []).map (·.2)).eraseDups else [] })

/-- The launch of an accepted record goes on by R374: its level, under replay RECORDED (R387), its place, and its crews. A staging
launch that has to wait for its buffers stays to be started. -/
def launchPass (s : State) (run : Nat) (r : Run) (ordered : Bool) : State :=
  let s1 := setRun s run (fun _ => { r with stage := .passed })
  if r.level = 1 && r.replay.isNone && !ordered then finishRun s1 run stLevel
  else if r.staging then
    match stageFits s r with
    | none => finishRun s1 run stUnplaceable
    | some ideal =>
      if r.steps && !placeable { s with shards := ideal } r then finishRun s1 run stUnplaceable
      else
        match stagePlan s run r with
        | none => s
        | some hs =>
          if r.steps && !placeable { s with shards := hs } r then s
          else
            passRun (setContext { s with shards := hs } r.ctx (fun c => { c with images := c.images.filter (fun i => i.id ≠ r.image) })) run r
  else if r.steps && !placeable s r then finishRun s1 run stUnplaceable
  else passRun s run r

/-- LAUNCH_START (R374): the record is read, and the launch completes at once or passes to the die managers. -/
def launchBegin (s : State) (run : Nat) : State :=
  let s1 := nameRun s run
  let r := runOf s1 run
  match readRecord s r with
  | none => finishRun (if r.recAddr % 16 = 0 then noteRead s1 r.ctx r.recAddr 272 else s1) run stMalformed
  | some v =>
    match runCovered s r v with
    | some status => finishRun s1 run status
    | none =>
      match kernelAt s r.ctx (recField v 0 4) (recField v 4 2) with
      | none => finishRun s1 run stMalformed
      | some k =>
        if !recordOk2 s r v k || jobShut s r (recField v 0x0C 4) then finishRun s1 run stMalformed
        else launchPass s run (launchOf s r v k) k.ordered

/-- Every cached translation of a context leaves every die (R333). -/
def dropTlbs (s : State) (ctx : Nat) : State :=
  let keep (l : List TlbEntry) : List TlbEntry := l.filter (fun e => e.ctx ≠ ctx)
  { s with
    cores := s.cores.map (fun e => (e.1, { e.2 with utlb := keep e.2.utlb }))
    clusters := s.clusters.map (fun e => (e.1, { e.2 with tlb := keep e.2.tlb })) }

/-- LAUNCH_START. -/
def execLaunchStart (run : Nat) (s : State) : Host.Outcome State Fault Refusal :=
  .next (
    let r := runOf s run
    if s.runs.length ≤ run || r.stage ≠ .queued || r.cancelled then s else launchBegin (dropTlbs s r.ctx) run)

/-! ### Packets (R366 to R368) -/

/-- Bytes at and above this offset are unused in a packet of each OP. -/
def packetEnd (op : Nat) : Nat :=
  match op with
  | 1 => 24
  | 2 => 28
  | 3 => 9
  | 4 => 24
  | 5 => 16
  | 6 => 24
  | 7 => 24
  | _ => 24

/-- A counter that a packet may name: 0, or aligned in the virtual address space. -/
def counterOk (a : Nat) : Bool := a % 16 = 0 && a < 2 ^ 50

/-- Whether a packet holds a reserved OP, flag or byte: it is MALFORMED at once (R367). -/
def packetBad (v : Nat) : Bool :=
  let op := fld v 7 0
  op = 0 || 8 < op || fld v 15 10 ≠ 0 || fld v 31 16 ≠ 0 || v >>> (8 * packetEnd op) ≠ 0 ||
  (op = 5 && (1 < fld v 71 64 || fld v 95 72 ≠ 0)) || (op = 3 && 3 < fld v 71 64)

/-- Whether a LEVEL packet asks for a level that its context cannot have: it is MALFORMED once it is served (R385). -/
def levelBad (s : State) (ctx v : Nat) : Bool :=
  fld v 7 0 = 3 && (fld v 71 64 = 3 || (fld v 71 64 = 2 && (contextOf s ctx).elim true (fun c => c.maniSize = 0)))

def packetIrq (v : Nat) : Bool := bit v 9
def packetTag (v : Nat) : Nat := fld v 63 32

/-- OPs that act as though FENCE were set, and OPs that hold later packets (R368). -/
def packetFenced (v : Nat) : Bool := bit v 8 || fld v 7 0 = 3 || fld v 7 0 = 6 || fld v 7 0 = 8
def packetHolds (v : Nat) : Bool := fld v 7 0 = 3 || fld v 7 0 = 4 || fld v 7 0 = 6 || fld v 7 0 = 8

/-- The next index to start: CANCELs that have acted are passed over. `fuel` bounds them. -/
def skipDone (q : Queue) : Nat → Nat → Nat
  | 0, i => i
  | fuel + 1, i => if i ≠ q.tail && q.finished.contains i then skipDone q fuel (idxAdd i 1) else i

/-- The queue stops before a packet that it cannot read (R366). -/
def stopQueue (s : State) (ctx q i : Nat) : State :=
  hostFault (noteRead (putQueue s ctx q (fun x => { x with stopped := true })) ctx (slotAddr s ctx q i) 64) ctx (slotAddr s ctx q i)

/-- A queue without its replay, and without what a divergence barred under it (R387, R3). -/
def endReplay (q : Queue) : Queue := { q with replay := none, cancelled := q.cancelled.filter (fun e => e.tail.isSome) }

/-- A malformed packet completes at its place, with MALFORMED at the counter it names, if it names one in range (R367). -/
def malformedPacket (s : State) (ctx q i v : Nat) : State :=
  let op := fld v 7 0
  let counter := if (op = 1 || op = 2 || op = 6) && counterOk (fld v 191 128) then fld v 191 128 else 0
  let s1 := putQueue s ctx q (fun x =>
    let y := { x with next := idxAdd i 1 }
    if op = 3 then endReplay y else y)
  packetDone (raiseVector (countUp s1 ctx counter stMalformed (packetTag v)) (ctxVector ctx)) ctx q i (packetIrq v)

/-- The counter that a packet names; one that cannot be written is skipped at the completion (R375). -/
def packetCounter (v : Nat) : Nat := fld v 191 128

/-- Whether a LAUNCH, GRAPH or STAGE packet is covered: it completes unrun, without the checks (R377). -/
def packetCovered (s : State) (ctx q i v : Nat) : Bool :=
  match fld v 7 0 with
  | 2 => (coveredBy s ctx q i .graph (fld v 223 192)).isSome
  | 1 => launchCovered
  | 6 => launchCovered
  | _ => false
where
  launchCovered : Bool :=
    let r : Run := { noRun with ctx := ctx, origin := .packet q i, recAddr := fld v 127 64 }
    (readRecord s r).elim false (fun w => (runCovered s r w).isSome)

/-- The packet at a queue's next index, when it may start: it starts as one of the given OP by `f`. -/
def atPacket (s : State) (ctx q op : Nat) (f : State → Nat → Nat → State) : State :=
  let x := queueAt s ctx q
  let i := skipDone x x.finished.length x.next
  if x.stopped || x.hold.isSome || i = x.tail then s
  else
    match readPacket s ctx q i with
    | none => stopQueue s ctx q i
    | some v =>
      if packetBad v && !packetCovered s ctx q i v then malformedPacket s ctx q i v
      else if fld v 7 0 ≠ op || (packetFenced v && !x.running.isEmpty) then s
      else if levelBad s ctx v then malformedPacket s ctx q i v
      else
        f (putQueue s ctx q (fun x =>
          { x with next := idxAdd i 1, running := x.running ++ [i], hold := if packetHolds v then some i else none })) i v

/-- Whether a context and a queue of it exist. -/
def queueExists (s : State) (ctx q : Nat) : Bool := (contextOf s ctx).elim false (fun c => decide (q < c.queues.length))

/-- A launch enters the package; its start is due. -/
def newRun (s : State) (r : Run) : State := { s with runs := s.runs ++ [r], due := s.due ++ [.launchStart s.runs.length] }

/-- The launch of a LAUNCH or STAGE packet. -/
def packetRun (ctx q i v : Nat) (staging : Bool) : Run :=
  { noRun with ctx := ctx, origin := .packet q i, staging := staging, recAddr := fld v 127 64, counter := packetCounter v
               tag := packetTag v, irq := packetIrq v }

/-- LAUNCH (R373). -/
def execLaunchPacket (ctx q : Nat) (s : State) : Host.Outcome State Fault Refusal :=
  runEvent (queueExists s ctx q) (atPacket s ctx q 1 (fun s i v => newRun s (packetRun ctx q i v false)))

/-- STAGE (R264). -/
def execStagePacket (ctx q : Nat) (s : State) : Host.Outcome State Fault Refusal :=
  runEvent (queueExists s ctx q) (atPacket s ctx q 6 (fun s i v => newRun s (packetRun ctx q i v true)))

/-- GRAPH (R379): the first node is to be started; a packet that a cancel covered completes unrun (R377). -/
def execGraphPacket (ctx q : Nat) (s : State) : Host.Outcome State Fault Refusal :=
  runEvent (queueExists s ctx q) (atPacket s ctx q 2 (fun s i v =>
    let id := fld v 223 192
    let covered := coveredBy s ctx q i .graph id
    let g : Graph := { ctx := ctx, q := q, idx := i, gid := id, counter := packetCounter v, tag := packetTag v, irq := packetIrq v
                       ready := if covered.isSome then [] else [BitVec.ofNat 64 (fld v 127 64)], ending := covered.isSome
                       cause := covered.map (walkerCause s) }
    graphCheck { s with graphs := s.graphs ++ [g] } s.graphs.length))

/-- LEVEL (R385): it ends a replay of its queue (R387). -/
def execLevelPacket (ctx q : Nat) (s : State) : Host.Outcome State Fault Refusal :=
  runEvent (queueExists s ctx q) (atPacket s ctx q 3 (fun s i v =>
    let s1 := putQueue (setContext s ctx (fun c => { c with level := fld v 71 64 })) ctx q endReplay
    packetDone s1 ctx q i (packetIrq v)))

/-- WAIT (R367): it holds every later packet of its queue. -/
def execWaitPacket (ctx q : Nat) (s : State) : Host.Outcome State Fault Refusal :=
  runEvent (queueExists s ctx q) (atPacket s ctx q 4 (fun s _ v => noteRead s ctx (fld v 127 64) 8))

/-- WAIT_COMPLETE (R367): the counter's VALUE has reached the target. -/
def execWaitComplete (ctx q : Nat) (s : State) : Host.Outcome State Fault Refusal :=
  runEvent (queueExists s ctx q) (match (queueAt s ctx q).hold with
    | none => s
    | some i =>
      match readPacket s ctx q i with
      | none => s
      | some v =>
        if fld v 7 0 ≠ 4 then s
        else
          match ctxRead s ctx (fld v 127 64) 8 with
          | none => s
          | some bs => if fld v 191 128 ≤ leNat bs then packetDone s ctx q i (packetIrq v) else s)

/-- SIGNAL (R367). -/
def execSignalPacket (ctx q : Nat) (s : State) : Host.Outcome State Fault Refusal :=
  runEvent (queueExists s ctx q) (atPacket s ctx q 7 (fun s i v =>
    let a := fld v 127 64
    packetDone ((signalWrite s ctx a (fld v 191 128)).getD (hostFault (noteWalk s ctx a 8 .store) ctx a)) ctx q i (packetIrq v)))

/-- The session that a queue's REPLAY packet opens or joins: the newest of the context's replays of that manifest in force, unless the
queue itself is already in it (assumption 96). -/
def replaySession (s : State) (ctx q base size : Nat) : Nat :=
  let replays := (contextOf s ctx).elim [] (fun c => c.queues.filterMap (·.replay))
  let newest := ((replays.filter (fun p => p.base = base && p.size = size)).map (·.session)).foldl max 0
  if newest = 0 || (queueAt s ctx q).replay = some { base := base, size := size, session := newest } then
    (contextOf s ctx).elim 0 (·.replays) + 1
  else newest

/-- REPLAY (R387): launches that start later in the queue run under replay of the manifest. -/
def execReplayPacket (ctx q : Nat) (s : State) : Host.Outcome State Fault Refusal :=
  runEvent (queueExists s ctx q) (atPacket s ctx q 8 (fun s i v =>
    let base := fld v 127 64
    let size := fld v 191 128
    let n := replaySession s ctx q base size
    let s1 := setContext s ctx (fun c => { c with replays := max c.replays n })
    packetDone (putQueue s1 ctx q (fun x => { endReplay x with replay := some { base := base, size := size, session := n } })) ctx q i
      (packetIrq v)))

/-! ### CANCEL packets (R377) -/

/-- The cancel of a launch id in a context, from a source. -/
def cancelLaunchId (s : State) (ctx id src : Nat) : State :=
  ((List.range s.runs.length).filter (fun n => decide ((runOf s n).ctx = ctx ∧ (runOf s n).stage ≠ .done) && (runIds s n).1 = id)).foldl
    (fun s n => endRun s n stCancel src) s

/-- The cancel of a graph id in a context. -/
def cancelGraphId (s : State) (ctx id src : Nat) : State :=
  ((List.range s.graphs.length).filter (fun g => (graphAt s g).ctx = ctx && (graphAt s g).gid = id && !(graphAt s g).done)).foldl
    (fun s g => graphCheck (cancelGraph s g src) g) s

/-- Whether the device reads as far as a packet: its queue has not stopped, it is visible, and every packet from the next one to it can be
read (R366). -/
def reachable (s : State) (ctx q i : Nat) : Bool :=
  let x := queueAt s ctx q
  let n := idxSub i x.next
  decide (n < idxSub x.tail x.next) && !x.finished.contains i && !x.stopped &&
  (List.range (n + 1)).all (fun j => (readPacket s ctx q (idxAdd x.next j)).isSome)

/-- Whether an id names a graph, or a launch, that runs, that waits, or whose packet is visible in a queue of the context (R377). -/
def cancelNames (s : State) (ctx : Nat) (graph : Bool) (id : Nat) : Bool :=
  let visible (q : Nat) : Bool :=
    let x := queueAt s ctx q
    (List.range (idxSub x.tail x.next)).any (fun n =>
      let i := idxAdd x.next n
      (readPacket s ctx q i).elim false (fun v =>
        if graph then fld v 7 0 = 2 && fld v 223 192 = id
        else (fld v 7 0 = 1 || fld v 7 0 = 6) &&
          (readRecord s { noRun with ctx := ctx, recAddr := fld v 127 64 }).elim false (fun w => recField w 0x08 4 = id)))
  (if graph then s.graphs.any (fun g => g.ctx = ctx && g.gid = id && !g.done)
   else (List.range s.runs.length).any (fun n =>
    (runOf s n).ctx = ctx && decide ((runOf s n).stage ≠ .done) && (runIds s n).1 = id)) ||
  (List.range ((contextOf s ctx).elim 0 (·.queues.length))).any visible

/-- The effect of a CANCEL packet: none for an id that names nothing. -/
def cancelEffect (s : State) (ctx v : Nat) : State :=
  let graph := fld v 71 64 = 1
  let id := fld v 127 96
  if !cancelNames s ctx graph id then s else
  let s1 := logEvent s { gtc := 0, src := hostSource, kind := 8, launch := if graph then 0 else id }
  let s2 := markCover s1 ctx (if graph then .graph else .launch) id stCancel
  if graph then cancelGraphId s2 ctx id hostSource else cancelLaunchId s2 ctx id hostSource

/-- CANCEL_PACKET (R368, R377): it acts as soon as the device reads it. -/
def execCancelPacket (ctx q idx : Nat) (s : State) : Host.Outcome State Fault Refusal :=
  runEvent (queueExists s ctx q) (
    if !reachable s ctx q idx then s
    else
      match readPacket s ctx q idx with
      | none => s
      | some v => if fld v 7 0 ≠ 5 || packetBad v then s else packetDone (cancelEffect s ctx v) ctx q idx (packetIrq v))

/-! ### Graph nodes (R378, R379) -/

/-- A node's fields. -/
structure Node where
  type : Nat
  npred : Nat
  test : Nat
  bitIdx : Nat
  succ0 : Word
  succ1 : Word
  arg : Nat
  value : Nat
  counter : Nat
  deriving DecidableEq, Repr

def nodeOf (v : Nat) : Node :=
  { type := fld v 7 0, npred := fld v 31 16, test := fld v 39 32, bitIdx := fld v 47 40, succ0 := BitVec.ofNat 64 (v >>> 64)
    succ1 := BitVec.ofNat 64 (v >>> 128), arg := fld v 255 192, value := fld v 319 256, counter := fld v 383 320 }

/-- Whether a node is well formed: unused bytes zero, its fields in range. A counter that cannot be written is skipped at the completion
of the node's launch (R375, assumption 100). -/
def nodeOk (v : Nat) : Bool :=
  let n := nodeOf v
  let tests := n.type = 3 || n.type = 4
  let launches := n.type = 1 || n.type = 2
  1 ≤ n.type && n.type ≤ 6 && fld v 15 8 = 0 && fld v 63 48 = 0 && v >>> 384 = 0 &&
  (if n.type = 5 then decide (n.npred ≠ 0) else decide (n.npred = 0)) &&
  (if tests then decide (n.test ≤ 4) && (if n.test = 0 then decide (n.bitIdx < 64) else decide (n.bitIdx = 0)) && n.arg % 8 = 0
   else decide (n.test = 0) && decide (n.bitIdx = 0)) &&
  (n.type ≠ 5 || n.arg = 0) && (tests || n.type = 6 || n.value = 0) && (launches || n.counter = 0)

/-- A node's bytes in device memory: none when it is misaligned or unmapped (R380), or poisoned (assumption 132). -/
def readNode (s : State) (ctx : Nat) (a : Word) : Option Nat :=
  if a.toNat % 64 ≠ 0 then none
  else
    match ctxLocs s ctx a.toNat 64 .load with
    | .error _ => none
    | .ok (ls, s1) => if ls.any (fun l => l.1 ≠ .dev) then none else (readLocs s1 ls).map leNat

/-- Nodes in progress in the package (R381). -/
def nodesRunning (s : State) : Nat := (s.graphs.map (fun g => g.running.length)).foldl (· + ·) 0

/-- The walker starts a node of the given type (R379): `f` acts on a well-formed one; any other ends the run (R380). -/
def startNode (s : State) (g : Nat) (a : Word) (type : Nat) (f : State → Node → State) : State :=
  let x := graphAt s g
  if x.done || x.ending || !x.ready.contains a || 256 ≤ nodesRunning s then s
  else
    let taken := putGraph s g (fun x => { x with ready := x.ready.erase a })
    match readNode s x.ctx a with
    | none => graphCheck (graphEnd (if a.toNat % 64 = 0 then noteRead taken x.ctx a.toNat 64 else taken) g (walkerCause s stMalformed)) g
    | some v =>
      if !nodeOk v then graphCheck (graphEnd taken g (walkerCause s stMalformed)) g
      else if (nodeOf v).type ≠ type then s
      else f taken (nodeOf v)

/-- The launch of a LAUNCH or STAGE node. -/
def startLaunchNode (g : Nat) (a : Word) (staging : Bool) (s : State) (n : Node) : State :=
  let x := graphAt s g
  let s1 := putGraph s g (fun x => { x with running := x.running ++ [(s.runs.length, n.succ0, n.succ1)] })
  newRun s1 { noRun with ctx := x.ctx, origin := .node g a, staging := staging, recAddr := n.arg, counter := n.counter, tag := x.tag }

/-- LAUNCH_NODE (R379). -/
def execLaunchNode (g : Nat) (node : Word) (s : State) : Host.Outcome State Fault Refusal :=
  .next (startNode s g node 1 (startLaunchNode g node false))

/-- STAGE_NODE (R379). -/
def execStageNode (g : Nat) (node : Word) (s : State) : Host.Outcome State Fault Refusal :=
  .next (startNode s g node 2 (startLaunchNode g node true))

/-- The tests of R379 on a hoist word. -/
def nodeTest (n : Node) (h : Nat) : Bool :=
  match n.test with
  | 0 => bit h n.bitIdx
  | 1 => h = n.value
  | 2 => h ≠ n.value
  | 3 => h < n.value
  | _ => n.value ≤ h

/-- A COND or WHILE node. One whose hoist word cannot be read ends the run with MALFORMED (assumption 123). -/
def startTest (g : Nat) (s : State) (n : Node) : State :=
  match ctxRead s (graphAt s g).ctx n.arg 8 with
  | none => graphCheck (graphEnd (noteRead s (graphAt s g).ctx n.arg 8) g (walkerCause s stMalformed)) g
  | some bs => nodeDone s g [if nodeTest n (leNat bs) then n.succ0 else n.succ1]

/-- COND (R379): a second start in one run ends it with MALFORMED (R380). -/
def execCondNode (g : Nat) (node : Word) (s : State) : Host.Outcome State Fault Refusal :=
  .next (startNode s g node 3 (fun s n =>
    if (graphAt s g).conds.contains node then graphCheck (graphEnd s g (walkerCause s stMalformed)) g
    else startTest g (putGraph s g (fun x => { x with conds := x.conds ++ [node] })) n))

/-- WHILE (R379). -/
def execWhileNode (g : Nat) (node : Word) (s : State) : Host.Outcome State Fault Refusal :=
  .next (startNode s g node 4 (startTest g))

/-- JOIN (R379): one arrival is counted; at the NPRED-th the successors start and the count returns to 0. -/
def execJoinNode (g : Nat) (node : Word) (s : State) : Host.Outcome State Fault Refusal :=
  .next (startNode s g node 5 (fun s n =>
    let count := ((graphAt s g).joins.find? (fun e => e.1 = node)).elim 0 (·.2) + 1
    let others := (graphAt s g).joins.filter (fun e => e.1 ≠ node)
    if count < n.npred then graphCheck (putGraph s g (fun x => { x with joins := others ++ [(node, count)] })) g
    else nodeDone (putGraph s g (fun x => { x with joins := others })) g [n.succ0, n.succ1]))

/-- SIGNAL_NODE (R379): the value with a release, and the queue's vector. -/
def execSignalNode (g : Nat) (node : Word) (s : State) : Host.Outcome State Fault Refusal :=
  .next (startNode s g node 6 (fun s n =>
    let x := graphAt s g
    match signalWrite s x.ctx n.arg n.value with
    | none => graphCheck (graphEnd (noteWalk s x.ctx n.arg 8 .store) g (walkerCause s stMalformed)) g
    | some s1 => nodeDone (raiseVector s1 (queueVector x.ctx x.q)) g [n.succ0, n.succ1]))

end Sys2Proof.Machine
end

