-- ==== Sys2Proof/Machine/Loader.lean ====
section
/-! DEFINITION. Code objects: parsing, placing, relocating and binding them, and the promise of each kernel (spec/20 R369 to
R371, spec/03 R93, R96). The ELF64 layout and the relocation numbers are those of the RISC-V psABI (assumption 21). -/

namespace Sys2Proof.Machine

/-! ### Little-endian fields -/

/-- n bytes at an offset. -/
def sub (bs : List Byte) (off n : Nat) : List Byte := (bs.drop off).take n
def num (bs : List Byte) (off n : Nat) : Nat := leNat (sub bs off n)
/-- Bytes up to the first zero. -/
def cstr : List Byte → List Byte
  | [] => []
  | b :: t => if b = 0 then [] else b :: cstr t

def text (s : String) : List Byte := s.toList.map (fun c => BitVec.ofNat 8 c.toNat)

/-! ### ELF (R369) -/

/-- A section. -/
structure Sec where
  name : List Byte
  type : Nat
  alloc : Bool
  off : Nat
  size : Nat
  link : Nat
  info : Nat
  align : Nat
  deriving DecidableEq, Repr

/-- A symbol: name, whether global, whether weak, type, section index, value, size. -/
structure Sym where
  name : List Byte
  global : Bool
  weak : Bool
  type : Nat
  shndx : Nat
  value : Nat
  size : Nat
  deriving DecidableEq, Repr

/-- A relocation: section it applies to, offset, type, symbol index, addend. -/
structure Rela where
  sec : Nat
  off : Nat
  type : Nat
  sym : Nat
  addend : Int
  deriving DecidableEq, Repr

structure Elf where
  img : List Byte
  secs : List Sec
  syms : List Sym
  relas : List Rela
  deriving DecidableEq, Repr

/-- The statuses of R364 and R402. -/
def cBadCmd : Nat := 1
def cBadCtx : Nat := 2
def cBadElf : Nat := 3
def cProfile : Nat := 4
def cNote : Nat := 5
def cDupSymbol : Nat := 6
def cUndefSymbol : Nat := 7
def cReloc : Nat := 8
def cNoSpace : Nat := 9
def cBusyObj : Nat := 10
def cBadJob : Nat := 11
def cNoSets : Nat := 12

/-- An ELF64 little-endian relocatable object with e_machine 243. -/
def elfHeaderOk (b : List Byte) : Bool :=
  64 ≤ b.length && num b 0 4 = 0x464C457F && num b 4 1 = 2 && num b 5 1 = 1 && num b 16 2 = 1 && num b 18 2 = 243 && num b 58 2 = 64

def rawSec (b : List Byte) (i : Nat) : Nat × Sec :=
  let o := num b 40 8 + 64 * i
  (num b o 4, { name := [], type := num b (o + 4) 4, alloc := bit (num b (o + 8) 8) 1, off := num b (o + 24) 8, size := num b (o + 32) 8
                link := num b (o + 40) 4, info := num b (o + 44) 4, align := num b (o + 48) 8 })

def elfSecs (b : List Byte) : List Sec :=
  let raw := (List.range (num b 60 2)).map (rawSec b)
  let names := (raw[num b 62 2]?).elim [] (fun e => sub b e.2.off e.2.size)
  raw.map (fun e => { e.2 with name := cstr (names.drop e.1) })

def elfSyms (b : List Byte) (secs : List Sec) : List Sym :=
  match secs.find? (fun c => c.type = 2) with
  | none => []
  | some t =>
    let names := (secs[t.link]?).elim [] (fun c => sub b c.off c.size)
    (List.range (t.size / 24)).map (fun i =>
      let o := t.off + 24 * i
      let info := num b (o + 4) 1
      { name := cstr (names.drop (num b o 4)), global := decide (info / 16 ≠ 0), weak := decide (info / 16 = 2), type := info % 16
        shndx := num b (o + 6) 2, value := num b (o + 8) 8, size := num b (o + 16) 8 })

def elfRelas (b : List Byte) (secs : List Sec) : List Rela :=
  (secs.filter (fun c => c.type = 4)).flatMap (fun c =>
    (List.range (c.size / 24)).map (fun i =>
      let o := c.off + 24 * i
      { sec := c.info, off := num b o 8, type := num b (o + 8) 4, sym := num b (o + 12) 4, addend := sint 64 (num b (o + 16) 8) }))

/-- Whether every part lies in the image. -/
def elfWhole (e : Elf) : Bool :=
  num e.img 40 8 + 64 * num e.img 60 2 ≤ e.img.length &&
  e.secs.all (fun c => c.type = 8 || decide (c.off + c.size ≤ e.img.length))

def parseElf (b : List Byte) : Except Nat Elf :=
  if !elfHeaderOk b then .error cBadElf
  else
    let secs := elfSecs b
    let e : Elf := { img := b, secs := secs, syms := elfSyms b secs, relas := elfRelas b secs }
    if elfWhole e then .ok e else .error cBadElf

/-! ### The note (R369, R93) -/

/-- The descriptor of `.note.vrelub`: name `Vrelub`, type 0x5652. -/
def noteDesc (e : Elf) : Except Nat (List Byte) :=
  match e.secs.find? (fun c => c.name = text ".note.vrelub") with
  | none => .error cNote
  | some c =>
    let b := sub e.img c.off c.size
    if num b 0 4 = 7 && num b 8 4 = 0x5652 && sub b 12 7 = text "Vrelub" ++ [0] && 20 + num b 4 4 ≤ b.length then
      .ok (sub b 20 (num b 4 4))
    else .error cNote

/-- A segment declaration of a note: register, kind, permissions, stride. -/
def segDecl (d : List Byte) (o : Nat) : Nat × Nat × Nat × Nat := (num d o 1, num d (o + 1) 1, num d (o + 2) 1, num d (o + 8) 8)

/-- Whether a declaration keeps R93 and its layout. -/
def segDeclOk (d : List Byte) (o : Nat) : Bool :=
  let (reg, kind, perm, stride) := segDecl d o
  o + 16 ≤ d.length && 3 ≤ reg && reg ≤ 15 && [0, 1, 2, 4, 5].contains kind && 1 ≤ perm && perm ≤ 3 && num d (o + 3) 1 = 0 &&
  (stride = 0 || (kind = kGlobal && stride % 64 = 0 && decide (stride ≤ 2 ^ 40)))

/-- The declarations of kernel entry i. -/
def kernelDecls (d : List Byte) (i : Nat) : List Nat :=
  let o := 8 + 32 * i
  (List.range (num d (o + 14) 1)).map (fun j => 8 + 32 * num d 2 2 + 16 * (num d (o + 16) 4 + j))

/-- Whether kernel entry i of a note keeps R93. PROMISE, FLAGS [2:1], may hold any value (R371). -/
def kernelEntryOk (e : Elf) (d : List Byte) (i : Nat) : Bool :=
  let o := 8 + 32 * i
  let ds := kernelDecls d i
  let regs := ds.map (fun x => (segDecl d x).1)
  let cap : List Nat := [8, 16, 8, 4]
  o + 32 ≤ d.length && (e.syms[num d o 4]?).elim false (fun y => y.global && y.shndx ≠ 0) &&
  1 ≤ num d (o + 4) 1 && num d (o + 4) 1 ≤ 32 && num d (o + 5) 1 < 8 && num d (o + 15) 1 = 0 && sub d (o + 20) 12 = List.replicate 12 0 &&
  (List.range 4).all (fun c => decide (num d (o + 6 + 2 * c) 1 ≤ num d (o + 7 + 2 * c) 1) && decide (num d (o + 7 + 2 * c) 1 ≤ cap.getD c 0)) &&
  ds.all (segDeclOk d) && regs.eraseDups.length = regs.length

/-- Whether what stands behind the kernel entries are whole declarations that keep R93, named by an entry or not. -/
def declsOk (d : List Byte) : Bool :=
  let o := 8 + 32 * num d 2 2
  (d.length - o) % 16 = 0 && (List.range ((d.length - o) / 16)).all (fun j => segDeclOk d (o + 16 * j))

/-- The note's checks: NOTE, then PROFILE (R7). -/
def noteOk (e : Elf) (d : List Byte) : Except Nat Unit :=
  let p := num d 4 4
  if d.length < 8 || num d 0 2 ≠ 1 || 2 ^ 24 ≤ p || !(List.range (num d 2 2)).all (kernelEntryOk e d) || !declsOk d then .error cNote
  else if (List.range 3).all (fun i => num d (4 + i) 1 = 0 || num d (4 + i) 1 = fld Config.profile.toNat (8 * i + 7) (8 * i)) then .ok ()
  else .error cProfile

/-! ### Placing (R369) -/

def roundUp (a n : Nat) : Nat := (a + n - 1) / n * n

/-- The sections placed: `.text`, then the const sections in their order, each with its offset in the range. -/
def layout (e : Elf) : List (Nat × Nat) × Nat :=
  let own (c : Sec) : Bool := c.type = 1 && c.alloc
  let ix := (List.range e.secs.length).filter (fun i => (e.secs[i]?).elim false own)
  let isText (i : Nat) : Bool := (e.secs[i]?).elim false (fun c => c.name = text ".text")
  (ix.filter isText ++ ix.filter (fun i => !isText i)).foldl (fun acc i =>
    match e.secs[i]? with
    | none => acc
    | some c =>
      let o := roundUp acc.2 (if isText i then max 1 c.align else max 64 c.align)
      (acc.1 ++ [(i, o)], o + c.size)) ([], 0)

/-- The largest alignment an object requests, and 4,096 at least. -/
def objAlign (e : Elf) : Nat := ((layout e).1.map (fun p => (e.secs[p.1]?).elim 1 (·.align))).foldl max 4096

/-- The lowest free offset of a code image that holds an object of a size. -/
def codeGap (c : Context) (size align : Nat) : Option Nat :=
  ((0 :: c.objects.map (fun o => roundUp (o.base + o.size) align)).filter (fun a =>
    a + size ≤ c.codeSize && c.objects.all (fun o => decide (a + size ≤ o.base) || decide (o.base + o.size ≤ a)))).foldl (fun acc a =>
      match acc with
      | none => some a
      | some b => some (min a b)) none

/-- The bytes of an object's range before relocation. -/
def rawImage (e : Elf) : List Byte :=
  (layout e).1.foldl (fun acc p =>
    match e.secs[p.1]? with
    | none => acc
    | some c => acc ++ List.replicate (p.2 - acc.length) 0 ++ sub e.img c.off c.size) []

/-- Where a section stands in the range. -/
def secAt (e : Elf) (i : Nat) : Option Nat := ((layout e).1.find? (fun p => p.1 = i)).map (·.2)

/-! ### Symbols (R370) -/

/-- A definition of a global in a context: strong ones first. -/
def globalDef (objs : List LoadedObj) (name : List Byte) : Option Symbol :=
  let all := (objs.flatMap (·.symbols)).filter (fun y => y.name = name)
  match all.find? (fun y => !y.weak) with
  | some y => some y
  | none => all.head?

/-- A symbol's own place in the object: its sg0 offset. -/
def ownPlace (e : Elf) (base : Nat) (y : Sym) : Option Nat :=
  if y.shndx = 0xFFF1 then some y.value else (secAt e y.shndx).map (fun o => base + o + y.value)

/-- Whether a symbol is a code symbol: it stands in `.text`. -/
def isCode (e : Elf) (y : Sym) : Bool := (e.secs[y.shndx]?).elim false (fun c => c.name = text ".text")

/-- The globals that an object defines. -/
def ownGlobals (e : Elf) (base : Nat) : List Symbol :=
  e.syms.filterMap (fun y =>
    if y.global && y.shndx ≠ 0 then (ownPlace e base y).map (fun a => { name := y.name, weak := y.weak, code := isCode e y, offset := a, size := y.size })
    else none)

/-- Bodies of kernel entries: claims, strands, steps and declarations of the kernel that a symbol names. -/
def kernelNamed (objs : List LoadedObj) (name : List Byte) : Option Kernel := (objs.flatMap (·.kernels)).find? (fun k => k.name = name)

/-! ### Relocation (R96) -/

/-- The target of a relocation: an sg0 offset and the size of the code that stands there. -/
def relTarget (e : Elf) (objs : List LoadedObj) (base : Nat) (bindOld : List (List Byte)) (r : Rela) : Except Nat (List Byte × Option (Nat × Nat) × Nat) :=
  match e.syms[r.sym]? with
  | none => .error cBadElf
  | some y =>
    let own := ownPlace e base y
    if y.global && (own.isNone || bindOld.contains y.name) then
      match globalDef objs y.name with
      | some d => .ok (y.name, none, d.offset)
      | none => .error cUndefSymbol
    else
      match own with
      | none => .error cUndefSymbol
      | some a => .ok (if y.global then y.name else [], some (a, if isCode e y then y.size else 0), a)

/-- The site of a relocation, with the value its symbol has. -/
def relSite (e : Elf) (objs : List LoadedObj) (base : Nat) (old : List (List Byte)) (r : Rela) : Except Nat (RelocSite × Nat) :=
  match secAt e r.sec, relTarget e objs base old r with
  | none, _ => .error cBadElf
  | _, .error x => .error x
  | some o, .ok (name, t, a) => .ok ({ offset := base + o + r.off, kind := r.type, name := name, target := t, addend := r.addend }, a)

/-- Bits of a J- and a B-type offset. -/
def jBits (v : Nat) : Nat := fld v 20 20 * 2 ^ 31 + fld v 10 1 * 2 ^ 21 + fld v 11 11 * 2 ^ 20 + fld v 19 12 * 2 ^ 12
def bBits (v : Nat) : Nat := fld v 12 12 * 2 ^ 31 + fld v 10 5 * 2 ^ 25 + fld v 4 1 * 2 ^ 8 + fld v 11 11 * 2 ^ 7

/-- The upper part of a pc-relative offset, as AUIPC holds it, and the low part (R91). -/
def relLo (d : Int) : Int := sint 12 (ulow 12 d)
def relHi (d : Int) : Nat := ulow 20 ((d - relLo d) / 4096)

/-- What a relocation leaves in the bytes at its site: their number, the fields it replaces and their new value; none when the
result lies outside its field. `v` is the symbol's value with the addend, `pair` the offset of the paired high part. -/
def relPatch (kind : Nat) (p : Nat) (v : Int) (pair : Option Int) : Option (Nat × Nat × Nat) :=
  let d : Int := v - p
  let far : Bool := decide (-(2 ^ 31 : Int) - 2048 ≤ d) && decide (d < (2 ^ 31 : Int) - 2048)
  match kind with
  | 2 => some (8, 2 ^ 64 - 1, ulow 64 v)
  | 16 => if -4096 ≤ d && d < 4096 && d % 2 = 0 then some (4, 0xFE000F80, bBits (ulow 13 d)) else none
  | 17 => if -(2 ^ 20 : Int) ≤ d && d < (2 ^ 20 : Int) && d % 2 = 0 then some (4, 0xFFFFF000, jBits (ulow 21 d)) else none
  | 19 => if far then some (8, 0xFFF00000FFFFF000, relHi d * 2 ^ 12 + ulow 12 (relLo d) * 2 ^ 52) else none
  | 23 => if far then some (4, 0xFFFFF000, relHi d * 2 ^ 12) else none
  | 24 => pair.map (fun h => (4, 0xFFF00000, ulow 12 (relLo h) * 2 ^ 20))
  | _ => none

/-- n bytes with the fields of a mask replaced. -/
def patchNat (old mask new : Nat) : Nat := old - (old &&& mask) + new

/-- The offset that the high part at a place computes, for the low part that refers to it. -/
def pairOf (sites : List (RelocSite × Nat)) (a : Nat) : Option Int :=
  (sites.find? (fun e => e.1.offset = a && e.1.kind = 23)).map (fun e => (e.2 : Int) + e.1.addend - e.1.offset)

/-- An object's image with its sites patched: RELOC when a result is out of range. -/
def patchAll (base : Nat) (sites : List (RelocSite × Nat)) (img : List Byte) : Except Nat (List Byte) :=
  match foldOpt (fun img e =>
      let o := e.1.offset - base
      match relPatch e.1.kind e.1.offset ((e.2 : Int) + e.1.addend) (pairOf sites e.2) with
      | none => none
      | some (n, mask, new) =>
        if img.length < o + n then none
        else some (img.take o ++ leBytes n (patchNat (num img o n) mask new) ++ img.drop (o + n))) sites img with
  | none => .error cReloc
  | some img => .ok img

def mapE {α β : Type} (f : α → Except Nat β) : List α → Except Nat (List β)
  | [] => .ok []
  | a :: t =>
    match f a with
    | .error e => .error e
    | .ok b =>
      match mapE f t with
      | .error e => .error e
      | .ok l => .ok (b :: l)

/-- The relocated image and its sites, the globals of `old` bound to earlier definitions. -/
def relocate (e : Elf) (objs : List LoadedObj) (base : Nat) (old : List (List Byte)) : Except Nat (List Byte × List RelocSite) :=
  match mapE (relSite e objs base old) (e.relas.filter (fun r => (secAt e r.sec).isSome)) with
  | .error x => .error x
  | .ok sites =>
    match patchAll base sites (rawImage e) with
    | .error x => .error x
    | .ok img => .ok (img, sites.map (·.1))

/-! ### Kernels -/

/-- The kernels of a note, in its order; the promise is computed later. -/
def noteKernels (e : Elf) (base : Nat) (d : List Byte) : List Kernel :=
  (List.range (num d 2 2)).filterMap (fun i =>
    let o := 8 + 32 * i
    (e.syms[num d o 4]?).bind (fun y => (ownPlace e base y).map (fun a =>
      { entry := a, size := y.size, name := y.name, strands := num d (o + 4) 1, steps := bit (num d (o + 5) 1) 0
        claims := (List.range 8).map (fun c => num d (o + 6 + c) 1), segs := (kernelDecls d i).map (segDecl d), ordered := true })))

/-! ### The promise (R371) -/

/-- AMOs that are order-sensitive when their rd is not x0 (R124). -/
def amoRd (i : Instr) : Option (BitVec 5) :=
  match i with
  | .amoaddW rd _ _ _ _ => some rd
  | .amoaddD rd _ _ _ _ => some rd
  | .amoxorW rd _ _ _ _ => some rd
  | .amoxorD rd _ _ _ _ => some rd
  | .amoandW rd _ _ _ _ => some rd
  | .amoandD rd _ _ _ _ => some rd
  | .amoorW rd _ _ _ _ => some rd
  | .amoorD rd _ _ _ _ => some rd
  | .amominW rd _ _ _ _ => some rd
  | .amominD rd _ _ _ _ => some rd
  | .amomaxW rd _ _ _ _ => some rd
  | .amomaxD rd _ _ _ _ => some rd
  | .amominuW rd _ _ _ _ => some rd
  | .amominuD rd _ _ _ _ => some rd
  | .amomaxuW rd _ _ _ _ => some rd
  | .amomaxuD rd _ _ _ _ => some rd
  | _ => none

/-- The order-sensitive unordered forms that the scan counts (R124, R171, R290, R301, R347). -/
def unordered (i : Instr) : Bool :=
  match i with
  | .lrW _ _ _ _ => true
  | .lrD _ _ _ _ => true
  | .scW _ _ _ _ _ => true
  | .scD _ _ _ _ _ => true
  | .amoswapW _ _ _ _ _ => true
  | .amoswapD _ _ _ _ _ => true
  | .vamoadd f => !f.ord && tyFloat f.ty.toNat
  | .cpyred f => !f.ord
  | .sendM _ _ => true
  | .putx f => putSensitive false f
  | .putxadd f => putSensitive true f
  | _ => (amoRd i).elim false (fun rd => rd ≠ 0)

/-- Whether the parcel at an offset is the first of an order-sensitive instruction: `code` reads bytes of the code image, none where one of
them cannot be read. No byte beyond the instruction bears on it. One whose own bytes cannot all be read counts as none (assumption 135). -/
def unorderedAt (code : Nat → Nat → List Byte) (o : Nat) : Bool :=
  match parcelsOf (code o 4) with
  | [] => false
  | p :: _ =>
    match parcelCount p with
    | .error _ => false
    | .ok n =>
      match decodeWhole (parcelsOf (code o (4 * n))) with
      | .error _ => false
      | .ok i => unordered i

/-- The bodies of the code symbols that relocations inside some bodies name. -/
def namedBodies (objs : List LoadedObj) (bodies : List (Nat × Nat)) : List (Nat × Nat) :=
  (objs.flatMap (·.relocs)).filterMap (fun r =>
    if bodies.any (fun b => b.1 ≤ r.offset && r.offset < b.1 + b.2) then
      (if r.name = [] then r.target else ((globalDef objs r.name).filter (·.code)).map (fun y => (y.offset, y.size)))
    else none)

/-- The set C of R371, as bodies; `fuel` bounds its growth. -/
def closeBodies (objs : List LoadedObj) : Nat → List (Nat × Nat) → List (Nat × Nat)
  | 0, c => c
  | fuel + 1, c =>
    match ((namedBodies objs c).filter (fun b => !c.contains b)).eraseDups with
    | [] => c
    | l => closeBodies objs fuel (c ++ l)

/-- The promise of a kernel: whether it is ORDERED, every 4-byte-aligned parcel inside its bodies being decoded. `code` reads bytes of the
code image. -/
def promise (objs : List LoadedObj) (code : Nat → Nat → List Byte) (k : Kernel) : Bool :=
  let c := closeBodies objs ((objs.map (·.relocs.length)).foldl (· + ·) 0 + 1) [(k.entry, k.size)]
  c.all (fun b =>
    let first := (b.1 + 3) / 4 * 4
    (List.range ((b.1 + b.2 - first) / 4)).all (fun i => !unorderedAt code (first + 4 * i)))

/-- Every kernel's promise, computed anew. -/
def promises (s : State) (ctx : Nat) : State :=
  setContext s ctx (fun c =>
    let code (o n : Nat) : List Byte := (ctxRead s ctx (c.code + o) (min n (c.codeSize - o))).getD []
    { c with objects := c.objects.map (fun o => { o with kernels := o.kernels.map (fun k => { k with ordered := promise c.objects code k }) }) })

/-! ### LOAD and UNLOAD (R364, R369, R370) -/

/-- The located bytes of a range of the code image in device memory. -/
def codeLocs (s : State) (ctx : Nat) (c : Context) (off n : Nat) : Option (List Loc) :=
  match ctxLocs s ctx (c.code + off) n .load with
  | .error _ => none
  | .ok (ls, _) => if ls.any (fun l => l.1 ≠ .dev) then none else some ls

/-- The bytes that a global's body has in the code image, or in a new object's image. -/
def bodyOf (s : State) (ctx : Nat) (c : Context) (y : Symbol) : Option (List Byte) := ctxRead s ctx (c.code + y.offset) y.size

/-- Whether a new global may merge with an earlier one: identical bodies, and the same note entry (R370). -/
def sameBody (s : State) (ctx : Nat) (c : Context) (base : Nat) (img : List Byte) (ks : List Kernel) (old new : Symbol) : Bool :=
  let strip (k : Kernel) : Kernel := { k with entry := 0, ordered := true }
  decide (old.size = new.size) && bodyOf s ctx c old = some (sub img (new.offset - base) new.size) &&
  (kernelNamed c.objects old.name).map strip = (ks.find? (fun k => k.name = new.name)).map strip

/-- How the globals of a new object meet earlier ones: the names that bind to the earlier definition, or DUP_SYMBOL. -/
def meetGlobals (s : State) (ctx : Nat) (c : Context) (base : Nat) (img : List Byte) (ks : List Kernel) (ys : List Symbol) :
    Except Nat (List (List Byte)) :=
  (mapE (fun y =>
    match globalDef c.objects y.name with
    | none => .ok ([] : List Byte)
    | some o =>
      if o.weak && !y.weak then .ok ([] : List Byte)
      else if y.weak then .ok y.name
      else if sameBody s ctx c base img ks o y then .ok y.name
      else .error cDupSymbol) ys).map (fun l => l.filter (fun n => n ≠ []))

/-- Sites of loaded objects that name a global a new strong definition replaces are patched again (R370). -/
def rebind (s : State) (ctx : Nat) (c : Context) (objs : List LoadedObj) (names : List (List Byte)) : Except Nat State :=
  let value (r : RelocSite) : Nat := if r.name = [] then r.target.elim 0 (·.1) else (globalDef objs r.name).elim 0 (·.offset)
  let sites := (objs.flatMap (·.relocs)).map (fun r => (r, value r))
  match foldOpt (fun s e =>
      match relPatch e.1.kind e.1.offset ((e.2 : Int) + e.1.addend) (pairOf sites e.2) with
      | none => none
      | some (n, mask, new) =>
        match codeLocs s ctx c e.1.offset n with
        | none => none
        | some ls => some (writeLocs s ls (leBytes n (patchNat (leNat (ls.map (fun l => peek s l.1 l.2))) mask new))))
    (sites.filter (fun e => names.contains e.1.name || (e.1.kind = 24 && sites.any (fun h => h.1.kind = 23 && h.1.offset = e.2 && names.contains h.1.name)))) s with
  | none => .error cReloc
  | some s1 => .ok s1

/-- The cached instruction lines of a context leave every core: what the host loads is fetched anew (R329). -/
def dropLines (s : State) (ctx : Nat) : State :=
  { s with cores := s.cores.map (fun e => (e.1, { e.2 with icache := e.2.icache.filter (fun l => l.ctx ≠ ctx) })) }

/-- Whether the object has an undefined global that no loaded object defines, whether a relocation names it or not (R364). -/
def undefinedGlobal (e : Elf) (objs : List LoadedObj) : Bool :=
  e.syms.any (fun y => y.global && decide (y.shndx = 0) && (globalDef objs y.name).isNone)

/-- The whole of LOAD: the state and the object's handle, or a status. -/
def loadElf (s : State) (ctx : Nat) (b : List Byte) : Except Nat (State × Nat) :=
  match contextOf s ctx, parseElf b with
  | none, _ => .error cBadCtx
  | _, .error x => .error x
  | some c, .ok e =>
    match noteDesc e with
    | .error x => .error x
    | .ok d =>
      match noteOk e d with
      | .error x => .error x
      | .ok _ =>
        let size := (layout e).2
        match codeGap c size (objAlign e) with
        | none => .error cNoSpace
        | some base =>
          let ys := ownGlobals e base
          let ks := noteKernels e base d
          match if undefinedGlobal e c.objects then .error cUndefSymbol else relocate e c.objects base [] with
          | .error x => .error x
          | .ok (img0, _) =>
            match meetGlobals s ctx c base img0 ks ys with
            | .error x => .error x
            | .ok old =>
              match relocate e c.objects base old, codeLocs s ctx c base size with
              | .error x, _ => .error x
              | _, none => .error cNoSpace
              | .ok (img, sites), some ls =>
                let o : LoadedObj := { handle := s.nextHandle, base := base, size := size, kernels := ks
                                       symbols := ys.filter (fun y => !old.contains y.name), relocs := sites }
                let taken := (ys.filter (fun y => !old.contains y.name && (globalDef c.objects y.name).isSome)).map (·.name)
                match rebind (writeLocs { s with nextHandle := s.nextHandle + 1 } ls img) ctx c (c.objects ++ [o]) taken with
                | .error x => .error x
                | .ok s1 => .ok (dropLines (promises (setContext s1 ctx (fun c => { c with objects := c.objects ++ [o] })) ctx) ctx, s.nextHandle)

/-- What a LOAD that fails leaves in the logs: the failed walk of its range of the code image (R332). -/
def noteLoad (s : State) (ctx : Nat) (b : List Byte) : State :=
  match contextOf s ctx, parseElf b with
  | some c, .ok e => (codeGap c (layout e).2 (objAlign e)).elim s (fun base => noteWalk s ctx (c.code + base) (layout e).2 .load)
  | _, _ => s

/-- Whether a launch has a kernel of an object and is not complete: one that has reached the front of its queue and is still to be started
is known by its record (R364). -/
def usesObject (s : State) (r : Run) (handle : Nat) : Bool :=
  match r.stage with
  | .done => false
  | .queued => !r.cancelled && (readRecord s r).any (fun v => recField v 0 4 = handle && (kernelAt s r.ctx handle (recField v 4 2)).isSome)
  | _ => r.handle = handle

/-- UNLOAD: BUSYOBJ while a kernel of the object is in an incomplete launch. References to its symbols stay as they are patched
(assumption 131). -/
def unloadElf (s : State) (ctx handle : Nat) : Except Nat State :=
  match contextOf s ctx with
  | none => .error cBadCtx
  | some c =>
    if !c.objects.any (fun o => o.handle = handle) then .error cBadCmd
    else if s.runs.any (fun r => r.ctx = ctx && usesObject s r handle) then .error cBusyObj
    else
      .ok (dropLines (promises (setContext s ctx (fun c => { c with objects := c.objects.filter (fun o => o.handle ≠ handle) })) ctx) ctx)

end Sys2Proof.Machine
end

