-- ==== Sys2Proof/Machine/Package.lean ====
section
/-! DEFINITION. The package's own events: stores that register, host writes, soft errors and hard faults, boot, clocks
(spec/17 R317, spec/08 R205, R206, spec/20 R391 to R394). -/

namespace Sys2Proof.Machine

/-- Whether the host reaches the device: the CXL link is up once STATE is READY (R393), and nothing runs after FAILED. -/
def hostReady (s : State) : Bool := s.status = 1

/-- STORE_REGISTER (R317): the oldest pending store of a core. -/
def execStoreRegister (core : Nat) (s : State) : Host.Outcome State Fault Refusal := runEvent (coreOk core) (registerOne s core)

/-- HOST_MEM_WRITE (R317, R362): bytes of host-managed device memory, owner NONE with a revoke; a write marked poisoned
poisons its words. -/
def execHostMemWrite (pa : Nat) (data : List Byte) (poisoned : Bool) (s : State) : Host.Outcome State Fault Refusal :=
  runEvent (decide (pa + data.length ≤ Config.deviceBytes)) (
    let s1 := writeHome s .dev pa data
    if !hostReady s then s else if poisoned then poison s1 .dev pa data.length else s1)

/-! ### Soft errors (R205, R391) -/

/-- The source numbers of R211 and R390. -/
def sourceOk (src : Nat) : Bool :=
  if src < 6144 then decide (src % 16 < 13)
  else src < 6154 || (6160 ≤ src && src < 6184) || (6192 ≤ src && src < 6234) || src = 6240

/-- ECC_CORRECTED (R205, R391): fixed and logged; nothing else changes. -/
def execEccCorrected (src : Nat) (addr : Word) (s : State) : Host.Outcome State Fault Refusal :=
  runEvent (sourceOk src) (logEvent s { gtc := 0, src := src, kind := 2, addr := addr.toNat })

/-- An event record of an uncorrectable error. -/
def logBad (s : State) (src addr : Nat) : State := logEvent s { gtc := 0, src := src, kind := 3, addr := addr }

/-- Whether the package has the storage that an error strikes. -/
def siteOk : ErrorSite → Bool
  | .device pa => pa < 1536 * 2 ^ 30
  | .host _ => true
  | .scratchpad core off => coreOk core && decide (off < Config.spadBytes)
  | .weights cl off => clusterOk cl && decide (off < Config.wbufBytes)
  | .l1Line core _ => coreOk core
  | .icacheLine core _ => coreOk core
  | .register _ => true
  | .saveBuffer _ => true
  | .slotStore cl slot => clusterOk cl && decide (slot < 8)

/-- A save of a strand that meets an uncorrectable error aborts (R204). -/
def saveError (s : State) (t : Strand) : State := if t.saving.isSome then abortSave s t 0 else s

/-- An uncorrectable error in a register traps the strand whose instruction reads it, before any effect, or aborts the save that reads
it (R204, R205). -/
def registerError (s : State) (k : StrandKey) : State :=
  match findStrand s k with
  | none => s
  | some t =>
    let s1 := logStrand s (coreSource t.core) 3 cMachine k 0
    if t.saving.isSome then saveError s1 t
    else if t.life = .running then takeTrap s1 k { cause := cMachine }
    else s

/-- An uncorrectable error in the buffers of the save engine (R204, R205). -/
def bufferError (s : State) (k : StrandKey) : State :=
  match findStrand s k with
  | none => s
  | some t => if t.saving.isSome then saveError (logStrand s (coreSource t.core) 3 cMachine k 0) t else s

/-- ECC_UNCORRECTED (R205, R260, R391): data is poisoned; an L1 line becomes I; a slot's error waits for its next unit. ADDR of a record of
storage that has no package-wide address is the byte's position in its unit (assumption 67). -/
def execEccUncorrected (site : ErrorSite) (s : State) : Host.Outcome State Fault Refusal :=
  runEvent (siteOk site) (match site with
    | .device pa => logBad (poison s .dev pa 1) (Config.homeSource pa) pa
    | .host pa => logBad (poison s .host pa 1) hostSource pa
    | .scratchpad core off => logBad (poison s .spad (core * Config.spadBytes + off) 1) (coreSource core) off
    | .weights cl off => logBad (poison s .wbuf (cl * Config.wbufBytes + off) 1) (unitSource cl 12) off
    | .l1Line core line =>
      logBad (setCore s core (fun c => c.evict line)) (coreSource core) (32 * line)
    | .icacheLine core line =>
      logBad (setCore s core (fun c => { c with icache := c.icache.filter (fun l => decide (l.line ≠ line)) })) (coreSource core) (64 * line)
    | .register k => registerError s k
    | .saveBuffer k => bufferError s k
    | .slotStore cl slot => setCluster s cl (fun c => { c with slots := tmod {} c.slots slot (fun x => { x with bad := true }) }))

/-! ### Hard faults (R206, R392) -/

/-- A strand of a failed core: FROZEN with MACHINE, its packet at the die manager. What it waited on is abandoned. -/
def failStrand (core : Nat) (s : State) (t : Strand) : State :=
  let tr : Trap := { cause := cMachine }
  escalate (setStrand (clearSaving (abandon s t) t) t.key (fun u => freeze s u tr)) core (packetOf s t tr)

/-- CORE_FAILED (R206). -/
def execCoreFailed (core : Nat) (s : State) : Host.Outcome State Fault Refusal :=
  runEvent (coreOk core) (
    if (coreOf s core).failed then s
    else
      let s1 := setCore s core (fun c => { c with failed := true, outq := [] })
      (s1.strands.filter (fun t => t.core = core && onCore t)).foldl (failStrand core) s1)

/-- The clusters that die-to-die link i joins (R360): 8 links between dies 0 and 1, 8 between 2 and 3, 12 between 0 and 2, 12
between 1 and 3. -/
def linkEnds (i : Nat) : Nat × Nat :=
  let c := Config.clusters
  if i < 8 then (12 * i + 11, c + 12 * i)
  else if i < 16 then (2 * c + 12 * (i - 8) + 11, 3 * c + 12 * (i - 8))
  else if i < 28 then (84 + (i - 16), 2 * c + (i - 16))
  else (c + 84 + (i - 28), 3 * c + (i - 28))

/-- The other ends of the die-to-die links of a cluster that have failed replay 16 times running (R392). -/
def failedLinks (s : State) (cl : Nat) : List Nat :=
  ((List.range 40).filter (fun i => decide (16 ≤ tget 0 s.d2d i))).filterMap (fun i =>
    let e := linkEnds i
    if e.1 = cl then some e.2 else if e.2 = cl then some e.1 else none)

/-- A cluster has a hard fault to answer for: a failed core, MACHINE on eight steps within 2^20 cycles, or the end of a failed
die-to-die link (R392). -/
def hardFaulty (s : State) (cl : Nat) : Bool :=
  let cycle := (dieOf s (dieOfCluster cl)).cycles
  !(failedLinks s cl).isEmpty || (List.range Config.cores).any (fun i => (coreOf s (cl * Config.cores + i)).failed) ||
  decide (8 ≤ ((clusterOf s cl).machine.filter (fun c => decide (cycle < c + 2 ^ 20))).length)

/-- STATE's mask: a die is in service while one of its clusters is. -/
def upMask (s : State) : BitVec 4 :=
  BitVec.ofNat 4 (((List.range Config.dies).map (fun d =>
    if (List.range Config.clusters).any (fun c => !(clusterOf s (d * Config.clusters + c)).outOfService) then 2 ^ d else 0)).foldl (· + ·) 0)

/-- The launches with a strand in a cluster. -/
def launchesIn (s : State) (cl : Nat) : List Nat :=
  ((s.strands.filter (fun t => onCore t && clusterOfStrand t = cl)).map (·.key.run)).eraseDups

/-- The jobs that have a part in some launches. -/
def jobsOf (s : State) (runs : List Nat) : List Job :=
  s.jobs.filter (fun j => j.isSet && runs.any (fun n => (runOf s n).ctx = j.ctx && (runOf s n).jobid = j.id))

/-- A cluster goes out of service whole: the launches with a crew there end with FAULT, their postings being discarded (assumption 54), and
the other members of their jobs hear of it (R418). The shards in its weight buffer are lost. -/
def loseCluster (s : State) (cl : Nat) : State :=
  if (clusterOf s cl).outOfService then s
  else
    let src := dieSource (dieOfCluster cl)
    let s1 := setCluster s cl (fun c => { c with outOfService := true })
    let s2 := packageEvent { s1 with diesUp := upMask s1, shards := s1.shards.filter (fun h => h.cluster ≠ cl) } { gtc := 0, src := src, kind := 9, addr := cl }
    let s3 := (launchesIn s cl).foldl (fun s r => endRun s r stHardFault src) s2
    (jobsOf s3 (launchesIn s cl)).foldl (fun s j => tellMembers s j .lost) s3

/-- A flit has passed on a die-to-die link, or its replay has failed; the 16th failure running is a hard fault of both its edge
clusters (R392). -/
def dieLinkReplay (s : State) (i : Nat) (ok : Bool) : State :=
  if 40 ≤ i then s
  else
    let n := if ok then 0 else tget 0 s.d2d i + 1
    let s1 : State := { s with d2d := tset 0 s.d2d i n }
    if n = 16 then [(linkEnds i).1, (linkEnds i).2].foldl loseCluster s1 else s1

/-- The die manager's answer to a hard fault: the cluster, and the other edge cluster of a failed link, go out of service (R392). -/
def answerHardFault (s : State) (cl : Nat) : State :=
  if (clusterOf s cl).outOfService || !hardFaulty s cl then s else (cl :: failedLinks s cl).foldl loseCluster s

/-- HARD_FAULT (R392). -/
def execHardFault (cl : Nat) (s : State) : Host.Outcome State Fault Refusal := runEvent (clusterOk cl) (answerHardFault s cl)

/-! ### Boot, clocks and power (R393, R394) -/

/-- What firmware installs on a die. -/
def bootDie (fw : Firmware) (d : Nat) (s : State) : State :=
  setDie s d (fun x => { x with dwinBase := fw.dwinBase.getD d 0, handlerRoot := fw.handlerRoot.getD d 0, saveTable := fw.saveTable.getD d 0 })

/-- The five steps of R393 that end in READY, in order: the boot ROM's check, the firmware that is verified and started, training, the
tests of the clusters, and the CXL link. -/
def bootSteps (fw : Firmware) : List (State → State) :=
  [id,
   fun s => fw.image.foldl (fun s e => writeHome s .dev e.1 e.2) (forUpTo Config.dies s (bootDie fw)),
   id,
   fun s => fw.outOfService.foldl (fun s c => setCluster s c (fun x => { x with outOfService := true })) s,
   fun s => { s with status := 1, diesUp := upMask s }]

/-- BOOT (R393): the steps up to the one that fails, which sets FAILED, or all of them. -/
def execBoot (fw : Firmware) (s : State) : Host.Outcome State Fault Refusal :=
  runEvent (fw.outOfService.all clusterOk) (
    if s.status ≠ 0 then s
    else
      match fw.failed with
      | some n => { ((bootSteps fw).take (n - 1)).foldl (fun s f => f s) s with status := 2 }
      | none => (bootSteps fw).foldl (fun s f => f s) s)

/-- THROTTLE (R394): CLKA of a die runs from 1.2 GHz to 2.7 GHz in steps of 50 MHz. It changes time only. -/
def execThrottle (die mhz : Nat) (s : State) : Host.Outcome State Fault Refusal :=
  runEvent (decide (die < Config.dies)) (
    if 1200 ≤ mhz && mhz ≤ 2700 && mhz % 50 = 0 then setDie s die (fun d => { d with mhz := mhz }) else s)

/-- THERMAL_TRIP (R394): every clock stops, the host sees FAILED, and the package's vector is raised. -/
def execThermalTrip (s : State) : Host.Outcome State Fault Refusal := .next (raiseVector { s with status := 2 } packageVector)

end Sys2Proof.Machine
end

