-- ==== Sys2Proof/Machine/HostPort.lean ====
section
/-! DEFINITION. The host port: BAR0, command blocks, doorbells and jobs (spec/20 R363 to R366, spec/21 R402 to R405). -/

namespace Sys2Proof.Machine

/-! ### Doorbells (R366) -/

/-- The BAR0 offset of a doorbell. -/
def doorbellOffset (ctx q : Nat) : Nat := 0x10000 + 8 * (64 * ctx + q)

/-- A doorbell write: a stopped queue reads its packet again; an index out of range leaves the tail. -/
def ringDoorbell (s : State) (ctx q : Nat) (v : Word) : State :=
  if !queueExists s ctx q then logEvent s { gtc := 0, src := hostSource, kind := 10, addr := doorbellOffset ctx q }
  else
    let t := v.toNat % 2 ^ 32
    putQueue s ctx q (fun x =>
      let y := { x with stopped := false }
      if Config.ringPackets < idxSub t x.tail || Config.ringPackets < idxSub t x.head then y else { y with tail := t })

/-- DOORBELL. -/
def execDoorbell (ctx q : Nat) (v : Word) (s : State) : Host.Outcome State Fault Refusal :=
  runEvent (queueOk ctx q) (if hostReady s then ringDoorbell s ctx q v else s)

/-! ### Command blocks (R364, R402) -/

/-- A command ends. -/
def endCommand (s : State) (status result : Nat) : State :=
  { s with cmdBusy := false, cmdStatus := status, cmdResult := result % 2 ^ 32 }

/-- The fields of a command block. -/
def cmdOp (v : Nat) : Nat := fld v 7 0
def cmdCtx (v : Nat) : Nat := fld v 15 8

/-- Where the operands of a command end; none for a reserved OP. -/
def cmdEnd (op : Nat) : Option Nat :=
  match op with
  | 1 => some 64
  | 2 => some 8
  | 3 => some 24
  | 4 => some 12
  | 5 => some 13
  | 16 => some 28
  | 17 => some 12
  | 18 => some 12
  | _ => none

/-- Whether the reserved bytes and bits of a block are zero. -/
def cmdClean (v : Nat) : Bool :=
  let op := cmdOp v
  match cmdEnd op with
  | none => false
  | some e => v >>> (8 * e) = 0 && fld v 63 32 = 0 && (if op = 1 then decide (fld v 23 18 = 0) else decide (fld v 31 16 = 0)) &&
              (op ≠ 16 || fld v 127 96 = 0)

/-- The event that carries out a command. -/
def cmdEvent (op : Nat) : Instr :=
  match op with
  | 1 => .createContext
  | 2 => .destroyContext
  | 3 => .loadObject
  | 4 => .unloadObject
  | 5 => .faultAct
  | 16 => .jobset
  | 17 => .jobclose
  | _ => .jobcancel

/-- CMDGO: the block is read; a reserved OP, a reserved byte or a context above 15 ends it at once. -/
def startCommand (s : State) : State :=
  let a := s.cmdAddr.toNat
  let v := peekNat s .host a 64
  if poisoned s .host a 64 || !cmdClean v then endCommand s cBadCmd 0
  else if 15 < cmdCtx v then endCommand s cBadCtx 0
  else { s with cmdBusy := true, cmdStatus := 0, cmdResult := 0, cmdBlock := v, due := s.due ++ [cmdEvent (cmdOp v)] }

/-- A command's event acts while its block is under way: `f` gets the block. All but CREATE need the context. -/
def atCommand (s : State) (op : Nat) (f : Nat → State) : State :=
  let v := s.cmdBlock
  if !s.cmdBusy || cmdOp v ≠ op then s
  else if op ≠ 1 && (contextOf s (cmdCtx v)).isNone then endCommand s cBadCtx 0
  else f v

/-! ### CREATE and DESTROY (R364, R365) -/

/-- A context descriptor, from the block. -/
def contextFrom (v : Nat) : Context :=
  let w (i : Nat) : Nat := fld v (64 * i + 127) (64 * i + 64)
  { root := w 0, code := w 1, codeSize := w 2, mani := w 3, maniSize := w 4, save := w 5, saveSize := w 6
    level := fld v 17 16, queues := List.replicate (fld v 31 24) {} }

/-- The limits of R365. -/
def contextOk (c : Context) : Bool :=
  c.root % 2 ^ 22 = 0 && c.code % 2 ^ 19 = 0 && c.codeSize % 2 ^ 19 = 0 && decide (c.codeSize ≤ 2 ^ 30) && c.mani % 32 = 0 &&
  c.maniSize % 32 = 0 && (c.maniSize = 0 || decide (2 ^ 26 ≤ c.maniSize)) && c.save % 64 = 0 && decide (c.level < 3) &&
  decide (1 ≤ c.queues.length) && decide (c.queues.length ≤ 64) && !(c.level = 2 && c.maniSize = 0)

/-- CREATE (R365). -/
def execCreateContext (s : State) : Host.Outcome State Fault Refusal :=
  .next (atCommand s 1 (fun v =>
    let n := cmdCtx v
    if (contextOf s n).isSome || !contextOk (contextFrom v) then endCommand s cBadCtx 0
    else endCommand { s with contexts := tins s.contexts n (some (contextFrom v)) } 0 0))

/-- Runs and graphs of a context that have not completed. -/
def openRuns (s : State) (ctx : Nat) : List Nat := (List.range s.runs.length).filter (fun r => (runOf s r).ctx = ctx && decide ((runOf s r).stage ≠ .done))
def openGraphs (s : State) (ctx : Nat) : List Nat :=
  (List.range s.graphs.length).filter (fun g => (graphAt s g).ctx = ctx && !(graphAt s g).done)

/-- A packet that has not started when its context is destroyed: a LAUNCH, GRAPH or STAGE completes CANCELLED, any other never
starts (R364, R377). -/
def cancelPacketAt (s : State) (ctx q i : Nat) : State :=
  match readPacket s ctx q i with
  | none => s
  | some v =>
    if fld v 7 0 = 1 || fld v 7 0 = 2 || fld v 7 0 = 6 then
      packetDone (countUp s ctx (packetCounter v) stCancel (packetTag v)) ctx q i (packetIrq v)
    else s

/-- The packets of a queue that have not started. -/
def cancelQueued (s : State) (ctx q : Nat) : State :=
  let x := queueAt s ctx q
  let waiting := ((List.range (idxSub x.tail x.next)).map (fun n => idxAdd x.next n)).filter (fun i => !x.finished.contains i)
  putQueue (waiting.foldl (fun s i => cancelPacketAt s ctx q i) s) ctx q (fun x => { x with next := x.tail, hold := none })

/-- Everything of a context is cancelled. -/
def cancelContext (s : State) (ctx : Nat) : State :=
  let s1 := (List.range ((contextOf s ctx).elim 0 (·.queues.length))).foldl (fun s q => cancelQueued s ctx q) s
  let s2 := ((openGraphs s1 ctx).filter (fun g => !(graphAt s1 g).ending)).foldl (fun s g => graphCheck (cancelGraph s g hostSource) g) s1
  ((openRuns s2 ctx).filter (fun r => !(runOf s2 r).cancelled)).foldl (fun s r => endRun s r stCancel hostSource) s2

/-- A context is freed, with its images, its decoder tables, its holdings, its jobs and its cached translations and lines; what its launches
used of a manifest's records bears on no later context (R388). -/
def freeContext2 (s : State) (ctx : Nat) : State :=
  let s1 := (s.retained.filter (fun h => h.ctx = ctx)).foldl dropRetained s
  let s2 := dropTlbs s1 ctx
  { s2 with
    contexts := tdel s2.contexts ctx
    shards := s2.shards.filter (fun h => h.ctx ≠ ctx)
    jobs := s2.jobs.filter (fun j => j.ctx ≠ ctx)
    runs := s2.runs.map (fun r => if r.ctx = ctx then { r with replay := none, served := [] } else r)
    clusters := s2.clusters.map (fun e => (e.1, { e.2 with
      ctxTables := tdel e.2.ctxTables ctx
      tables := if e.2.tablesCtx = some ctx then [] else e.2.tables
      tablesCtx := if e.2.tablesCtx = some ctx then none else e.2.tablesCtx }))
    cores := s2.cores.map (fun e => (e.1, { e.2 with
      icache := e.2.icache.filter (fun l => l.ctx ≠ ctx), hints := e.2.hints.filter (fun h => h.ctx ≠ ctx) })) }

/-- DESTROY (R364): it waits for the context's launches and graphs to complete. -/
def execDestroyContext (s : State) : Host.Outcome State Fault Refusal :=
  .next (atCommand s 2 (fun v =>
    let n := cmdCtx v
    let s1 := cancelContext s n
    if (openRuns s1 n).isEmpty && (openGraphs s1 n).isEmpty then endCommand (freeContext2 s1 n) 0 0 else s1))

/-! ### LOAD and UNLOAD (R364, R369) -/

/-- LOAD: the image at a device physical address. -/
def execLoadObject (s : State) : Host.Outcome State Fault Refusal :=
  .next (atCommand s 3 (fun v =>
    let a := fld v 127 64
    let n := fld v 191 128
    if Config.deviceBytes < a + n then endCommand s cBadCmd 0
    else if poisoned s .dev a n then endCommand s cBadElf 0
    else
      match loadElf s (cmdCtx v) (peekN s .dev a n) with
      | .error e => endCommand (noteLoad s (cmdCtx v) (peekN s .dev a n)) e 0
      | .ok (s1, h) => endCommand s1 0 h))

/-- UNLOAD. -/
def execUnloadObject (s : State) : Host.Outcome State Fault Refusal :=
  .next (atCommand s 4 (fun v =>
    match unloadElf s (cmdCtx v) (fld v 95 64) with
    | .error e => endCommand s e 0
    | .ok s1 => endCommand s1 0 0))

/-! ### FAULTACT (R364, R386) -/

/-- FAULTACT: an escalated FROZEN strand resumes or ends, as by STRES or STKILL. -/
def execFaultAct (s : State) : Host.Outcome State Fault Refusal :=
  .next (atCommand s 5 (fun v =>
    let die := fld v 79 64
    if Config.dies ≤ die || Config.dieStrands ≤ fld v 95 80 || 1 < fld v 103 96 then endCommand s cBadCmd 0
    else
      match physStrand s die (fld v 95 80) with
      | none => endCommand s cBadCmd 0
      | some t =>
        if t.life = .frozen && t.escalated then
          endCommand (if fld v 103 96 = 0 then thaw s t else kill s t) 0 0
        else endCommand s cBadCmd 0))

/-! ### Jobs (R402 to R405) -/

/-- A job table: none when it breaks R403. -/
def jobFrom (s : State) (ctx : Nat) (bs : List Byte) : Option Job :=
  let npkg := num bs 4 2
  let ngrp := num bs 8 2
  let addrs := (sub bs 32 npkg).map (·.toNat)
  let groups := (List.range ngrp).map (fun g => BitVec.ofNat 256 (num bs (288 + 32 * g) 32))
  if 1 ≤ npkg && npkg ≤ 256 && num bs 6 2 < npkg && 1 ≤ ngrp && ngrp ≤ 4096 && bs.length = 288 + 32 * ngrp && num bs 10 6 = 0 &&
     num bs 28 4 = 0 && (sub bs (32 + npkg) (256 - npkg)).all (fun b => decide (b = 0)) && addrs.eraseDups.length = npkg &&
     groups.all (fun g => g ≠ 0 && decide (g.toNat < 2 ^ npkg)) then
    some { ctx := ctx, id := num bs 0 4, npkg := npkg, rank := num bs 6 2, ngrp := ngrp, counter := num bs 16 8, ctimeout := num bs 24 4
           addrs := addrs, groups := groups, agreed := [(num bs 6 2, s.gtc)], since := s.gtc }
  else none

/-- A job that is set, or whose JOBSET is under way. -/
def jobOpen (j : Job) : Bool := j.isSet || !j.agreed.isEmpty
def jobNamed (s : State) (ctx id : Nat) : Option Job := s.jobs.find? (fun j => j.ctx = ctx && j.id = id && jobOpen j)
def putJob (s : State) (ctx id : Nat) (f : Job → Job) : State :=
  { s with jobs := s.jobs.map (fun j => if j.ctx = ctx && j.id = id then f j else j) }
def dropJob (s : State) (ctx id : Nat) : State := { s with jobs := s.jobs.filter (fun j => !(j.ctx = ctx && j.id = id)) }

/-- Port sets that the package's jobs hold. -/
def setsHeld (s : State) : Nat := ((s.jobs.filter (·.isSet)).map (·.ngrp)).foldl (· + ·) 0

/-- Whether news belongs to the setting of a job's table; all other news is of a job that is set. -/
def ofSetting : Config.MemberNews → Bool
  | .same _ => true
  | .differs _ => true
  | .noSets _ => true
  | .unset _ => true
  | _ => false

/-- What arrived flits say of a job, while it is being set or after: member ranks with their news. -/
def jobNews (s : State) (j : Job) (setting : Bool) : List (Nat × Config.MemberNews) :=
  (inboxes s).filterMap (fun f =>
    match Config.flitMember f.payload with
    | (_, _, _, .none) => none
    | (ctx, id, r, n) => if ctx = j.ctx && id = j.id && ofSetting n == setting then some (r, n) else none)

/-- Those flits are consumed. -/
def consumeNews (s : State) (j : Job) (setting : Bool) : State :=
  consume s (fun f =>
    match Config.flitMember f.payload with
    | (_, _, _, .none) => false
    | (ctx, id, _, n) => ctx = j.ctx && id = j.id && ofSetting n == setting)

/-- What has arrived of a job's collective instances is dropped. -/
def consumeColls (s : State) (j : Job) : State :=
  consume s (fun f => (Config.flitColl f.payload).1.1 = j.ctx && (Config.flitColl f.payload).1.2.1 = j.id)

/-- The ports of a group: the fabric addresses of its members (R403). -/
def portsOf (j : Job) (mask : BitVec 256) : BitVec 256 :=
  BitVec.ofNat 256 ((((List.range j.npkg).filter (fun r => mask.getLsbD r)).map (fun r => 2 ^ j.addrs.getD r 0)).foldl (· + ·) 0)

/-- The management flits that program a job's port sets on every plane, or free them (R399, R402, R403): on a link that is not trained
they wait for its training. -/
def manageSets (s : State) (j : Job) (on : Bool) : State :=
  forUpTo 36 s (fun l s => j.groups.zipIdx.foldl (fun s g =>
    queueFlit s l (flitOf flitManage (Config.setPayload j.id g.2 (portsOf j g.1) on))) s)

/-- A job is set: one port set for each group on every plane. -/
def programSets (s : State) (j : Job) : State :=
  forUpTo 36 (manageSets s j true) (fun l s => putLink s l (fun x =>
    { x with sets := x.sets ++ j.groups.zipIdx.map (fun g => (j.ctx, j.id, g.2, portsOf j g.1)) }))

/-- A job's port sets are freed on every plane (R402). -/
def freeSets (s : State) (j : Job) : State :=
  forUpTo 36 (manageSets s j false) (fun l s => putLink s l (fun x =>
    { x with sets := x.sets.filter (fun e => !(e.1 = j.ctx && e.2.1 = j.id)) }))

/-- A job is set on every member: JOBSET ends. The launches that have completed belong to none. -/
def jobIsSet (s : State) (j : Job) : State :=
  let past := (List.range s.runs.length).filter (fun r => decide ((runOf s r).stage = .done))
  endCommand (programSets (putJob s j.ctx j.id (fun j => { j with isSet := true, past := past })) j) 0 0

/-- A JOBSET that fails leaves nothing of the job, and the other members are told. -/
def failJob (s : State) (j : Job) (status : Nat) : State :=
  endCommand (dropJob (tellMembers s j (.unset s.gtc)) j.ctx j.id) status 0

/-- A new JOBSET: the table is read and checked. A package that no trained link joins to the domain takes part in no job (R398,
assumption 79). -/
def startJob (s : State) (ctx id : Nat) (v : Nat) : State :=
  let a := fld v 191 128
  let n := fld v 223 192
  if Config.deviceBytes < a + n then endCommand s cBadCmd 0
  else if poisoned s .dev a n then endCommand s cBadJob 0
  else
    match jobFrom s ctx (peekN s .dev a n) with
    | none => endCommand s cBadJob 0
    | some j =>
      if j.id ≠ id || (upLinks s).isEmpty then endCommand s cBadJob 0
      else if 4096 < setsHeld s + Config.otherSets s.steps + j.ngrp then endCommand (tellMembers s j (.noSets s.gtc)) cNoSets 0
      else
        let s1 := consumeColls (consumeNews (dropJob s ctx id) j false) j
        let s2 := tellMembers { s1 with jobs := s1.jobs ++ [j] } j (.same s.gtc)
        if j.npkg = 1 then jobIsSet s2 j else s2

/-- What members say of their tables, as far as it bears on a JOBSET that began at `own`: news of a JOBSET that began 1 s or more earlier,
or that has failed since, does not (R402, assumption 122). -/
def settingNews (news : List (Nat × Config.MemberNews)) (own : Nat) : List (Nat × Config.MemberNews) :=
  let failed (r g : Nat) : Bool := news.any (fun e => match e.2 with
    | .unset a => decide (e.1 = r ∧ g ≤ a)
    | .noSets a => decide (e.1 = r ∧ g ≤ a)
    | _ => false)
  news.filter (fun e => match e.2 with
    | .same g => decide (own < g + 10 ^ 9) && !failed e.1 g
    | .differs g => decide (own < g + 10 ^ 9) && !failed e.1 g
    | .noSets a => decide (own ≤ a)
    | _ => false)

/-- A JOBSET under way: it ends when every member has set an identical table within 1 s of the first, or one a different table or too late,
or one met NOSETS since it began, or the time has passed and, of what has arrived, a member's table is still missing (R402). -/
def awaitJob (s : State) (j : Job) : State :=
  let own := (j.agreed.find? (fun e => e.1 = j.rank)).elim s.gtc (·.2)
  let news := settingNews (jobNews s j true) own
  let all := news.foldl (fun acc e => match e.2 with
    | .same g => acc.filter (fun x => x.1 ≠ e.1) ++ [(e.1, g)]
    | _ => acc) [(j.rank, own)]
  let first := (all.map (·.2)).foldl min s.gtc
  let differs := news.any (fun e => match e.2 with
    | .differs _ => true
    | _ => false)
  let noSets := news.any (fun e => match e.2 with
    | .noSets _ => true
    | _ => false)
  if differs then failJob s j cBadJob
  else if noSets then failJob s j cNoSets
  else if all.any (fun e => decide (first + 10 ^ 9 ≤ e.2)) then failJob s j cBadJob
  else
    let s1 := putJob s j.ctx j.id (fun j => { j with agreed := all, since := first })
    if (List.range j.npkg).all (fun r => all.any (fun e => e.1 = r)) then jobIsSet (consumeNews s1 j true) j
    else if first + 10 ^ 9 ≤ s.gtc then failJob s j cBadJob else s1

/-- JOBSET (R402): it stays under way until every member has set an identical table. -/
def execJobset (s : State) : Host.Outcome State Fault Refusal :=
  .next (atCommand s 16 (fun v =>
    let n := cmdCtx v
    let id := fld v 95 64
    match jobNamed s n id with
    | none => startJob s n id v
    | some j => if j.isSet then endCommand s cBadJob 0 else awaitJob s j))

/-- JOBSET_TIMEOUT (R402): 1 s after the first table, unless the news that has arrived shows every member's. -/
def execJobsetTimeout (job : Nat) (s : State) : Host.Outcome State Fault Refusal :=
  .next (atCommand s 16 (fun v =>
    match jobNamed s (cmdCtx v) job with
    | none => s
    | some j =>
      if j.isSet || fld v 95 64 ≠ job || s.gtc < j.since + 10 ^ 9 then s else awaitJob s j))

/-- The job that a command names, when it is set. -/
def atJob (s : State) (op : Nat) (f : Job → State) : State :=
  atCommand s op (fun v =>
    match jobNamed s (cmdCtx v) (fld v 95 64) with
    | none => endCommand s cBadJob 0
    | some j => if j.isSet then f j else endCommand s cBadJob 0)

/-- A job is closed: launches whose packets are visible now still start (R402, R419, assumption 97). -/
def closeJob (s : State) (j : Job) : State :=
  let tails := (contextOf s j.ctx).elim [] (fun c => c.queues.map (·.tail))
  putJob s j.ctx j.id (fun j => if j.closed then j else { j with closed := true, closedAt := tails })

/-- JOBCLOSE (R402). -/
def execJobclose (s : State) : Host.Outcome State Fault Refusal :=
  .next (atJob s 17 (fun j =>
    let s1 := endCommand (closeJob s j) 0 0
    { s1 with due := s1.due ++ [.jobComplete j.id] }))

/-- Whether a launch, or a graph, was visible before its job was closed, or its job is open still. -/
def inTime (j : Job) (q i : Nat) : Bool := !j.closed || beforeClose j q i

/-- The launches of a job, and those that have not completed. -/
def jobRuns (s : State) (j : Job) : List Nat :=
  (List.range s.runs.length).filter (fun n =>
    let r := runOf s n
    r.ctx = j.ctx && !j.past.contains n && (runIds s n).2 = j.id && inTime j (runPlace s r).1 (runPlace s r).2)
def jobOpenRuns (s : State) (j : Job) : List Nat := (jobRuns s j).filter (fun r => decide ((runOf s r).stage ≠ .done))

/-- Whether a packet at an index of a queue can still start launches of a job: a LAUNCH or STAGE of it, or a graph. -/
def jobPacket (s : State) (j : Job) (q i : Nat) : Bool :=
  (readPacket s j.ctx q i).any (fun v =>
    fld v 7 0 = 2 ||
    ((fld v 7 0 = 1 || fld v 7 0 = 6) &&
      (readRecord s { noRun with ctx := j.ctx, recAddr := fld v 127 64 }).any (fun w => recField w 0x0C 4 = j.id)))

/-- Whether launches of a closed job are still to start: a packet of it, or a graph, that was visible at JOBCLOSE has not started, or
such a graph is not complete (R404, R419, assumption 97). -/
def jobWaits (s : State) (j : Job) : Bool :=
  (List.range ((contextOf s j.ctx).elim 0 (·.queues.length))).any (fun q =>
    let x := queueAt s j.ctx q
    (List.range (idxSub x.tail x.next)).any (fun n =>
      let i := idxAdd x.next n
      inTime j q i && !x.finished.contains i && jobPacket s j q i)) ||
  s.graphs.any (fun g => g.ctx = j.ctx && !g.done && inTime j g.q g.idx)

/-- The job's counter is written, its TAG being that of the last packet counted; its port sets are freed (R402, R404). -/
def finishJob (s : State) (j : Job) (status : Nat) : State :=
  let tag := ((ctxRead s j.ctx (j.counter + 12) 4).map leNat).getD 0
  freeSets (countUp (putJob s j.ctx j.id (fun j => { j with isSet := false, agreed := [] })) j.ctx j.counter status tag) j

/-- A launch of a job ends. A cancel has an event record for each, as a CANCEL packet that names it would (R405, R377, R390; assumption
136). -/
def stopLaunch (status src : Nat) (cause : CollCause) (s : State) (r : Nat) : State :=
  let s1 := if cause = .cancelled then logEvent s { gtc := 0, src := hostSource, kind := 8, launch := (runIds s r).1 } else s
  endRun s1 r status src

/-- Every COLL and every launch of a job ends, visible ones too: those complete with the status when they are reached (R405, R412,
R418). -/
def stopJob (s : State) (j : Job) (status src : Nat) (cause : CollCause) : State :=
  let s1 := (s.colls.filter (fun c => c.ctx = j.ctx && c.job = j.id)).foldl (stopColl collFailed cause) s
  let s2 := closeJob (markCover s1 j.ctx .job j.id status) j
  (jobOpenRuns s2 j).foldl (stopLaunch status src cause) s2

/-- JOBCANCEL (R405): the job is complete everywhere with status CANCELLED. -/
def execJobcancel (s : State) : Host.Outcome State Fault Refusal :=
  .next (atJob s 18 (fun j =>
    endCommand (finishJob (stopJob (tellMembers s j .cancelled) j stCancel hostSource .cancelled) j stCancel) 0 0))

/-- The earliest ending cause among this package's launches of a job and what the other members reported. -/
def jobStatus (s : State) (j : Job) (news : List (Nat × Config.MemberNews)) : Option (Nat × Nat × Nat) :=
  let here := (jobRuns s j).filterMap (fun r => (runOf s r).status)
  let there := news.filterMap (fun e => match e.2 with
    | .complete st g src => if st = stOk then none else some (st, g, src)
    | _ => none)
  (j.status.toList ++ here ++ there).foldl firstCause none

/-- What a job does when a member is lost: its COLLs fail, its launches end with FAULT, and its counter is written; the other members hear
that it is complete here (R418). -/
def loseMember (addr : Nat) (s : State) (j : Job) : State :=
  let src := dieSource 0
  let s1 := packageEvent (stopJob s j stHardFault src .unreachable) { gtc := 0, src := src, kind := 9, addr := addr }
  finishJob (tellMembers s1 j (.complete stHardFault s.gtc src)) j stHardFault

/-- A job's news is taken in; a job that is complete on every member writes its counter, and one that another member cancelled, or has left
after a hard fault, ends here (R404, R405, R418). -/
def jobProgress (s : State) (j : Job) : State :=
  let news := jobNews s j false
  let s1 := consumeNews s j false
  let told := news.filterMap (fun e => match e.2 with
    | .complete _ _ _ => some e.1
    | _ => none)
  if news.any (fun e => decide (e.2 = .cancelled)) then finishJob (stopJob s1 j stCancel hostSource .cancelled) j stCancel
  else
    match news.find? (fun e => decide (e.2 = .lost)) with
    | some e => loseMember (j.addrs.getD e.1 0) s1 j
    | none =>
    let here := j.closed && (jobOpenRuns s1 j).isEmpty && !jobWaits s1 j
    let done := ((j.membersDone ++ told) ++ (if here then [j.rank] else [])).eraseDups
    let st := jobStatus s1 j news
    let s2 := putJob s1 j.ctx j.id (fun j => { j with membersDone := done, status := st })
    let s3 := if here && !j.membersDone.contains j.rank then
      let c := st.getD (stOk, s.gtc, hostSource)
      tellMembers s2 j (.complete c.1 c.2.1 c.2.2) else s2
    if (List.range j.npkg).all (fun r => done.contains r) then finishJob s3 j (st.elim stOk (·.1)) else s3

/-- JOB_COMPLETE (R404): for the jobs of the id. -/
def execJobComplete (job : Nat) (s : State) : Host.Outcome State Fault Refusal :=
  .next ((s.jobs.filter (fun j => j.id = job && j.isSet)).foldl jobProgress s)

/-! ### BAR0 (R363) -/

/-- Configuration space (R363): the vendor and device identifiers in its first word; the spec gives no other. -/
def readConfig (off : Nat) : BitVec 32 := if off = 0 then 0x2404#16 ++ Config.vendorId else 0

/-- A power of two from 2^10 to 2^24, or 0. -/
def logSizeOk (n : Nat) : Bool := n = 0 || (List.range 15).any (fun k => n = 2 ^ (k + 10))

/-- A write to BAR0: what breaks a constraint, a read-only register and an unlisted offset are left as they were. -/
def writeBar (s : State) (off : Nat) (v : Word) : State :=
  if 0x10000 ≤ off && off < 0x12000 then
    if off % 8 = 0 then ringDoorbell s ((off - 0x10000) / 512) ((off - 0x10000) / 8 % 64) v else s
  else
    match off with
    | 0x20 => if v.toNat % 64 = 0 then { s with cmdAddr := v } else s
    | 0x28 => if v = 1 && !s.cmdBusy then startCommand s else s
    | 0x40 => if v.toNat % 4096 = 0 then { s with logBase := v } else s
    | 0x48 => if logSizeOk v.toNat then { s with logSize := v } else s
    | 0x58 =>
      if v.toNat ≤ s.logTail.toNat && s.logTail.toNat ≤ v.toNat + s.logSize.toNat then { s with logHead := v, faultPend := decide (v ≠ s.logTail) } else s
    | _ => s

/-- What the host reads at a BAR0 offset. -/
def readBar (s : State) (off : Nat) : Word :=
  if 0x10000 ≤ off && off < 0x12000 then
    if off % 8 = 0 then BitVec.ofNat 64 (queueAt s ((off - 0x10000) / 512) ((off - 0x10000) / 8 % 64)).head else 0
  else
    match off with
    | 0x00 => 0x00B02404
    | 0x08 => Config.profile
    | 0x10 => BitVec.ofNat 64 s.gtc
    | 0x18 => BitVec.ofNat 64 (s.status + s.diesUp.toNat * 2 ^ 4 + b2n s.faultPend * 2 ^ 8)
    | 0x20 => s.cmdAddr
    | 0x30 => BitVec.ofNat 64 (b2n s.cmdBusy + s.cmdStatus * 2 ^ 8 + s.cmdResult * 2 ^ 32)
    | 0x40 => s.logBase
    | 0x48 => s.logSize
    | 0x50 => s.logTail
    | 0x58 => s.logHead
    | 0x60 => s.logLost
    | _ => 0

/-- REGISTER_WRITE (R363). -/
def execRegisterWrite (off : Nat) (v : Word) (s : State) : Host.Outcome State Fault Refusal :=
  runEvent (decide (off < 2 ^ 20)) (if hostReady s then writeBar s off v else s)

end Sys2Proof.Machine
end

