-- ==== Sys2Proof/Machine/Fabric.lean ====
section
/-! DEFINITION. Kryong links, time flits, members that become unreachable, and the Ethernet ports (spec/21 R395 to R401,
R415 to R418). What a switch does with a flit is another part's (R399); it reaches the package as arriving flits. -/

namespace Sys2Proof.Machine

/-! ### Links (R395, R396) -/

/-- The receiver answers with an acknowledgement or a nack of a SEQ. -/
def answer (s : State) (j : Nat) (type seq : Nat) : State :=
  putLink s j (fun l => { l with out := l.out ++ [sealFlit { hdr := BitVec.ofNat 16 type, seq := BitVec.ofNat 16 seq }] })

/-- A flit of a type that arrives on a link that is up and is whole; a damaged one is discarded, with a nack (R396). A flit of another
type is not what the event brings. -/
def onFlit (s : State) (j : Nat) (type : Nat) (f : Flit) (k : State) : State :=
  if !(linkOf s j).up then s
  else if !flitFine f then answer s j flitNack (linkOf s j).recvSeq
  else if flitType f ≠ type then s
  else k

/-- A flit of the sequence: the next SEQ is taken and acknowledged, a gap discards it with a nack, one for each flit (assumption 133). SEQ bits
[15:12] are not looked at (assumption 134). -/
def inSequence (s : State) (j : Nat) (type : Nat) (f : Flit) (k : State → State) : State :=
  onFlit s j type f (
    let n := (linkOf s j).recvSeq
    if f.seq.toNat % 4096 ≠ n then answer s j flitNack n
    else k (answer (putLink s j (fun l => { l with recvSeq := (n + 1) % 4096 })) j flitAck n))

/-- The flit goes to the layer above, where transfers are reassembled. -/
def toInbox (j : Nat) (f : Flit) (s : State) : State := putLink s j (fun l => { l with inbox := l.inbox ++ [f] })

/-- IDLE_FLIT (R395). -/
def execIdleFlit (link : Nat) (f : Flit) (s : State) : Host.Outcome State Fault Refusal :=
  runEvent (linkOk link) (onFlit s link flitIdle f s)

/-- DATA_FLIT (R397). -/
def execDataFlit (link : Nat) (f : Flit) (s : State) : Host.Outcome State Fault Refusal :=
  runEvent (linkOk link) (inSequence s link flitData f (toInbox link f))

/-- COMBINE_FLIT (R400): a combined result arrives. -/
def execCombineFlit (link : Nat) (f : Flit) (s : State) : Host.Outcome State Fault Refusal :=
  runEvent (linkOk link) (inSequence s link flitCombine f (toInbox link f))

/-- The GTC meets the master's: behind, it steps forward, with every die's copy; ahead, it counts at half rate until it matches, two ticks
for each that it is ahead (R398). -/
def meetMaster (m : Nat) (s : State) : State :=
  if s.gtc ≤ m then { forUpTo Config.dies s (fun d s => setDie s d (fun x => { x with gtc := max x.gtc m })) with gtc := m, gtcSlow := 0 }
  else { s with gtcSlow := 2 * (s.gtc - m) + s.gtcSlow % 2 }

/-- A time flit's news: the package with the lowest fabric address is the master, and the others follow it (R398). -/
def hearTime (n : Nat × Nat) (s : State) : State :=
  let lowest := s.masterAddr.elim n.1 (min n.1)
  if s.fabricAddr ≤ n.1 || lowest < n.1 then s else meetMaster n.2 { s with masterAddr := some lowest }

/-- TIME_FLIT (R398). -/
def execTimeFlit (link : Nat) (f : Flit) (s : State) : Host.Outcome State Fault Refusal :=
  runEvent (linkOk link) (inSequence s link flitTime f (hearTime (Config.flitTime f.payload)))

/-- The time master sends its GTC on every link that is up (R398). -/
def sendTime (s : State) : State :=
  if s.masterAddr.isSome then s
  else (upLinks s).foldl (fun s j => sendFlit s j (flitOf flitTime (Config.timePayload s.fabricAddr s.gtc))) s

/-- MANAGEMENT_FLIT (R399): the device sends a flit that programs a switch. -/
def execManagementFlit (link : Nat) (f : Flit) (s : State) : Host.Outcome State Fault Refusal :=
  runEvent (linkOk link) (sendFlit s link { f with hdr := (f.hdr &&& 0xF0) ||| BitVec.ofNat 16 flitManage })

/-- Flits of a replay buffer from the first with a SEQ on. -/
def fromSeq (seq : Nat) : List Flit → List Flit
  | [] => []
  | f :: t => if f.seq.toNat % 4096 = seq then f :: t else fromSeq seq t

/-- Whether a replay buffer holds a SEQ. -/
def holdsSeq (l : Link) (seq : Nat) : Bool := l.buffer.any (fun f => f.seq.toNat % 4096 = seq)

/-- ACK_FLIT (R396): flits up to the acknowledged SEQ leave the replay buffer, and those that wait enter it. -/
def execAckFlit (link : Nat) (f : Flit) (s : State) : Host.Outcome State Fault Refusal :=
  runEvent (linkOk link) (onFlit s link flitAck f (putLink s link (fun l =>
    let q := f.seq.toNat % 4096
    if holdsSeq l q then fillBuffer { l with buffer := (fromSeq q l.buffer).drop 1, replays := 0 } else l)))

/-- Whether a flit may take another plane: data and combine flits (R397). -/
def movable (f : Flit) : Bool := flitType f = flitData || flitType f = flitCombine

/-- A link goes down, with an event record of KIND 9 (R396): what it has not delivered goes over the other planes (R417), and its sequences
start anew with its next training (assumption 102). -/
def dropLink (s : State) (j : Nat) : State :=
  let left := (linkOf s j).buffer ++ (linkOf s j).waiting
  let s1 := putLink s j (fun l =>
    { l with up := false, down := true, since := s.gtc, partner := none, buffer := [], replays := 0, sendSeq := 0, recvSeq := 0
             waiting := left.filter (fun f => flitType f = flitManage) })
  sendFlits (packageEvent s1 { gtc := 0, src := linkSource j, kind := 9 }) (left.filter movable)

/-- NACK_FLIT (R396): the sender resends from the SEQ named; 16 replays running take the link down. -/
def execNackFlit (link : Nat) (f : Flit) (s : State) : Host.Outcome State Fault Refusal :=
  runEvent (linkOk link) (onFlit s link flitNack f (
    let q := f.seq.toNat % 4096
    if !holdsSeq (linkOf s link) q then s
    else
      let s1 := putLink s link (fun l => { l with buffer := fromSeq q l.buffer, out := l.out ++ fromSeq q l.buffer, replays := l.replays + 1 })
      if 16 ≤ (linkOf s1 link).replays then dropLink s1 link else s1))

/-- A link loses its training. -/
def linkLost (s : State) (j : Nat) : State :=
  if linkOk j && (linkOf s j).up then putLink s j (fun l => { l with up := false, since := s.gtc, partner := none }) else s

/-- LINK_DOWN (R396): the link has stayed untrained for 10 ms. -/
def execLinkDown (link : Nat) (s : State) : Host.Outcome State Fault Refusal :=
  runEvent (linkOk link) (
    let l := linkOf s link
    if l.up || l.down || s.gtc < l.since + 10 ^ 7 then s else dropLink s link)

/-- The fabric address that the package's other links report. -/
def otherPartner (s : State) (j : Nat) : Option Nat :=
  (s.links.filter (fun e => e.1 ≠ j && e.2.up)).findSome? (fun e => e.2.partner)

/-- A link that trains: what its replay buffer still holds is sent again, so that no flit is lost (R396). -/
def trained (p : Nat) (l : Link) : Link :=
  fillBuffer { l with up := true, down := false, partner := some p, out := l.out ++ l.buffer, replays := 0 }

/-- A plane that comes back holds the port sets of the package's jobs again (R403): those are sent that do not go to it already. -/
def programPlane (s : State) (j : Nat) (anew : Bool) : State :=
  let l := linkOf s j
  let sets := (l.sets.map (fun e => Config.setPayload e.2.1 e.2.2.1 e.2.2.2 true)).filter (fun p => !(l.buffer ++ l.waiting).any (fun f => f.payload = p))
  if anew then sets.foldl (fun s p => sendFlit s j (flitOf flitManage p)) s else s

/-- LINK_RETRAIN (R395, R396): training begins once STATE is READY (R393), and every 100 ms on a link that is down. The partner port
reports its number; one that differs from the other links' leaves the link down, with a record. -/
def execLinkRetrain (link : Nat) (partner : Option Nat) (s : State) : Host.Outcome State Fault Refusal :=
  runEvent (linkOk link) (
    let l := linkOf s link
    if l.up || s.status ≠ 1 || (l.down && decide (s.gtc < l.since + 10 ^ 8)) then s
    else
      match partner with
      | none => if l.down then putLink s link (fun l => { l with since := s.gtc }) else s
      | some p =>
        if 256 ≤ p || (otherPartner s link).elim false (fun q => decide (q ≠ p)) then dropLink s link
        else sendParked (programPlane (putLink { s with fabricAddr := p } link (trained p)) link l.down))

/-! ### Unreachable members (R418) -/

/-- MEMBER_UNREACHABLE (R418). -/
def execMemberUnreachable (addr : Nat) (s : State) : Host.Outcome State Fault Refusal :=
  runEvent (decide (addr < 256)) (
    (s.jobs.filter (fun j => j.isSet && j.addrs.contains addr && j.addrs[j.rank]? ≠ some addr)).foldl (loseMember addr)
      { s with masterAddr := if s.masterAddr = some addr then none else s.masterAddr })

/-! ### Ethernet (R415, R416) -/

/-- A queue pair, by its number: the package has 65,536, each on one port. -/
def qpAt (s : State) (port qp : Nat) : QueuePair := (s.qps.find? (fun x => x.qp = qp)).getD { port := port, qp := qp }
def putQp (s : State) (qp : Nat) (x : QueuePair) : State :=
  { s with qps := if s.qps.any (fun y => y.qp = qp) then lmodWhere (fun y => y.qp = qp) (fun _ => x) s.qps else s.qps ++ [x] }

/-- A port, and a queue pair of the package. -/
def portOk (port : Nat) : Bool := port < 6
def portSource (port : Nat) : Nat := 6228 + port

/-- Whether bytes of device memory lie in a registered region. -/
def inRegion (s : State) (pa len : Nat) : Bool := s.regions.any (fun r => decide (r.1 ≤ pa) && decide (pa + len ≤ r.1 + r.2))

/-- The host registers a region. -/
def addRegion (s : State) (pa len : Nat) : State :=
  if hostReady s && decide (pa + len ≤ Config.deviceBytes) then { s with regions := s.regions ++ [(pa, len)] } else s

/-- The host names the rings of a queue pair. -/
def setRings (s : State) (port qp work comp entries : Nat) : State :=
  let x := qpAt s port qp
  if !portOk port || 65536 ≤ qp || x.port ≠ port || entries = 0 then s else putQp s qp { x with rings := some (work, comp, entries) }

/-- The bytes of an entry of 64 bytes. -/
def entryBytes (f : Nat → Byte) : List Byte := tabulate 64 f

/-- The number of an operation in a work entry. -/
def opNumber : EthOp → Nat
  | .send => 0
  | .sendImm => 1
  | .write => 2
  | .writeImm => 3
  | .read => 4
  | .recv => 5

/-- The host's entry of a request in the work ring, where the queue pair has rings. -/
def writeWork (s : State) (port qp : Nat) (w : EthWork) : State :=
  let x := qpAt s port qp
  let s1 := putQp s qp { x with posted := x.posted + 1 }
  match x.rings with
  | none => s1
  | some (a, _, n) =>
    writeHome s1 .host (a + 64 * (x.posted % n)) (entryBytes (Config.workEntry [opNumber w.op, w.id, w.pa, w.len, w.remote, w.imm]))

/-- An entry enters the completion ring in host memory. -/
def enterDone (s : State) (port qp : Nat) (d : EthDone) : State :=
  let x := qpAt s port qp
  let s1 := putQp s qp { x with completions := x.completions ++ [d], ended := x.ended + 1 }
  match x.rings with
  | none => s1
  | some (_, a, n) => writeHome s1 .host (a + 64 * (x.ended % n)) (entryBytes (Config.completionEntry d.id d.ok d.len d.imm))

/-- A work request ends, with success or an error. -/
def completeWork (s : State) (port qp id : Nat) (ok : Bool) : State :=
  let x := qpAt s port qp
  enterDone (putQp s qp { x with work := x.work.filter (fun w => w.id ≠ id), unacked := x.unacked.filter (fun e => e.id ≠ id) })
    port qp { id := id, ok := ok }

/-! Sequence numbers have 24 bits. -/

def psnAdd (a n : Nat) : Nat := (a + n) % 2 ^ 24
def psnSub (a b : Nat) : Nat := (a + 2 ^ 24 - b % 2 ^ 24) % 2 ^ 24

/-- The path MTU of a queue pair, and the number of packets that n bytes take. -/
def mtuOf (qp : Nat) : Nat := 1024 * 2 ^ (Config.pathMtu qp).val
def packetsOf (qp n : Nat) : Nat := max 1 ((n + mtuOf qp - 1) / mtuOf qp)

/-- The immediate that a request carries. -/
def immOf (w : EthWork) : Option Nat := if w.op = .sendImm || w.op = .writeImm then some (w.imm % 2 ^ 32) else none

/-- Bytes cut into packets of the path MTU: number, offset, piece, and whether it is the last. -/
def cutBytes (qp : Nat) (data : List Byte) : List (Nat × Nat × List Byte × Bool) :=
  let m := mtuOf qp
  let n := packetsOf qp data.length
  (List.range n).map (fun i => (i, m * i, (data.drop (m * i)).take m, decide (i + 1 = n)))

/-- The packets of a request from a sequence number on. -/
def requestPackets (qp psn : Nat) (w : EthWork) (data : List Byte) : List EthSent :=
  match w.op with
  | .read => [{ id := w.id, psn := psnAdd psn (packetsOf qp w.len - 1), packet := .readRequest qp psn w.remote w.len true }]
  | .write => writes
  | .writeImm => writes
  | .send => sends
  | .sendImm => sends
  | .recv => []
where
  imm (last : Bool) : Option Nat := if last then immOf w else none
  writes : List EthSent := (cutBytes qp data).map (fun e =>
    { id := w.id, psn := psnAdd psn e.1, packet := .write qp (psnAdd psn e.1) (w.remote + e.2.1) e.2.2.1 (imm e.2.2.2) true })
  sends : List EthSent := (cutBytes qp data).map (fun e =>
    { id := w.id, psn := psnAdd psn e.1, packet := .send qp (psnAdd psn e.1) e.2.2.1 e.2.2.2 (imm e.2.2.2) true })

/-- Whether a request has been sent. -/
def isSent (x : QueuePair) (w : EthWork) : Bool := x.unacked.any (fun e => e.id = w.id)

/-- READs under way; at most 16 are outstanding. -/
def readsOut (x : QueuePair) : Nat := (x.work.filter (fun w => w.op = .read && isSent x w)).length

/-- A request is sent when it may be; a poisoned word fails it, and is never sent (R416). -/
def transmit (s : State) (port qp : Nat) (w : EthWork) : State :=
  let x := qpAt s port qp
  if w.op = .read && 16 ≤ readsOut x then s
  else if w.op ≠ .read && poisoned s .dev w.pa w.len then
    logEvent (completeWork s port qp w.id false) { gtc := 0, src := portSource port, kind := 3, addr := w.pa }
  else
    let ps := requestPackets qp x.nextPsn w (if w.op = .read then [] else peekN s .dev w.pa w.len)
    putQp s qp { x with out := x.out ++ ps.map (·.packet), unacked := x.unacked ++ ps, nextPsn := psnAdd (ps.getLast?.elim x.nextPsn (·.psn)) 1 }

/-- ETH_WORK_REQUEST (R415): an RDMA or SEND request on registered device memory, or a receive buffer there; one outside the regions ends
with an error (assumption 80). A queue pair without rings has nowhere to post work. -/
def execEthWorkRequest (port qp : Nat) (w : EthWork) (s : State) : Host.Outcome State Fault Refusal :=
  runEvent (portOk port && decide (qp < 65536)) (
    let x := qpAt s port qp
    if x.port ≠ port || x.rings.isNone then s
    else
      let s1 := writeWork s port qp w
      let y := qpAt s1 port qp
      if x.error || !inRegion s w.pa w.len then completeWork s1 port qp w.id false
      else if w.op = .recv then putQp s1 qp { y with recvs := y.recvs ++ [w] }
      else
        transmit (putQp s1 qp { y with work := y.work ++ [w] }) port qp w)

/-- A queue pair enters the error state: its outstanding work, receive buffers too, ends with an error (R416). -/
def failQp (s : State) (port qp : Nat) : State :=
  let x := qpAt s port qp
  if x.port ≠ port || x.error then s
  else
    logEvent ((x.work ++ x.recvs).foldl (fun s w => completeWork s port qp w.id false)
      (putQp s qp { x with error := true, recvs := [], filled := 0 })) { gtc := 0, src := portSource port, kind := 3 }

/-- QP_ERROR (R416): the retries, or the RNR retries, are exhausted. -/
def execQpError (port qp : Nat) (s : State) : Host.Outcome State Fault Refusal :=
  runEvent (portOk port && decide (qp < 65536)) (failQp s port qp)

/-- Unacknowledged packets are sent again from the first that passes a test: the answer to a receiver that was not ready, whose exhausted
retries come as the event QP_ERROR (R416). -/
def sendAgain (s : State) (port qp : Nat) (p : EthSent → Bool) : State :=
  let x := qpAt s port qp
  if x.error || x.port ≠ port then s else putQp s qp { x with out := x.out ++ (x.unacked.dropWhile (fun e => !p e)).map (·.packet) }

/-- Unacknowledged packets are sent again from the first that passes a test; after seven times without progress the queue pair enters the
error state (R415, R416). -/
def resend (s : State) (port qp : Nat) (p : EthSent → Bool) : State :=
  let x := qpAt s port qp
  let again := x.unacked.dropWhile (fun e => !p e)
  if x.error || x.port ≠ port || again.isEmpty then s
  else if 7 ≤ x.retries then failQp s port qp
  else sendAgain (putQp s qp { x with retries := x.retries + 1 }) port qp p

/-- The acknowledgement timer of a queue pair has run out. -/
def ackTimeout (s : State) (port qp : Nat) : State := if portOk port then resend s port qp (fun _ => true) else s

/-- READs that waited for one of the 16 places are sent. -/
def sendReads (port qp : Nat) (s : State) : State :=
  let x := qpAt s port qp
  (x.work.filter (fun w => w.op = .read && !isSent x w)).foldl (fun s w => transmit s port qp w) s

/-- An acknowledgement up to a sequence number: the packets up to it have arrived, and the requests of which none is left are complete, but
for READs, which their responses complete. -/
def acknowledge (s : State) (port qp psn : Nat) : State :=
  let x := qpAt s port qp
  if !x.unacked.any (fun e => e.psn = psn) then s
  else
    let isRead (e : EthSent) : Bool := x.work.any (fun w => w.id = e.id && w.op = .read)
    let upto := x.unacked.takeWhile (fun e => e.psn ≠ psn)
    let rest := x.unacked.drop upto.length
    let left := upto.filter isRead ++ rest.filter (fun e => isRead e || e.psn ≠ psn)
    let done := x.work.filter (fun w => w.op ≠ .read && isSent x w && !left.any (fun e => e.id = w.id))
    done.foldl (fun s w => completeWork s port qp w.id true) (putQp s qp { x with unacked := left, retries := 0 })

/-- The sequence number of the next piece of a READ's answer. -/
def awaited (x : QueuePair) (qp : Nat) (w : EthWork) : Option Nat :=
  (x.unacked.find? (fun e => e.id = w.id)).map (fun e => psnAdd (psnSub e.psn (packetsOf qp w.len - 1)) (x.got / mtuOf qp))

/-- A piece of the oldest READ's answer, when it is the next one. -/
def takeResponse (s : State) (port qp psn : Nat) (data : List Byte) : State :=
  let x := qpAt s port qp
  match x.work.find? (fun w => w.op = .read && isSent x w) with
  | none => s
  | some w =>
    if awaited x qp w ≠ some psn then s else
    let s1 := writeHome s .dev (w.pa + x.got) (data.take (w.len - x.got))
    let got := x.got + data.length
    if got < w.len then putQp s1 qp { x with got := got, retries := 0 }
    else sendReads port qp (completeWork (putQp s1 qp { x with got := 0, retries := 0 }) port qp w.id true)

/-- The queue pair answers with a packet, or several. -/
def reply (s : State) (port qp : Nat) (ps : List EthPacket) : State :=
  let x := qpAt s port qp
  putQp s qp { x with out := x.out ++ ps }

/-- A request packet of a sequence number, that takes n of them: the expected one acts, one that has come before is answered again, and one
ahead of the sequence is not taken (R415: RC retransmission recovers what was dropped). `act` gives what it does, if it is taken, and
`answer` what it is answered with. -/
def inOrder (s : State) (port qp psn n : Nat) (act : State → Option State) (answer : State → List EthPacket) : State :=
  let x := qpAt s port qp
  if x.error || x.port ≠ port || 65536 ≤ qp then s
  else if psn = x.expected then
    match act s with
    | none => s
    | some s1 =>
      let y := qpAt s1 port qp
      if y.error then s1 else reply (putQp s1 qp { y with expected := psnAdd psn n }) port qp (answer s1)
  else if psnSub x.expected psn < 2 ^ 23 then reply s port qp (answer s)
  else reply s port qp [.nak qp x.expected true]

/-- A message, or a piece of one, has arrived: its bytes go into the first receive buffer, which ends with the message. One that the
buffer does not hold takes the queue pair into the error state (assumption 52). -/
def receive (s : State) (port qp : Nat) (data : List Byte) (last : Bool) (imm : Option Nat) : State :=
  let x := qpAt s port qp
  match x.recvs with
  | [] => s
  | w :: rest =>
    if w.len < x.filled + data.length then failQp s port qp
    else
      let s1 := writeHome s .dev (w.pa + x.filled) data
      if last then
        enterDone (putQp s1 qp { x with recvs := rest, filled := 0 }) port qp { id := w.id, ok := true, len := x.filled + data.length, imm := imm }
      else putQp s1 qp { x with filled := x.filled + data.length }

/-- A packet that needs a receive buffer, when it is the next one and none is posted: the receiver is not ready. -/
def notReady (s : State) (port qp psn : Nat) : Bool :=
  let x := qpAt s port qp
  !x.error && x.port = port && qp < 65536 && psn = x.expected && x.recvs.isEmpty

/-- The answer to a READ request: the bytes, cut by the path MTU. -/
def readAnswer (qp psn pa len : Nat) (s : State) : List EthPacket :=
  (cutBytes qp (peekN s .dev pa len)).map (fun e => .readResponse qp (psnAdd psn e.1) e.2.2.1 true)

/-- A READ request's effect: none on a poisoned word, which is never sent (R416). -/
def takeRead (port qp psn pa len : Nat) (s : State) : State :=
  if !inRegion s pa len then s
  else if poisoned s .dev pa len then logEvent s { gtc := 0, src := portSource port, kind := 3, addr := pa }
  else inOrder s port qp psn (packetsOf qp len) some (readAnswer qp psn pa len)

/-- What an intact packet does to its queue pair; a queue pair in error, or of another port, takes none. A request for bytes outside the
registered regions has no effect (assumption 80). -/
def takePacket (s : State) (port : Nat) (p : EthPacket) : State :=
  let fine (qp : Nat) (f : State → State) : State :=
    let x := qpAt s port qp
    if x.error || x.port ≠ port || 65536 ≤ qp then s else f s
  match p with
  | .write qp psn pa data imm _ =>
    if imm.isSome && inRegion s pa data.length && notReady s port qp psn then reply s port qp [.rnr qp psn true] else
    inOrder s port qp psn 1 (fun s =>
      if !inRegion s pa data.length then none
      else
        let s1 := writeHome s .dev pa data
        some (if imm.isSome then receive s1 port qp [] true imm else s1)) (fun _ => [.ack qp psn true])
  | .send qp psn data last imm _ =>
    if notReady s port qp psn then reply s port qp [.rnr qp psn true] else
    inOrder s port qp psn 1 (fun s => some (receive s port qp data last imm)) (fun _ => [.ack qp psn true])
  | .readRequest qp psn pa len _ => fine qp (takeRead port qp psn pa len)
  | .readResponse qp psn data _ => fine qp (fun s => takeResponse s port qp psn data)
  | .ack qp psn _ => fine qp (fun s => acknowledge s port qp psn)
  | .nak qp psn _ => fine qp (fun s => resend (acknowledge s port qp (psnSub psn 1)) port qp (fun e => psnSub e.psn psn < 2 ^ 23))
  | .rnr qp psn _ => fine qp (fun s => sendAgain (acknowledge s port qp (psnSub psn 1)) port qp (fun e => psnSub e.psn psn < 2 ^ 23))

/-- The packet's ICRC. -/
def icrcOf : EthPacket → Bool
  | .write _ _ _ _ _ ok => ok
  | .send _ _ _ _ _ ok => ok
  | .readRequest _ _ _ _ ok => ok
  | .readResponse _ _ _ ok => ok
  | .ack _ _ ok => ok
  | .nak _ _ ok => ok
  | .rnr _ _ ok => ok

/-- ETHERNET_PACKET_RECEIVE (R415): an ICRC failure drops the packet. -/
def execEthernetPacketReceive (port : Nat) (p : EthPacket) (s : State) : Host.Outcome State Fault Refusal :=
  runEvent (portOk port) (if icrcOf p then takePacket s port p else s)

end Sys2Proof.Machine
end

