-- ==== Sys2Proof/Machine/LoadStore.lean ====
section
/-! DEFINITION. Scalar loads and stores (spec/05 R120, R121). -/

namespace Sys2Proof.Machine

/-- The effective address of R120. -/
def eaOf (s : State) (rs1 : BitVec 5) (imm : BitVec 12) : Word := xGet s rs1 + immX imm

/-- A load of n bytes into rd: sign- or zero-extended (R120). A handler context's access to a debug window reads the
window, and the error response traps with ACCESS (R191, R194). -/
def loadX (s : State) (rd : BitVec 5) (ea : Word) (n : Nat) (signed : Bool) : Res :=
  match curWindow s ea with
  | some (die, q, off) =>
    match readWindow s die q off n with
    | none => .trap s (windowTrap s ea)
    | some v => writeX (wakeWindow s die q off) rd (v.setWidth 64)
  | none =>
    match loadCur s ea n with
    | .error t => .trap s t
    | .ok (bs, s1) => writeX s1 rd (if signed then sext (8 * n) (leNat bs) else BitVec.ofNat 64 (leNat bs))

/-- A store of the low n bytes of a register (R120). -/
def storeX (s : State) (ea : Word) (n : Nat) (v : Word) : Res :=
  match curWindow s ea with
  | some (die, q, off) =>
    match writeWindow s die q off n (v.setWidth 512) with
    | none => .trap s (windowTrap s ea)
    | some s1 => .ok s1 .seq
  | none =>
    match storeCur s ea (leBytes n v.toNat) with
    | .error t => .trap s t
    | .ok s1 => .ok s1 .seq

/-- LB (R120). -/
def execLb (rd rs1 : BitVec 5) (imm : BitVec 12) (s : State) : Host.Outcome State Fault Refusal :=
  runParty (.lb rd rs1 imm) s (loadX s rd (eaOf s rs1 imm) 1 true)

/-- LH (R120). -/
def execLh (rd rs1 : BitVec 5) (imm : BitVec 12) (s : State) : Host.Outcome State Fault Refusal :=
  runParty (.lh rd rs1 imm) s (loadX s rd (eaOf s rs1 imm) 2 true)

/-- LW (R120). -/
def execLw (rd rs1 : BitVec 5) (imm : BitVec 12) (s : State) : Host.Outcome State Fault Refusal :=
  runParty (.lw rd rs1 imm) s (loadX s rd (eaOf s rs1 imm) 4 true)

/-- LD (R120). -/
def execLd (rd rs1 : BitVec 5) (imm : BitVec 12) (s : State) : Host.Outcome State Fault Refusal :=
  runParty (.ld rd rs1 imm) s (loadX s rd (eaOf s rs1 imm) 8 true)

/-- LBU (R120). -/
def execLbu (rd rs1 : BitVec 5) (imm : BitVec 12) (s : State) : Host.Outcome State Fault Refusal :=
  runParty (.lbu rd rs1 imm) s (loadX s rd (eaOf s rs1 imm) 1 false)

/-- LHU (R120). -/
def execLhu (rd rs1 : BitVec 5) (imm : BitVec 12) (s : State) : Host.Outcome State Fault Refusal :=
  runParty (.lhu rd rs1 imm) s (loadX s rd (eaOf s rs1 imm) 2 false)

/-- LWU (R120). -/
def execLwu (rd rs1 : BitVec 5) (imm : BitVec 12) (s : State) : Host.Outcome State Fault Refusal :=
  runParty (.lwu rd rs1 imm) s (loadX s rd (eaOf s rs1 imm) 4 false)

/-- SB (R120). -/
def execSb (rs1 rs2 : BitVec 5) (imm : BitVec 12) (s : State) : Host.Outcome State Fault Refusal :=
  runParty (.sb rs1 rs2 imm) s (storeX s (eaOf s rs1 imm) 1 (xGet s rs2))

/-- SH (R120). -/
def execSh (rs1 rs2 : BitVec 5) (imm : BitVec 12) (s : State) : Host.Outcome State Fault Refusal :=
  runParty (.sh rs1 rs2 imm) s (storeX s (eaOf s rs1 imm) 2 (xGet s rs2))

/-- SW (R120). -/
def execSw (rs1 rs2 : BitVec 5) (imm : BitVec 12) (s : State) : Host.Outcome State Fault Refusal :=
  runParty (.sw rs1 rs2 imm) s (storeX s (eaOf s rs1 imm) 4 (xGet s rs2))

/-- SD (R120). -/
def execSd (rs1 rs2 : BitVec 5) (imm : BitVec 12) (s : State) : Host.Outcome State Fault Refusal :=
  runParty (.sd rs1 rs2 imm) s (storeX s (eaOf s rs1 imm) 8 (xGet s rs2))

end Sys2Proof.Machine
end

