-- ==== Sys2Proof/Machine/VecArith.lean ====
section
/-! DEFINITION. VARITH: lane-wise arithmetic, special functions, bitwise functions, shifts and selection
(spec/06 R149 to R153). -/

namespace Sys2Proof.Machine

/-- The exact result of a VARITH function on floating-point operands, with the conditions found before rounding
(R45, R46, R55 to R62, R151). -/
def fpOp (fn : Nat) (single : Bool) (rdn : Bool) (a b c : Exact) : Exact × Nat :=
  match fn with
  | 0 => exAdd rdn a b
  | 1 => exAdd rdn a (exModify true false b)
  | 2 => exMul a b
  | 3 => exFma rdn a b c
  | 4 => (exMin a b, 0)
  | 5 => (exMax a b, 0)
  | 6 => exDiv a b
  | 7 => exSqrt a
  | n => specialFn single n a

/-- A floating-point lane (R151): operate, scale, clamp, round once. -/
def fpLane (fn ty : Nat) (scl : Int) (clp mode draw : Nat) (sat : Bool) (a b c : Exact) : Nat × Nat :=
  let (x, fl) := fpOp fn (decide (ty = 10)) (decide (mode = 2)) a b c
  let (r, g) := convertTo (tyNum ty) mode draw sat true (exClamp clp (exScale x scl))
  (r, fl ||| g)

/-- An integer lane (R152): operands are modified patterns. -/
def intLane (fn ty : Nat) (sat : Bool) (a b c : Nat) : Nat × Nat :=
  let w := tyWidth ty
  let sg := decide (ty < 4)
  let x := intValue ty a
  let y := intValue ty b
  let z := intValue ty c
  match fn with
  | 0 => intResult sg w sat (x + y)
  | 1 => intResult sg w sat (x - y)
  | 2 => intResult sg w sat (x * y)
  | 3 => intResult sg w sat (x * y + z)
  | 4 => (ulow w (min x y), 0)
  | 5 => (ulow w (max x y), 0)
  | 6 => (divTable sg w a b, 0)
  | _ => (ulow w (x * y / ((2 ^ w : Nat) : Int)), 0)

/-- A lane of a function that does not round (R153). -/
def plainLane (fn ty : Nat) (select : Bool) (a b : Nat) : Nat :=
  let w := tyWidth ty
  match fn with
  | 13 => a &&& b
  | 14 => a ||| b
  | 15 => a ^^^ b
  | 16 => (a <<< (b % w)) % 2 ^ w
  | 17 => ulow w (intValue ty a / ((2 ^ (b % w) : Nat) : Int))
  | _ => if select then a else b

/-- One lane of VARITH: source patterns to a result and its conditions. -/
def varithLane (s : State) (t : Strand) (fn : Nat) (f : X96) (mode i a b c : Nat) : Nat × Nat :=
  let ty := f.ty.toNat
  if varithPlain fn then (plainLane fn ty ((gx t f.rs.toNat).getLsbD i) a b, 0)
  else if tyInt ty then
    intLane fn ty f.sat (modPattern ty f.n1 f.a1 a) (modPattern ty f.n2 f.a2 b) (modPattern ty f.n3 f.a3 c)
  else
    fpLane fn ty (sclOf f) f.clp.toNat mode (laneDraw s t f mode i) f.sat
      (operandValue ty f.n1 f.a1 a) (operandValue ty f.n2 f.a2 b) (operandValue ty f.n3 f.a3 c)

/-- The registers that a VARITH function names. -/
def varithRegs (fn : Nat) (x160 : Bool) (f : X96) : List (Nat × Nat) :=
  [(f.vd.toNat, 1), (f.vs1.toNat, 1)] ++ (if varithSources fn ≠ 1 && !x160 then [(f.vs2.toNat, 1)] else []) ++
  (if varithSources fn = 3 then [(f.vs3.toNat, 1)] else [])

/-- VARITH (R149 to R153): source 2 is a register, or a broadcast literal. -/
def varith (fn : Nat) (lit : Option Word) (f : X96) (i : Instr) (s : State) : Host.Outcome State Fault Refusal :=
  runStrand i s (fun t =>
    match resolveMode t f.rm.toNat with
    | none => .trap s (illegal s i)
    | some mode =>
      withRegs s t (varithRegs fn lit.isSome f) (fun s1 =>
        let w := tyWidth f.ty.toNat
        let res := tabulate (512 / w) (fun k =>
          let b := match lit with
            | some v => v.toNat % 2 ^ w
            | none => lane w k (vGet t f.vs2.toNat)
          if activeLane t f k then
            varithLane s1 t fn f mode k (lane w k (vGet t f.vs1.toNat)) b (lane w k (vGet t f.vs3.toNat))
          else (lane w k (vGet t f.vd.toNat), 0))
        writeStrand s1 t (fun u => orFlags (vSet u f.vd.toNat (ofLanes w (res.map (·.1)))) (allFlags res))))

/-- VADD (R151, R152). -/
def execVadd (f : X96) (s : State) : Host.Outcome State Fault Refusal := varith 0 none f (.vadd f) s

/-- VSUB (R151, R152). -/
def execVsub (f : X96) (s : State) : Host.Outcome State Fault Refusal := varith 1 none f (.vsub f) s

/-- VMUL (R151, R152). -/
def execVmul (f : X96) (s : State) : Host.Outcome State Fault Refusal := varith 2 none f (.vmul f) s

/-- VFMA (R151, R152). -/
def execVfma (f : X96) (s : State) : Host.Outcome State Fault Refusal := varith 3 none f (.vfma f) s

/-- VMIN (R151, R152). -/
def execVmin (f : X96) (s : State) : Host.Outcome State Fault Refusal := varith 4 none f (.vmin f) s

/-- VMAX (R151, R152). -/
def execVmax (f : X96) (s : State) : Host.Outcome State Fault Refusal := varith 5 none f (.vmax f) s

/-- VDIV (R151, R152). -/
def execVdiv (f : X96) (s : State) : Host.Outcome State Fault Refusal := varith 6 none f (.vdiv f) s

/-- VSQRT (R151). -/
def execVsqrt (f : X96) (s : State) : Host.Outcome State Fault Refusal := varith 7 none f (.vsqrt f) s

/-- VRCP (R55 to R62). -/
def execVrcp (f : X96) (s : State) : Host.Outcome State Fault Refusal := varith 8 none f (.vrcp f) s

/-- VRSQ (R55 to R62). -/
def execVrsq (f : X96) (s : State) : Host.Outcome State Fault Refusal := varith 9 none f (.vrsq f) s

/-- VEXP2 (R55 to R62). -/
def execVexp2 (f : X96) (s : State) : Host.Outcome State Fault Refusal := varith 10 none f (.vexp2 f) s

/-- VLOG2 (R55 to R62). -/
def execVlog2 (f : X96) (s : State) : Host.Outcome State Fault Refusal := varith 11 none f (.vlog2 f) s

/-- VTANH (R55 to R62). -/
def execVtanh (f : X96) (s : State) : Host.Outcome State Fault Refusal := varith 12 none f (.vtanh f) s

/-- VAND (R153). -/
def execVand (f : X96) (s : State) : Host.Outcome State Fault Refusal := varith 13 none f (.vand f) s

/-- VOR (R153). -/
def execVor (f : X96) (s : State) : Host.Outcome State Fault Refusal := varith 14 none f (.vor f) s

/-- VXOR (R153). -/
def execVxor (f : X96) (s : State) : Host.Outcome State Fault Refusal := varith 15 none f (.vxor f) s

/-- VSHL (R153). -/
def execVshl (f : X96) (s : State) : Host.Outcome State Fault Refusal := varith 16 none f (.vshl f) s

/-- VSHR (R153). -/
def execVshr (f : X96) (s : State) : Host.Outcome State Fault Refusal := varith 17 none f (.vshr f) s

/-- VMULH (R152). -/
def execVmulh (f : X96) (s : State) : Host.Outcome State Fault Refusal := varith 18 none f (.vmulh f) s

/-- VSEL (R153). -/
def execVsel (f : X96) (s : State) : Host.Outcome State Fault Refusal := varith 19 none f (.vsel f) s

/-- VADD with a literal second source (R76). -/
def execVaddX160 (f : X96) (lit : Word) (s : State) : Host.Outcome State Fault Refusal :=
  varith 0 (some lit) f (.vaddX160 f lit) s

/-- VSUB with a literal second source (R76). -/
def execVsubX160 (f : X96) (lit : Word) (s : State) : Host.Outcome State Fault Refusal :=
  varith 1 (some lit) f (.vsubX160 f lit) s

/-- VMUL with a literal second source (R76). -/
def execVmulX160 (f : X96) (lit : Word) (s : State) : Host.Outcome State Fault Refusal :=
  varith 2 (some lit) f (.vmulX160 f lit) s

/-- VFMA with a literal second source (R76). -/
def execVfmaX160 (f : X96) (lit : Word) (s : State) : Host.Outcome State Fault Refusal :=
  varith 3 (some lit) f (.vfmaX160 f lit) s

/-- VMIN with a literal second source (R76). -/
def execVminX160 (f : X96) (lit : Word) (s : State) : Host.Outcome State Fault Refusal :=
  varith 4 (some lit) f (.vminX160 f lit) s

/-- VMAX with a literal second source (R76). -/
def execVmaxX160 (f : X96) (lit : Word) (s : State) : Host.Outcome State Fault Refusal :=
  varith 5 (some lit) f (.vmaxX160 f lit) s

/-- VDIV with a literal second source (R76). -/
def execVdivX160 (f : X96) (lit : Word) (s : State) : Host.Outcome State Fault Refusal :=
  varith 6 (some lit) f (.vdivX160 f lit) s

/-- VAND with a literal second source (R76). -/
def execVandX160 (f : X96) (lit : Word) (s : State) : Host.Outcome State Fault Refusal :=
  varith 13 (some lit) f (.vandX160 f lit) s

/-- VOR with a literal second source (R76). -/
def execVorX160 (f : X96) (lit : Word) (s : State) : Host.Outcome State Fault Refusal :=
  varith 14 (some lit) f (.vorX160 f lit) s

/-- VXOR with a literal second source (R76). -/
def execVxorX160 (f : X96) (lit : Word) (s : State) : Host.Outcome State Fault Refusal :=
  varith 15 (some lit) f (.vxorX160 f lit) s

/-- VSHL with a literal second source (R76). -/
def execVshlX160 (f : X96) (lit : Word) (s : State) : Host.Outcome State Fault Refusal :=
  varith 16 (some lit) f (.vshlX160 f lit) s

/-- VSHR with a literal second source (R76). -/
def execVshrX160 (f : X96) (lit : Word) (s : State) : Host.Outcome State Fault Refusal :=
  varith 17 (some lit) f (.vshrX160 f lit) s

/-- VMULH with a literal second source (R76). -/
def execVmulhX160 (f : X96) (lit : Word) (s : State) : Host.Outcome State Fault Refusal :=
  varith 18 (some lit) f (.vmulhX160 f lit) s

/-- VSEL with a literal second source (R76). -/
def execVselX160 (f : X96) (lit : Word) (s : State) : Host.Outcome State Fault Refusal :=
  varith 19 (some lit) f (.vselX160 f lit) s

end Sys2Proof.Machine
end

