-- ==== Sys2Proof/Machine/VecConv.lean ====
section
/-! DEFINITION. VCONV: conversions between element types, narrow formats, MX blocks and block-scaled integers, and the
per-strand generator (spec/06 R154 to R161, spec/02 R43, R44, R54). -/

namespace Sys2Proof.Machine

/-- The number types of a VCVT: destination and source (R82). -/
def vcvtTypes (f : X96) : NumTy × NumTy :=
  let k := f.aux.toNat % 8
  if k = 0 then (tyNum f.ty.toNat, tyNum f.ty2.toNat)
  else if bit f.aux.toNat 3 then (tyNum f.ty.toNat, narrowNum k) else (narrowNum k, tyNum f.ty.toNat)

/-- The source value of a VCVT lane, modified: an integer source wraps (R77, R155). -/
def vcvtSource (f : X96) (src : NumTy) (code : Nat) : Exact :=
  match src with
  | .int sg w => valueOf src (modInt sg f.n1 f.a1 w code)
  | _ => exModify f.n1 f.a1 (valueOf src code)

/-- One VCVT lane (R155). -/
def vcvtLane (f : X96) (dst src : NumTy) (mode draw code : Nat) : Nat × Nat :=
  let x := exClamp f.clp.toNat (exScale (vcvtSource f src code) (sclOf f))
  convertTo dst mode draw f.sat (widens src dst && f.scl = 0) x

/-- A conversion into a register group: the result is built lane by lane, inactive lanes keep the old group's. -/
def convGroup (s : State) (t : Strand) (vd k w n : Nat) (f : X96) (g : Nat → Nat × Nat) : Res :=
  let old := vGroup t vd k
  let res := tabulate n (fun i => if activeLane t f i then g i else (lane w i old, 0))
  writeStrand s t (fun u => orFlags (vSetGroup u vd k (ofLanes w (res.map (·.1)))) (allFlags res))

/-- Runs a VCONV function: mode first, then the registers (R421). -/
def vconv (f : X96) (i : Instr) (s : State) (gs : List (Nat × Nat)) (g : State → Strand → Nat → Res) :
    Host.Outcome State Fault Refusal :=
  runStrand i s (fun t =>
    match resolveMode t f.rm.toNat with
    | none => .trap s (illegal s i)
    | some mode => withRegs s t gs (fun s1 => g s1 t mode))

/-- VCVT (R155). -/
def execVcvt (f : X96) (s : State) : Host.Outcome State Fault Refusal :=
  let (wd, ws) := vcvtWidths f
  let wn := min wd ws
  let (dst, src) := vcvtTypes f
  vconv f (.vcvt f) s [(f.vd.toNat, wd / wn), (f.vs1.toNat, ws / wn)] (fun s1 t mode =>
    let v := vGroup t f.vs1.toNat (ws / wn)
    convGroup s1 t f.vd.toNat (wd / wn) wd (512 / wn) f (fun i =>
      vcvtLane f dst src mode (laneDraw s1 t f mode i) (lane ws i v)))

/-- The 32 modified values of the source group of a packing. -/
def packSources (t : Strand) (f : X96) : List Exact :=
  let w := tyWidth f.ty.toNat
  let v := vGroup t f.vs1.toNat (group32 w)
  tabulate 32 (fun i => if activeLane t f i then operandValue f.ty.toNat f.n1 f.a1 (lane w i v) else exZero)

/-- VPACKMX (R156): the destination is written whole. -/
def execVpackmx (f : X96) (s : State) : Host.Outcome State Fault Refusal :=
  vconv f (.vpackmx f) s [(f.vd.toNat, 1), (f.vs1.toNat, group32 (tyWidth f.ty.toNat))] (fun s1 t mode =>
    let (b, fl) := mxPack f.aux.toNat mode f.sat (laneDraw s1 t f mode) (activeLane t f) (packSources t f)
    writeStrand s1 t (fun u => orFlags (vSet u f.vd.toNat b) fl))

/-- VUNPKMX (R157): an infinity gives an infinity. N1 on an MXINT8 element of value 0 gives -0, which the spec leaves open
(assumption 83); a product beyond f32's range, which R157 does not foresee, overflows by R31 to R33 (assumption 104). -/
def execVunpkmx (f : X96) (s : State) : Host.Outcome State Fault Refusal :=
  let w := tyWidth f.ty.toNat
  vconv f (.vunpkmx f) s [(f.vd.toNat, group32 w), (f.vs1.toNat, 1)] (fun s1 t mode =>
    let b := vGet t f.vs1.toNat
    convGroup s1 t f.vd.toNat (group32 w) w 32 f (fun i =>
      convertTo (tyNum f.ty.toNat) mode (laneDraw s1 t f mode i) f.sat true (exModify f.n1 f.a1 (mxValue f.aux.toNat b i))))

/-- VMXEXP (R158). -/
def execVmxexp (f : X96) (s : State) : Host.Outcome State Fault Refusal :=
  vconv f (.vmxexp f) s [(f.vs1.toNat, group32 (tyWidth f.ty.toNat))] (fun s1 t _ =>
    writeStrand s1 t (fun u => sx u f.vd.toNat (BitVec.ofNat 64 (mxScaleOf f.aux.toNat (packSources t f)))))

/-- The exponent of a BSI value (R159). -/
def bsiExp (t : Strand) (f : X96) : Int := sint 16 (gx t f.vs2.toNat).toNat

/-- VTOBSI (R159). -/
def execVtobsi (f : X96) (s : State) : Host.Outcome State Fault Refusal :=
  let w := tyWidth f.ty.toNat
  vconv f (.vtobsi f) s [(f.vd.toNat, 4), (f.vs1.toNat, group32 w)] (fun s1 t mode =>
    let v := vGroup t f.vs1.toNat (group32 w)
    convGroup s1 t f.vd.toNat 4 64 32 f (fun i =>
      convertTo (.int true 64) mode (laneDraw s1 t f mode i) f.sat false
        (exScale (operandValue f.ty.toNat f.n1 f.a1 (lane w i v)) (-(bsiExp t f)))))

/-- VFROMBSI (R160). -/
def execVfrombsi (f : X96) (s : State) : Host.Outcome State Fault Refusal :=
  let w := tyWidth f.ty.toNat
  vconv f (.vfrombsi f) s [(f.vd.toNat, group32 w), (f.vs1.toNat, 4)] (fun s1 t mode =>
    let v := vGroup t f.vs1.toNat 4
    convGroup s1 t f.vd.toNat (group32 w) w 32 f (fun i =>
      let n := modInt true f.n1 f.a1 64 (lane 64 i v)
      convertTo (tyNum f.ty.toNat) mode (laneDraw s1 t f mode i) f.sat true (exInt (sint 64 n) (bsiExp t f))))

/-- The draws of a VRAND (R43, R44, R161): one per active lane, in ascending order, from the strand's counter. -/
def randLanes (s : State) (t : Strand) (f : X96) : List Nat × Word :=
  (List.range 16).foldl (fun acc i =>
    if activeLane t f i then
      let c := acc.2.toNat
      let d := drawOf (runOf s t.key.run).seed 0xFFFFFFFF t.key.gls (c % 2 ^ 32) (c / 2 ^ 32)
      let v := if f.ty = 10 then (convertTo fp32 0 0 false true (.fin false (d >>> 8) (-24) false)).1 else d
      (acc.1 ++ [v], acc.2 + 1)
    else (acc.1 ++ [lane 32 i (vGet t f.vd.toNat)], acc.2)) ([], t.draw)

/-- VRAND (R161). -/
def execVrand (f : X96) (s : State) : Host.Outcome State Fault Refusal :=
  vconv f (.vrand f) s [(f.vd.toNat, 1)] (fun s1 t _ =>
    let (vs, c) := randLanes s1 t f
    writeStrand s1 t (fun u => { vSet u f.vd.toNat (ofLanes 32 vs) with draw := c }))

end Sys2Proof.Machine
end

