-- ==== Sys2Proof/Machine/VecLane.lean ====
section
/-! DEFINITION. VLANE: reductions, scans, permutation, slides, comparison and masks (spec/07 R172 to R177, spec/02 R48). -/

namespace Sys2Proof.Machine

/-- One operation of VRED and VSCAN on two patterns (R48, R173): result and conditions. -/
def reduceOp (op ty mode : Nat) (sat : Bool) (a b : Nat) : Nat × Nat :=
  let w := tyWidth ty
  match op with
  | 3 => (a &&& b, 0)
  | 4 => (a ||| b, 0)
  | 5 => (a ^^^ b, 0)
  | _ =>
    if tyInt ty then
      let x := intValue ty a
      let y := intValue ty b
      match op with
      | 0 => intResult (decide (ty < 4)) w sat (x + y)
      | 1 => (ulow w (min x y), 0)
      | _ => (ulow w (max x y), 0)
    else
      let x := valueOf (tyNum ty) a
      let y := valueOf (tyNum ty) b
      let (r, fl) := match op with
        | 0 => exAdd (decide (mode = 2)) x y
        | 1 => (exMin x y, 0)
        | _ => (exMax x y, 0)
      let (c, g) := convertTo (tyNum ty) mode 0 sat true r
      (c, fl ||| g)

/-- The identity of an operation on a type (R48, R173). -/
def reduceId (op ty : Nat) : Nat :=
  let w := tyWidth ty
  let inf (neg : Bool) : Nat := (convertTo (tyNum ty) 0 0 false true (.inf neg)).1
  match op with
  | 0 => if tyInt ty then 0 else 2 ^ (w - 1)
  | 1 => if tyInt ty then (if ty < 4 then 2 ^ (w - 1) - 1 else 2 ^ w - 1) else inf false
  | 2 => if tyInt ty then (if ty < 4 then 2 ^ (w - 1) else 0) else inf true
  | 3 => 2 ^ w - 1
  | _ => 0

/-- One level of the pairwise tree. -/
def pairUp (g : Nat → Nat → Nat × Nat) : List Nat → List Nat × Nat
  | a :: b :: r =>
    let (x, fl) := g a b
    let (rest, fl2) := pairUp g r
    (x :: rest, fl ||| fl2)
  | l => (l, 0)

/-- The tree of R48, level by level; `fuel` bounds the levels. -/
def tree (g : Nat → Nat → Nat × Nat) : Nat → List Nat → Nat × Nat
  | 0, l => (l.headD 0, 0)
  | fuel + 1, l =>
    match l with
    | [] => (0, 0)
    | [a] => (a, 0)
    | l =>
      let (l2, fl) := pairUp g l
      let (r, fl2) := tree g fuel l2
      (r, fl ||| fl2)

/-- Runs a VLANE function that may resolve a mode: SR is refused where the function rounds (R173, R421). -/
def vlane (f : X96) (i : Instr) (s : State) (rounds : Bool) (gs : List (Nat × Nat)) (g : State → Strand → Nat → Res) :
    Host.Outcome State Fault Refusal :=
  runStrand i s (fun t =>
    match resolveMode t f.rm.toNat with
    | none => .trap s (illegal s i)
    | some mode =>
      if rounds && mode = 5 then .trap s (illegal s i) else withRegs s t gs (fun s1 => g s1 t mode))

/-- The source lanes, with the identity in inactive ones. -/
def reduceLanes (t : Strand) (f : X96) : List Nat :=
  let w := tyWidth f.ty.toNat
  tabulate (512 / w) (fun i =>
    if activeLane t f i then lane w i (vGet t f.vs1.toNat) else reduceId f.aux.toNat f.ty.toNat)

/-- VRED (R173): the result in lane 0, zero above. -/
def execVred (f : X96) (s : State) : Host.Outcome State Fault Refusal :=
  vlane f (.vred f) s (fpAdd f) [(f.vd.toNat, 1), (f.vs1.toNat, 1)] (fun s1 t mode =>
    let (r, fl) := tree (reduceOp f.aux.toNat f.ty.toNat mode f.sat) 7 (reduceLanes t f)
    writeStrand s1 t (fun u => orFlags (vSet u f.vd.toNat (ofLanes (tyWidth f.ty.toNat) [r])) fl))

/-- The prefixes of VSCAN from lane 1 on. -/
def scanFrom (g : Nat → Nat → Nat × Nat) : Nat → List Nat → List (Nat × Nat)
  | _, [] => []
  | p, x :: r =>
    let q := g p x
    q :: scanFrom g q.1 r

/-- Lane 0 of VSCAN: the value itself, a NaN canonical (R173). -/
def scanFirst (f : X96) (x : Nat) : Nat :=
  if tyFloat f.ty.toNat && f.aux.toNat < 3 && decide (valueOf (tyNum f.ty.toNat) x = .nan) then
    (convertTo (tyNum f.ty.toNat) 0 0 false true .nan).1
  else x

/-- VSCAN (R173): an inactive lane keeps its old value and passes the prefix on. -/
def execVscan (f : X96) (s : State) : Host.Outcome State Fault Refusal :=
  vlane f (.vscan f) s (fpAdd f) [(f.vd.toNat, 1), (f.vs1.toNat, 1)] (fun s1 t mode =>
    let w := tyWidth f.ty.toNat
    let src := reduceLanes t f
    let first := scanFirst f (src.headD 0)
    let ps := (first, 0) :: scanFrom (reduceOp f.aux.toNat f.ty.toNat mode f.sat) first src.tail
    let old := vGet t f.vd.toNat
    let new := ps.zipIdx.map (fun e => if activeLane t f e.2 then e.1.1 else lane w e.2 old)
    writeStrand s1 t (fun u => orFlags (vSet u f.vd.toNat (ofLanes w new)) (allFlags ps)))

/-- Writes the active lanes of VD. -/
def laneWrite (s : State) (t : Strand) (f : X96) (g : Nat → Nat) : Res :=
  let w := tyWidth f.ty.toNat
  writeStrand s t (fun u => vSet u f.vd.toNat (mergeLanes t f w (512 / w) (vGet t f.vd.toNat) g))

/-- VPERM (R174). -/
def execVperm (f : X96) (s : State) : Host.Outcome State Fault Refusal :=
  vlane f (.vperm f) s false [(f.vd.toNat, 1), (f.vs1.toNat, 1), (f.vs2.toNat, 1)] (fun s1 t _ =>
    let w := tyWidth f.ty.toNat
    laneWrite s1 t f (fun i => lane w (lane w i (vGet t f.vs2.toNat) % (512 / w)) (vGet t f.vs1.toNat)))

/-- The lane that VSLIDE draws at position j = i + σ (R175). -/
def slideLane (w : Nat) (src fill : Nat) (j : Int) : Nat :=
  let e : Int := (512 / w : Nat)
  if 0 ≤ j ∧ j < e then lane w j.toNat src
  else if e ≤ j ∧ j < 2 * e then lane w (j - e).toNat fill
  else if -e ≤ j ∧ j < 0 then lane w (j + e).toNat fill
  else 0

/-- VSLIDE (R175): the shift is the sum modulo 2^64, read as signed. -/
def execVslide (f : X96) (s : State) : Host.Outcome State Fault Refusal :=
  vlane f (.vslide f) s false [(f.vd.toNat, 1), (f.vs1.toNat, 1), (f.vs2.toNat, 1)] (fun s1 t _ =>
    let sh := (gx t f.rs.toNat + f.aux.signExtend 64).toInt
    laneWrite s1 t f (fun i =>
      slideLane (tyWidth f.ty.toNat) (vGet t f.vs1.toNat) (vGet t f.vs2.toNat) ((i : Int) + sh)))

/-- A comparison of two lanes (R176). -/
def compareLane (cc ty : Nat) (n1 a1 n2 a2 : Bool) (x y : Nat) : Bool :=
  if cc = 8 then
    let p (n a : Bool) (v : Nat) : Nat :=
      if tyInt ty then modPattern ty n a v
      else
        let m := 2 ^ (tyWidth ty - 1)
        let u := if a then v % m else v
        if n then u ^^^ m else u
    p n1 a1 x &&& p n2 a2 y ≠ 0
  else
    let a := operandValue ty n1 a1 x
    let b := operandValue ty n2 a2 y
    let un := decide (a = .nan) || decide (b = .nan)
    match cc with
    | 0 => !un && exEq a b
    | 1 => un || !exEq a b
    | 2 => !un && exLt a b
    | 3 => !un && !exLt b a
    | 4 => !un && exLt b a
    | 5 => !un && !exLt a b
    | 6 => un
    | _ => !un

/-- VCMP (R176): bits of active lanes merge into a GPR. -/
def vcmp (lit : Option Word) (f : X96) (i : Instr) (s : State) : Host.Outcome State Fault Refusal :=
  let gs := [(f.vs1.toNat, 1)] ++ (if lit.isSome then [] else [(f.vs2.toNat, 1)])
  vlane f i s false gs (fun s1 t _ =>
    let w := tyWidth f.ty.toNat
    let old := gx t f.vd.toNat
    let new := (List.range (512 / w)).foldl (fun (acc : Word) k =>
      if activeLane t f k then
        let b := match lit with
          | some v => v.toNat % 2 ^ w
          | none => lane w k (vGet t f.vs2.toNat)
        let r := compareLane f.ty2.toNat f.ty.toNat f.n1 f.a1 f.n2 f.a2 (lane w k (vGet t f.vs1.toNat)) b
        let m : Word := 1#64 <<< ((f.aux.toNat + k) % 64)
        if r then acc ||| m else acc &&& ~~~m
      else acc) old
    writeStrand s1 t (fun u => sx u f.vd.toNat new))

/-- VCMP. -/
def execVcmp (f : X96) (s : State) : Host.Outcome State Fault Refusal := vcmp none f (.vcmp f) s

/-- VCMP against a literal (R76). -/
def execVcmpX160 (f : X96) (lit : Word) (s : State) : Host.Outcome State Fault Refusal :=
  vcmp (some lit) f (.vcmpX160 f lit) s

/-- The mask GPR of VIOTA, VCOMPRESS and VPOPC. -/
def maskOf (t : Strand) (f : X96) : Nat := (gx t f.rs.toNat).toNat

/-- VIOTA (R177). -/
def execViota (f : X96) (s : State) : Host.Outcome State Fault Refusal :=
  vlane f (.viota f) s false [(f.vd.toNat, 1)] (fun s1 t _ =>
    laneWrite s1 t f (fun i => if f.aux.getLsbD 0 then i else popcount i (maskOf t f % 2 ^ i)))

/-- VCOMPRESS (R177). -/
def execVcompress (f : X96) (s : State) : Host.Outcome State Fault Refusal :=
  vlane f (.vcompress f) s false [(f.vd.toNat, 1), (f.vs1.toNat, 1)] (fun s1 t _ =>
    let w := tyWidth f.ty.toNat
    let sel := (List.range (512 / w)).filter (fun i => activeLane t f i && bit (maskOf t f) i)
    writeStrand s1 t (fun u => vSet u f.vd.toNat (ofLanes w (sel.map (fun i => lane w i (vGet t f.vs1.toNat))))))

/-- VPOPC (R177). -/
def execVpopc (f : X96) (s : State) : Host.Outcome State Fault Refusal :=
  vlane f (.vpopc f) s false [] (fun s1 t _ =>
    let n := ((List.range (512 / tyWidth f.ty.toNat)).filter (fun i => activeLane t f i && bit (maskOf t f) i)).length
    writeStrand s1 t (fun u => sx u f.vd.toNat (BitVec.ofNat 64 n)))

end Sys2Proof.Machine
end

