-- ==== Sys2Proof/Machine/Dispatch.lean ====
section
/-! DEFINITION. The dispatch of every instruction and event to its meaning. -/

namespace Sys2Proof.Machine

def exec (i : Instr) (s : State) : Host.Outcome State Fault Refusal :=
  match i with
  | .lui rd imm => Sys2Proof.Machine.execLui rd imm s
  | .auipc rd imm => Sys2Proof.Machine.execAuipc rd imm s
  | .jal rd off => Sys2Proof.Machine.execJal rd off s
  | .jalr rd rs1 imm => Sys2Proof.Machine.execJalr rd rs1 imm s
  | .beq rs1 rs2 off => Sys2Proof.Machine.execBeq rs1 rs2 off s
  | .bne rs1 rs2 off => Sys2Proof.Machine.execBne rs1 rs2 off s
  | .blt rs1 rs2 off => Sys2Proof.Machine.execBlt rs1 rs2 off s
  | .bge rs1 rs2 off => Sys2Proof.Machine.execBge rs1 rs2 off s
  | .bltu rs1 rs2 off => Sys2Proof.Machine.execBltu rs1 rs2 off s
  | .bgeu rs1 rs2 off => Sys2Proof.Machine.execBgeu rs1 rs2 off s
  | .lb rd rs1 imm => Sys2Proof.Machine.execLb rd rs1 imm s
  | .lh rd rs1 imm => Sys2Proof.Machine.execLh rd rs1 imm s
  | .lw rd rs1 imm => Sys2Proof.Machine.execLw rd rs1 imm s
  | .ld rd rs1 imm => Sys2Proof.Machine.execLd rd rs1 imm s
  | .lbu rd rs1 imm => Sys2Proof.Machine.execLbu rd rs1 imm s
  | .lhu rd rs1 imm => Sys2Proof.Machine.execLhu rd rs1 imm s
  | .lwu rd rs1 imm => Sys2Proof.Machine.execLwu rd rs1 imm s
  | .sb rs1 rs2 imm => Sys2Proof.Machine.execSb rs1 rs2 imm s
  | .sh rs1 rs2 imm => Sys2Proof.Machine.execSh rs1 rs2 imm s
  | .sw rs1 rs2 imm => Sys2Proof.Machine.execSw rs1 rs2 imm s
  | .sd rs1 rs2 imm => Sys2Proof.Machine.execSd rs1 rs2 imm s
  | .addi rd rs1 imm => Sys2Proof.Machine.execAddi rd rs1 imm s
  | .slti rd rs1 imm => Sys2Proof.Machine.execSlti rd rs1 imm s
  | .sltiu rd rs1 imm => Sys2Proof.Machine.execSltiu rd rs1 imm s
  | .xori rd rs1 imm => Sys2Proof.Machine.execXori rd rs1 imm s
  | .ori rd rs1 imm => Sys2Proof.Machine.execOri rd rs1 imm s
  | .andi rd rs1 imm => Sys2Proof.Machine.execAndi rd rs1 imm s
  | .slli rd rs1 sh => Sys2Proof.Machine.execSlli rd rs1 sh s
  | .srli rd rs1 sh => Sys2Proof.Machine.execSrli rd rs1 sh s
  | .srai rd rs1 sh => Sys2Proof.Machine.execSrai rd rs1 sh s
  | .addiw rd rs1 imm => Sys2Proof.Machine.execAddiw rd rs1 imm s
  | .slliw rd rs1 sh => Sys2Proof.Machine.execSlliw rd rs1 sh s
  | .srliw rd rs1 sh => Sys2Proof.Machine.execSrliw rd rs1 sh s
  | .sraiw rd rs1 sh => Sys2Proof.Machine.execSraiw rd rs1 sh s
  | .add rd rs1 rs2 => Sys2Proof.Machine.execAdd rd rs1 rs2 s
  | .sub rd rs1 rs2 => Sys2Proof.Machine.execSub rd rs1 rs2 s
  | .sll rd rs1 rs2 => Sys2Proof.Machine.execSll rd rs1 rs2 s
  | .slt rd rs1 rs2 => Sys2Proof.Machine.execSlt rd rs1 rs2 s
  | .sltu rd rs1 rs2 => Sys2Proof.Machine.execSltu rd rs1 rs2 s
  | .xor rd rs1 rs2 => Sys2Proof.Machine.execXor rd rs1 rs2 s
  | .srl rd rs1 rs2 => Sys2Proof.Machine.execSrl rd rs1 rs2 s
  | .sra rd rs1 rs2 => Sys2Proof.Machine.execSra rd rs1 rs2 s
  | .or rd rs1 rs2 => Sys2Proof.Machine.execOr rd rs1 rs2 s
  | .and rd rs1 rs2 => Sys2Proof.Machine.execAnd rd rs1 rs2 s
  | .mul rd rs1 rs2 => Sys2Proof.Machine.execMul rd rs1 rs2 s
  | .mulh rd rs1 rs2 => Sys2Proof.Machine.execMulh rd rs1 rs2 s
  | .mulhsu rd rs1 rs2 => Sys2Proof.Machine.execMulhsu rd rs1 rs2 s
  | .mulhu rd rs1 rs2 => Sys2Proof.Machine.execMulhu rd rs1 rs2 s
  | .div rd rs1 rs2 => Sys2Proof.Machine.execDiv rd rs1 rs2 s
  | .divu rd rs1 rs2 => Sys2Proof.Machine.execDivu rd rs1 rs2 s
  | .rem rd rs1 rs2 => Sys2Proof.Machine.execRem rd rs1 rs2 s
  | .remu rd rs1 rs2 => Sys2Proof.Machine.execRemu rd rs1 rs2 s
  | .addw rd rs1 rs2 => Sys2Proof.Machine.execAddw rd rs1 rs2 s
  | .subw rd rs1 rs2 => Sys2Proof.Machine.execSubw rd rs1 rs2 s
  | .sllw rd rs1 rs2 => Sys2Proof.Machine.execSllw rd rs1 rs2 s
  | .srlw rd rs1 rs2 => Sys2Proof.Machine.execSrlw rd rs1 rs2 s
  | .sraw rd rs1 rs2 => Sys2Proof.Machine.execSraw rd rs1 rs2 s
  | .mulw rd rs1 rs2 => Sys2Proof.Machine.execMulw rd rs1 rs2 s
  | .divw rd rs1 rs2 => Sys2Proof.Machine.execDivw rd rs1 rs2 s
  | .divuw rd rs1 rs2 => Sys2Proof.Machine.execDivuw rd rs1 rs2 s
  | .remw rd rs1 rs2 => Sys2Proof.Machine.execRemw rd rs1 rs2 s
  | .remuw rd rs1 rs2 => Sys2Proof.Machine.execRemuw rd rs1 rs2 s
  | .lrW rd rs1 aq rl => Sys2Proof.Machine.execLrW rd rs1 aq rl s
  | .lrD rd rs1 aq rl => Sys2Proof.Machine.execLrD rd rs1 aq rl s
  | .scW rd rs1 rs2 aq rl => Sys2Proof.Machine.execScW rd rs1 rs2 aq rl s
  | .scD rd rs1 rs2 aq rl => Sys2Proof.Machine.execScD rd rs1 rs2 aq rl s
  | .amoswapW rd rs1 rs2 aq rl => Sys2Proof.Machine.execAmoswapW rd rs1 rs2 aq rl s
  | .amoswapD rd rs1 rs2 aq rl => Sys2Proof.Machine.execAmoswapD rd rs1 rs2 aq rl s
  | .amoaddW rd rs1 rs2 aq rl => Sys2Proof.Machine.execAmoaddW rd rs1 rs2 aq rl s
  | .amoaddD rd rs1 rs2 aq rl => Sys2Proof.Machine.execAmoaddD rd rs1 rs2 aq rl s
  | .amoxorW rd rs1 rs2 aq rl => Sys2Proof.Machine.execAmoxorW rd rs1 rs2 aq rl s
  | .amoxorD rd rs1 rs2 aq rl => Sys2Proof.Machine.execAmoxorD rd rs1 rs2 aq rl s
  | .amoandW rd rs1 rs2 aq rl => Sys2Proof.Machine.execAmoandW rd rs1 rs2 aq rl s
  | .amoandD rd rs1 rs2 aq rl => Sys2Proof.Machine.execAmoandD rd rs1 rs2 aq rl s
  | .amoorW rd rs1 rs2 aq rl => Sys2Proof.Machine.execAmoorW rd rs1 rs2 aq rl s
  | .amoorD rd rs1 rs2 aq rl => Sys2Proof.Machine.execAmoorD rd rs1 rs2 aq rl s
  | .amominW rd rs1 rs2 aq rl => Sys2Proof.Machine.execAmominW rd rs1 rs2 aq rl s
  | .amominD rd rs1 rs2 aq rl => Sys2Proof.Machine.execAmominD rd rs1 rs2 aq rl s
  | .amomaxW rd rs1 rs2 aq rl => Sys2Proof.Machine.execAmomaxW rd rs1 rs2 aq rl s
  | .amomaxD rd rs1 rs2 aq rl => Sys2Proof.Machine.execAmomaxD rd rs1 rs2 aq rl s
  | .amominuW rd rs1 rs2 aq rl => Sys2Proof.Machine.execAmominuW rd rs1 rs2 aq rl s
  | .amominuD rd rs1 rs2 aq rl => Sys2Proof.Machine.execAmominuD rd rs1 rs2 aq rl s
  | .amomaxuW rd rs1 rs2 aq rl => Sys2Proof.Machine.execAmomaxuW rd rs1 rs2 aq rl s
  | .amomaxuD rd rs1 rs2 aq rl => Sys2Proof.Machine.execAmomaxuD rd rs1 rs2 aq rl s
  | .fence pred succ => Sys2Proof.Machine.execFence pred succ s
  | .csrrw rd csr rs1 => Sys2Proof.Machine.execCsrrw rd csr rs1 s
  | .csrrs rd csr rs1 => Sys2Proof.Machine.execCsrrs rd csr rs1 s
  | .csrrc rd csr rs1 => Sys2Proof.Machine.execCsrrc rd csr rs1 s
  | .csrrwi rd csr uimm => Sys2Proof.Machine.execCsrrwi rd csr uimm s
  | .csrrsi rd csr uimm => Sys2Proof.Machine.execCsrrsi rd csr uimm s
  | .csrrci rd csr uimm => Sys2Proof.Machine.execCsrrci rd csr uimm s
  | .acq rd cls n rs1 => Sys2Proof.Machine.execAcq rd cls n rs1 s
  | .tryacq rd cls n rs1 => Sys2Proof.Machine.execTryacq rd cls n rs1 s
  | .rel rd cls n rs1 => Sys2Proof.Machine.execRel rd cls n rs1 s
  | .claimq rd cls => Sys2Proof.Machine.execClaimq rd cls s
  | .loop rs1 n => Sys2Proof.Machine.execLoop rs1 n s
  | .fhint rs1 k => Sys2Proof.Machine.execFhint rs1 k s
  | .repb rs1 n stride mask => Sys2Proof.Machine.execRepb rs1 n stride mask s
  | .bbs h rs1 b off => Sys2Proof.Machine.execBbs h rs1 b off s
  | .bbc h rs1 b off => Sys2Proof.Machine.execBbc h rs1 b off s
  | .fencex a b => Sys2Proof.Machine.execFencex a b s
  | .halt rs1 retain => Sys2Proof.Machine.execHalt rs1 retain s
  | .cancel scope => Sys2Proof.Machine.execCancel scope s
  | .sendS rs1 rs2 => Sys2Proof.Machine.execSendS rs1 rs2 s
  | .sendM rs1 rs2 => Sys2Proof.Machine.execSendM rs1 rs2 s
  | .recv rd => Sys2Proof.Machine.execRecv rd s
  | .tryrecv rd => Sys2Proof.Machine.execTryrecv rd s
  | .binit rs1 rs2 => Sys2Proof.Machine.execBinit rs1 rs2 s
  | .barrive rs1 rs2 => Sys2Proof.Machine.execBarrive rs1 rs2 s
  | .bwait rd rs1 rs2 => Sys2Proof.Machine.execBwait rd rs1 rs2 s
  | .btest rd rs1 rs2 => Sys2Proof.Machine.execBtest rd rs1 rs2 s
  | .vld v rs1 imm => Sys2Proof.Machine.execVld v rs1 imm s
  | .vst v rs1 imm => Sys2Proof.Machine.execVst v rs1 imm s
  | .vlds w v rs1 rs2 => Sys2Proof.Machine.execVlds w v rs1 rs2 s
  | .vsts w v rs1 rs2 => Sys2Proof.Machine.execVsts w v rs1 rs2 s
  | .vins w v rs1 rs2 => Sys2Proof.Machine.execVins w v rs1 rs2 s
  | .vext u w rd v rs1 => Sys2Proof.Machine.execVext u w rd v rs1 s
  | .vsplat w v rs1 => Sys2Proof.Machine.execVsplat w v rs1 s
  | .vsplatImm w v imm => Sys2Proof.Machine.execVsplatImm w v imm s
  | .stres rs1 => Sys2Proof.Machine.execStres rs1 s
  | .stkill rs1 => Sys2Proof.Machine.execStkill rs1 s
  | .escal rs1 => Sys2Proof.Machine.execEscal rs1 s
  | .vadd f => Sys2Proof.Machine.execVadd f s
  | .vsub f => Sys2Proof.Machine.execVsub f s
  | .vmul f => Sys2Proof.Machine.execVmul f s
  | .vfma f => Sys2Proof.Machine.execVfma f s
  | .vmin f => Sys2Proof.Machine.execVmin f s
  | .vmax f => Sys2Proof.Machine.execVmax f s
  | .vdiv f => Sys2Proof.Machine.execVdiv f s
  | .vsqrt f => Sys2Proof.Machine.execVsqrt f s
  | .vrcp f => Sys2Proof.Machine.execVrcp f s
  | .vrsq f => Sys2Proof.Machine.execVrsq f s
  | .vexp2 f => Sys2Proof.Machine.execVexp2 f s
  | .vlog2 f => Sys2Proof.Machine.execVlog2 f s
  | .vtanh f => Sys2Proof.Machine.execVtanh f s
  | .vand f => Sys2Proof.Machine.execVand f s
  | .vor f => Sys2Proof.Machine.execVor f s
  | .vxor f => Sys2Proof.Machine.execVxor f s
  | .vshl f => Sys2Proof.Machine.execVshl f s
  | .vshr f => Sys2Proof.Machine.execVshr f s
  | .vmulh f => Sys2Proof.Machine.execVmulh f s
  | .vsel f => Sys2Proof.Machine.execVsel f s
  | .vaddX160 f lit => Sys2Proof.Machine.execVaddX160 f lit s
  | .vsubX160 f lit => Sys2Proof.Machine.execVsubX160 f lit s
  | .vmulX160 f lit => Sys2Proof.Machine.execVmulX160 f lit s
  | .vfmaX160 f lit => Sys2Proof.Machine.execVfmaX160 f lit s
  | .vminX160 f lit => Sys2Proof.Machine.execVminX160 f lit s
  | .vmaxX160 f lit => Sys2Proof.Machine.execVmaxX160 f lit s
  | .vdivX160 f lit => Sys2Proof.Machine.execVdivX160 f lit s
  | .vandX160 f lit => Sys2Proof.Machine.execVandX160 f lit s
  | .vorX160 f lit => Sys2Proof.Machine.execVorX160 f lit s
  | .vxorX160 f lit => Sys2Proof.Machine.execVxorX160 f lit s
  | .vshlX160 f lit => Sys2Proof.Machine.execVshlX160 f lit s
  | .vshrX160 f lit => Sys2Proof.Machine.execVshrX160 f lit s
  | .vmulhX160 f lit => Sys2Proof.Machine.execVmulhX160 f lit s
  | .vselX160 f lit => Sys2Proof.Machine.execVselX160 f lit s
  | .vcvt f => Sys2Proof.Machine.execVcvt f s
  | .vpackmx f => Sys2Proof.Machine.execVpackmx f s
  | .vunpkmx f => Sys2Proof.Machine.execVunpkmx f s
  | .vmxexp f => Sys2Proof.Machine.execVmxexp f s
  | .vtobsi f => Sys2Proof.Machine.execVtobsi f s
  | .vfrombsi f => Sys2Proof.Machine.execVfrombsi f s
  | .vrand f => Sys2Proof.Machine.execVrand f s
  | .vgather f => Sys2Proof.Machine.execVgather f s
  | .vscatter f => Sys2Proof.Machine.execVscatter f s
  | .vldm f => Sys2Proof.Machine.execVldm f s
  | .vstm f => Sys2Proof.Machine.execVstm f s
  | .vamoadd f => Sys2Proof.Machine.execVamoadd f s
  | .vred f => Sys2Proof.Machine.execVred f s
  | .vscan f => Sys2Proof.Machine.execVscan f s
  | .vperm f => Sys2Proof.Machine.execVperm f s
  | .vslide f => Sys2Proof.Machine.execVslide f s
  | .vcmp f => Sys2Proof.Machine.execVcmp f s
  | .vcmpX160 f lit => Sys2Proof.Machine.execVcmpX160 f lit s
  | .viota f => Sys2Proof.Machine.execViota f s
  | .vcompress f => Sys2Proof.Machine.execVcompress f s
  | .vpopc f => Sys2Proof.Machine.execVpopc f s
  | .mzero f => Sys2Proof.Machine.execMzero f s
  | .mma f => Sys2Proof.Machine.execMma f s
  | .mmag f => Sys2Proof.Machine.execMmag f s
  | .mdrain f => Sys2Proof.Machine.execMdrain f s
  | .mdrains f => Sys2Proof.Machine.execMdrains f s
  | .mpeek f => Sys2Proof.Machine.execMpeek f s
  | .mwait f => Sys2Proof.Machine.execMwait f s
  | .mtld f => Sys2Proof.Machine.execMtld f s
  | .mtsv f => Sys2Proof.Machine.execMtsv f s
  | .cpy f => Sys2Proof.Machine.execCpy f s
  | .cpyred f => Sys2Proof.Machine.execCpyred f s
  | .cpywb f => Sys2Proof.Machine.execCpywb f s
  | .cpyq f => Sys2Proof.Machine.execCpyq f s
  | .cpycan f => Sys2Proof.Machine.execCpycan f s
  | .xreq f => Sys2Proof.Machine.execXreq f s
  | .xpoll f => Sys2Proof.Machine.execXpoll f s
  | .xwait f => Sys2Proof.Machine.execXwait f s
  | .putx f => Sys2Proof.Machine.execPutx f s
  | .putxadd f => Sys2Proof.Machine.execPutxadd f s
  | .coll f => Sys2Proof.Machine.execColl f s
  | .phint f0 c0 f1 c1 smask vmask => Sys2Proof.Machine.execPhint f0 c0 f1 c1 smask vmask s
  | .pchk rd => Sys2Proof.Machine.execPchk rd s
  | .malformedEncoding parcel => Sys2Proof.Machine.execMalformedEncoding parcel s
  | .fetchFault cause addr => Sys2Proof.Machine.execFetchFault cause addr s
  | .storeRegister core => Sys2Proof.Machine.execStoreRegister core s
  | .faultPacketDeliver core => Sys2Proof.Machine.execFaultPacketDeliver core s
  | .handlerWake core => Sys2Proof.Machine.execHandlerWake core s
  | .strandCancel k => Sys2Proof.Machine.execStrandCancel k s
  | .strandUnblock k => Sys2Proof.Machine.execStrandUnblock k s
  | .saveWrite k => Sys2Proof.Machine.execSaveWrite k s
  | .replayDiverge k index => Sys2Proof.Machine.execReplayDiverge k index s
  | .matrixTileStep cl bad => Sys2Proof.Machine.execMatrixTileStep cl bad s
  | .mzeroExec cl => Sys2Proof.Machine.execMzeroExec cl s
  | .drainConvert cl => Sys2Proof.Machine.execDrainConvert cl s
  | .mtldExec cl => Sys2Proof.Machine.execMtldExec cl s
  | .mtsvExec cl => Sys2Proof.Machine.execMtsvExec cl s
  | .copyRowWrite cl id bytes => Sys2Proof.Machine.execCopyRowWrite cl id bytes s
  | .xformStart cl => Sys2Proof.Machine.execXformStart cl s
  | .xformComplete cl => Sys2Proof.Machine.execXformComplete cl s
  | .crossing run => Sys2Proof.Machine.execCrossing run s
  | .launchStart run => Sys2Proof.Machine.execLaunchStart run s
  | .launchComplete run => Sys2Proof.Machine.execLaunchComplete run s
  | .gangAdmit run => Sys2Proof.Machine.execGangAdmit run s
  | .bindCrew die entry => Sys2Proof.Machine.execBindCrew die entry s
  | .resume die entry => Sys2Proof.Machine.execResume die entry s
  | .launchPacket ctx q => Sys2Proof.Machine.execLaunchPacket ctx q s
  | .graphPacket ctx q => Sys2Proof.Machine.execGraphPacket ctx q s
  | .levelPacket ctx q => Sys2Proof.Machine.execLevelPacket ctx q s
  | .waitPacket ctx q => Sys2Proof.Machine.execWaitPacket ctx q s
  | .waitComplete ctx q => Sys2Proof.Machine.execWaitComplete ctx q s
  | .cancelPacket ctx q idx => Sys2Proof.Machine.execCancelPacket ctx q idx s
  | .stagePacket ctx q => Sys2Proof.Machine.execStagePacket ctx q s
  | .signalPacket ctx q => Sys2Proof.Machine.execSignalPacket ctx q s
  | .replayPacket ctx q => Sys2Proof.Machine.execReplayPacket ctx q s
  | .launchNode g node => Sys2Proof.Machine.execLaunchNode g node s
  | .stageNode g node => Sys2Proof.Machine.execStageNode g node s
  | .condNode g node => Sys2Proof.Machine.execCondNode g node s
  | .whileNode g node => Sys2Proof.Machine.execWhileNode g node s
  | .joinNode g node => Sys2Proof.Machine.execJoinNode g node s
  | .signalNode g node => Sys2Proof.Machine.execSignalNode g node s
  | .collInstance inst => Sys2Proof.Machine.execCollInstance inst s
  | .collComplete inst => Sys2Proof.Machine.execCollComplete inst s
  | .jobComplete job => Sys2Proof.Machine.execJobComplete job s
  | .deadlockProbe k => Sys2Proof.Machine.execDeadlockProbe k s
  | .forcedSave k => Sys2Proof.Machine.execForcedSave k s
  | .claimWaitStall cl => Sys2Proof.Machine.execClaimWaitStall cl s
  | .retainExpiry ctx tag => Sys2Proof.Machine.execRetainExpiry ctx tag s
  | .mpeekSnapshot k => Sys2Proof.Machine.execMpeekSnapshot k s
  | .bindRecordWrite die entry rec => Sys2Proof.Machine.execBindRecordWrite die entry rec s
  | .graphComplete g => Sys2Proof.Machine.execGraphComplete g s
  | .collFail inst cause => Sys2Proof.Machine.execCollFail inst cause s
  | .loopCsrWrite k csr v => Sys2Proof.Machine.execLoopCsrWrite k csr v s
  | .ringReconfigure k csr v => Sys2Proof.Machine.execRingReconfigure k csr v s
  | .ringheadWrite k v => Sys2Proof.Machine.execRingheadWrite k v s
  | .ackFlit link f => Sys2Proof.Machine.execAckFlit link f s
  | .nackFlit link f => Sys2Proof.Machine.execNackFlit link f s
  | .preemptRequest core mask => Sys2Proof.Machine.execPreemptRequest core mask s
  | .preemptWithdraw core mask => Sys2Proof.Machine.execPreemptWithdraw core mask s
  | .fltpcWrite core v => Sys2Proof.Machine.execFltpcWrite core v s
  | .debugWindowRead q off size => Sys2Proof.Machine.execDebugWindowRead q off size s
  | .debugWindowWrite q off size v => Sys2Proof.Machine.execDebugWindowWrite q off size v s
  | .registerWrite off v => Sys2Proof.Machine.execRegisterWrite off v s
  | .reservationExpiry k => Sys2Proof.Machine.execReservationExpiry k s
  | .claimWaitRecord k => Sys2Proof.Machine.execClaimWaitRecord k s
  | .wbRefreshOpen cl => Sys2Proof.Machine.execWbRefreshOpen cl s
  | .wbRefreshClose cl => Sys2Proof.Machine.execWbRefreshClose cl s
  | .bankDrowsy core unit => Sys2Proof.Machine.execBankDrowsy core unit s
  | .icacheFill core => Sys2Proof.Machine.execIcacheFill core s
  | .pageWalk die => Sys2Proof.Machine.execPageWalk die s
  | .hostMemWrite pa data poisoned => Sys2Proof.Machine.execHostMemWrite pa data poisoned s
  | .eccCorrected src addr => Sys2Proof.Machine.execEccCorrected src addr s
  | .eccUncorrected site => Sys2Proof.Machine.execEccUncorrected site s
  | .coreFailed core => Sys2Proof.Machine.execCoreFailed core s
  | .hardFault cl => Sys2Proof.Machine.execHardFault cl s
  | .bindRecordWithdraw die entry => Sys2Proof.Machine.execBindRecordWithdraw die entry s
  | .gangPriority run => Sys2Proof.Machine.execGangPriority run s
  | .createContext => Sys2Proof.Machine.execCreateContext s
  | .destroyContext => Sys2Proof.Machine.execDestroyContext s
  | .loadObject => Sys2Proof.Machine.execLoadObject s
  | .unloadObject => Sys2Proof.Machine.execUnloadObject s
  | .faultAct => Sys2Proof.Machine.execFaultAct s
  | .jobset => Sys2Proof.Machine.execJobset s
  | .jobsetTimeout job => Sys2Proof.Machine.execJobsetTimeout job s
  | .jobclose => Sys2Proof.Machine.execJobclose s
  | .jobcancel => Sys2Proof.Machine.execJobcancel s
  | .doorbell ctx q v => Sys2Proof.Machine.execDoorbell ctx q v s
  | .idleFlit link f => Sys2Proof.Machine.execIdleFlit link f s
  | .dataFlit link f => Sys2Proof.Machine.execDataFlit link f s
  | .combineFlit link f => Sys2Proof.Machine.execCombineFlit link f s
  | .timeFlit link f => Sys2Proof.Machine.execTimeFlit link f s
  | .managementFlit link f => Sys2Proof.Machine.execManagementFlit link f s
  | .linkDown link => Sys2Proof.Machine.execLinkDown link s
  | .linkRetrain link partner => Sys2Proof.Machine.execLinkRetrain link partner s
  | .memberUnreachable addr => Sys2Proof.Machine.execMemberUnreachable addr s
  | .ethWorkRequest port qp w => Sys2Proof.Machine.execEthWorkRequest port qp w s
  | .qpError port qp => Sys2Proof.Machine.execQpError port qp s
  | .throttle die mhz => Sys2Proof.Machine.execThrottle die mhz s
  | .thermalTrip => Sys2Proof.Machine.execThermalTrip s
  | .boot fw => Sys2Proof.Machine.execBoot fw s
  | .dieManagerDisposition q act => Sys2Proof.Machine.execDieManagerDisposition q act s
  | .ethernetPacketReceive port p => Sys2Proof.Machine.execEthernetPacketReceive port p s
  | .fenceTso => Sys2Proof.Machine.execFenceTso s
  | .fenceI => Sys2Proof.Machine.execFenceI s
  | .ecall => Sys2Proof.Machine.execEcall s
  | .ebreak => Sys2Proof.Machine.execEbreak s
  | .step => Sys2Proof.Machine.execStep s
  | .stret => Sys2Proof.Machine.execStret s

end Sys2Proof.Machine
end

