-- ==== Sys2Proof/Machine/Act.lean ====
section
/-! DEFINITION. What units and the outside world do beside the events of the opcode table, and which of it is due (spec/08 R182, R193,
spec/13 R288, spec/17 R317, spec/20 R362, R384, R388, R392, spec/21 R398, R415). -/

namespace Sys2Proof.Machine

/-- The host writes its own memory; a poisoned write poisons its words (R362). -/
def hostWrite (s : State) (pa : Nat) (data : List Byte) (bad : Bool) : State :=
  let s1 := writeHome s .host pa data
  if bad then poison s1 .host pa data.length else s1

/-- The die manager's writes of `pairtab`, `mxwt` and `preempt` through its management path (R193). -/
def manage (s : State) (core csr : Nat) (v : Word) : State :=
  if !coreOk core then s
  else if csr = 0x5C7 then writePreempt s core v true
  else if [0x5C0, 0x5C6].contains csr then
    match writeHandlerCsr s core csr v with
    | some (.ok s1) => s1
    | _ => s
  else s

/-- The location at which a strand's blocked access stands (R384). -/
def standsOn (s : State) (t : Strand) : Option Nat :=
  match t.life, t.wait with
  | .blocked, some (_, .atomic _ n _ ea _ _) =>
    (match locate s t ea n .amo with
     | .ok ((sp, a) :: _, _) => some (wordLoc sp a)
     | _ => none)
  | .blocked, some (_, .send true g _ _) => some (ringLoc g)
  | _, _ => none

/-- The strands for which the home holds a strand's access at a location. -/
def heldFor (s : State) (t : Strand) (loc : Nat) : List Nat := roundHolders s t loc ++ lateHolders s t loc

/-- Whether every strand of a resident crew is held by strands of crews that are not bound, once rounds decide (R384). -/
def crewHeld (s : State) (run crew : Nat) : Bool :=
  let ts := (crewStrands s run crew).filter onCore
  let r := runOf s run
  ((contextOf s r.ctx).elim false (·.overflow) || r.replay.isSome) && !ts.isEmpty &&
  ts.all (fun t => (standsOn s t).elim false (fun loc => (heldFor s t loc).any (fun g => (findCrew s run (g / 32)).isNone)))

/-- The die manager pre-empts such a crew. -/
def preemptHeld (s : State) (run crew : Nat) : State :=
  if crewHeld s run crew then ((crewStrands s run crew).filter onCore).foldl (fun s t => forGroup requestSlot t.core t.slot s) s else s

/-- An act. -/
def performAct (a : Act) (s : State) : State :=
  match a with
  | .ownerDrop w => dropOwner s w
  | .serveAdds run => serveAdds s run
  | .hostWrite pa data bad => hostWrite s pa data bad
  | .hostRefuse base len => { s with hostDeny := s.hostDeny ++ [(base, len)] }
  | .hostAllow => { s with hostDeny := [] }
  | .manage core csr v => manage s core csr v
  | .preemptHeld run crew => preemptHeld s run crew
  | .hintFill core => fillHint s core
  | .walk die => walkQueue s die
  | .refresh cl => setCluster s cl (fun c => { c with refresh := windowOpen s cl })
  | .hardFault cl => answerHardFault s cl
  | .expireResv k => expireResv s k
  | .recordWait k => recordWait s k
  | .raisePriority run => raisePriority s run
  | .drowse core unit => drowse s core unit
  | .xformPiece cl => xOnePiece s cl
  | .dieLink link ok => dieLinkReplay s link ok
  | .linkLost link => linkLost s link
  | .sendTime => sendTime s
  | .ethRegion pa len => addRegion s pa len
  | .ethRings port qp work comp entries => setRings s port qp work comp entries
  | .ethTimeout port qp => ackTimeout s port qp

/-- Acts of a core that are due. -/
def coreActs (s : State) (e : Nat × Core) : List Act :=
  (if e.2.hints.isEmpty then [] else [.hintFill e.1]) ++
  ((e.2.lastUse.map (fun x => unitOf x.1)).filter (mayDrowse s e.1)).map (.drowse e.1)

/-- Acts of a die. -/
def dieActs (e : Nat × Die) : List Act := if e.2.walkq.isEmpty then [] else [.walk e.1]

/-- Acts of a cluster. -/
def clusterActs (s : State) (e : Nat × Cluster) : List Act :=
  (if e.2.refresh = windowOpen s e.1 then [] else [.refresh e.1]) ++ (if e.2.xq.isEmpty then [] else [.xformPiece e.1]) ++
  (if !e.2.outOfService && hardFaulty s e.1 then [.hardFault e.1] else []) ++
  (e.2.claimq.filter (fun q => !q.recorded && decide (q.since + 2 ^ 26 ≤ (dieOf s (dieOfCluster e.1)).cycles))).map (fun q => .recordWait q.key)

/-- Acts of a launch. -/
def runActs (s : State) (n : Nat) : List Act :=
  (if (runOf s n).heldAdds.isEmpty then [] else [.serveAdds n]) ++ (if gangLong s n && !(runOf s n).priority then [.raisePriority n] else [])

/-- Everything beside the table's events that some unit could do now. -/
def actsDue (s : State) : List Act :=
  s.cores.flatMap (coreActs s) ++ s.dies.flatMap dieActs ++ s.clusters.flatMap (clusterActs s) ++
  (List.range s.runs.length).flatMap (runActs s) ++
  (s.crews.filter (fun c => crewHeld s c.run c.crew)).map (fun c => .preemptHeld c.run c.crew) ++
  (s.strands.filter (resvOld s)).map (fun t => .expireResv t.key)

end Sys2Proof.Machine
end

