-- ==== Sys2Proof/Machine/Turn.lean ====
section
/-! DEFINITION. What the next step does: time passes, a turn is chosen, and the party's next instruction is fetched
(spec/03 R66, spec/08 R178, R179, R186). -/

namespace Sys2Proof.Machine

/-- One step's time passes: the step counter, each die's cycles, the GTC, which boot starts, and the dies' copies of it, within 2 ticks of
die 0's and never stepping back (assumption 1; R265, R389, R393). Ahead of the time master, the GTC counts at half rate for the ticks that this takes, and at its own from
then on (R398). -/
def tick (s : State) : State :=
  let g := if s.status = 0 then 0 else Config.ticks s.steps
  let slow := min g s.gtcSlow
  let h := (s.gtcSlow % 2 + slow) / 2 + (g - slow)
  let s1 := forUpTo Config.dies s (fun d s1 => setDie s1 d (fun x =>
    { x with cycles := x.cycles + Config.elapsed d s.steps, gtc := max x.gtc (s.gtc + h + (Config.gtcSkew d s.steps).val - 2) }))
  { s1 with steps := s.steps + 1, gtc := s.gtc + h, gtcSlow := s.gtcSlow - slow }

/-- Whether a strand may issue. -/
def strandReady (s : State) (t : Strand) : Bool := t.life = .running && t.saving.isNone && !(coreOf s t.core).failed

/-- Whether an instruction is an engine command that its engine's queue has no room for (R239, R279, R408). -/
def queueFull (s : State) (t : Strand) (i : Instr) : Bool :=
  match i with
  | .mzero f | .mma f | .mmag f | .mdrain f | .mdrains f | .mtld f | .mtsv f => activeScalar t f && !queueRoom s t.core
  | .cpy f | .cpyred f | .cpywb f => activeScalar t f && decide (16 ≤ (copiesOf s t).length)
  | .coll f => activeScalar t f && (decide (8 ≤ (collsOf s t).length) || decide (1024 ≤ s.colls.length))
  | _ => false

/-- Whether a strand's next instruction waits for room in an engine's queue. No instruction of a repetition enters one (R184). -/
def awaitsRoom (s : State) (t : Strand) : Bool :=
  t.rep.isNone && !t.recapture && (match fetchStrand s t t.pc with
    | .ok (.ok i, _) => queueFull s t i
    | _ => false)

/-- Whether party p of a core is eligible: 0 to 3 the slots, 4 the handler context (R178). -/
def eligible (s : State) (core p : Nat) : Option Party :=
  if p = 4 then
    let c := coreOf s core
    if c.hawake && !c.hfrozen && !c.failed then some (.handler core) else none
  else
    match s.strands.find? (fun t => t.core = core && t.slot = p && strandReady s t) with
    | some t => if awaitsRoom s t then none else some (.strand t.key)
    | none => none

/-- The first eligible party of a core at or after its pointer, with its number (R178). -/
def coreTurn (s : State) (core : Nat) : Option (Nat × Party) :=
  let p := (coreOf s core).pointer
  ((List.range 5).map (fun i => (p + i) % 5)).findSome? (fun q => (eligible s core q).map (fun r => (q, r)))

/-- Cores that hold a strand or an awake handler context. -/
def busyCores (s : State) : List Nat :=
  (s.strands.filter (fun t => strandReady s t)).map (·.core) ++ (s.cores.filter (fun e => e.2.hawake)).map (·.1)

/-- The core whose turn it is: the busy ones take turns. -/
def turnCore (s : State) : Option Nat :=
  let l := (busyCores s).eraseDups
  l[s.steps / 2 % max 1 l.length]?

/-! ### The units that act on their own (assumption 24) -/

/-- What a strand's own state asks for. -/
def strandAgents (s : State) (t : Strand) : List Instr :=
  (if t.life = .blocked then [.strandUnblock t.key] else []) ++
  (if t.saving.isSome then [.saveWrite t.key] else []) ++
  (if t.cancelPending && t.life ≠ .ended then [.strandCancel t.key] else []) ++
  (if t.preSince.isSome then [.forcedSave t.key] else []) ++
  (if t.life = .blocked && t.waitSince + 4096 ≤ now s t.core then [.deadlockProbe t.key] else [])

/-- What a core has to send, to register, or to wake for. -/
def coreAgents (e : Nat × Core) : List Instr :=
  (if e.2.outq.isEmpty then [] else [.faultPacketDeliver e.1]) ++ (if e.2.stores.isEmpty then [] else [.storeRegister e.1]) ++
  (if e.2.faultq.isEmpty || e.2.hawake then [] else [.handlerWake e.1])

/-- What a cluster's engines have to do. -/
def clusterAgents (e : Nat × Cluster) : List Instr :=
  (if e.2.mq.all (fun q => q.2.isEmpty) then []
   else [.matrixTileStep e.1 0, .mzeroExec e.1, .drainConvert e.1, .mtldExec e.1, .mtsvExec e.1]) ++
  e.2.copies.map (fun c => .copyRowWrite e.1 c.id 64) ++
  (if e.2.xq.isEmpty then [] else [.xformStart e.1, .xformComplete e.1]) ++
  (if e.2.claimq.isEmpty then [] else [.claimWaitStall e.1])

/-- What a launch waits for. -/
def runAgents (s : State) (n : Nat) : List Instr :=
  match (runOf s n).stage with
  | .queued => [.launchStart n]
  | .gangWait => [.gangAdmit n]
  | .passed => []
  | .bound => [.crossing n, .launchComplete n]
  | .landing => [.crossing n, .launchComplete n]
  | .done => []

/-- Crews that a die's slot table may bind. -/
def dieAgents (e : Nat × Die) : List Instr := e.2.table.flatMap (fun b => [.bindCrew e.1 b.1, .resume e.1 b.1])

/-- The event that starts a packet of an OP. -/
def packetEvent (ctx q op : Nat) : Instr :=
  match op with
  | 2 => .graphPacket ctx q
  | 3 => .levelPacket ctx q
  | 4 => .waitPacket ctx q
  | 6 => .stagePacket ctx q
  | 7 => .signalPacket ctx q
  | 8 => .replayPacket ctx q
  | _ => .launchPacket ctx q

/-- What a queue has to read. -/
def queueAgents (s : State) (ctx q : Nat) (x : Queue) : List Instr :=
  let i := skipDone x x.finished.length x.next
  let cancels := (List.range (idxSub x.tail x.next)).find? (fun n =>
    !x.finished.contains (idxAdd x.next n) &&
    (readPacket s ctx q (idxAdd x.next n)).elim false (fun v => decide (fld v 7 0 = 5)))
  (if x.hold.isSome then [.waitComplete ctx q]
   else if x.stopped || i = x.tail then []
   else [packetEvent ctx q ((readPacket s ctx q i).elim 0 (fun v => fld v 7 0))]) ++
  cancels.toList.map (fun n => .cancelPacket ctx q (idxAdd x.next n))

/-- The event that starts a node of a type. -/
def nodeEvent (g : Nat) (a : Word) (type : Nat) : Instr :=
  match type with
  | 2 => .stageNode g a
  | 3 => .condNode g a
  | 4 => .whileNode g a
  | 5 => .joinNode g a
  | 6 => .signalNode g a
  | _ => .launchNode g a

/-- Nodes that the graph walker may start. -/
def graphAgents (s : State) (g : Nat) : List Instr :=
  (graphAt s g).ready.map (fun a => nodeEvent g a ((readNode s (graphAt s g).ctx a).elim 0 (fun v => (nodeOf v).type)))

/-- Everything that some unit could do now. -/
def agents (s : State) : List Instr :=
  s.strands.flatMap (strandAgents s) ++ s.cores.flatMap coreAgents ++ s.clusters.flatMap clusterAgents ++
  (List.range s.runs.length).flatMap (runAgents s) ++ s.dies.flatMap dieAgents ++
  s.contexts.flatMap (fun e => (e.2.toList.flatMap (fun c => c.queues.zipIdx)).flatMap (fun x => queueAgents s e.1 x.2 x.1)) ++
  (List.range s.graphs.length).flatMap (graphAgents s) ++
  s.colls.flatMap (fun c => [.collInstance c.id, .collComplete c.id]) ++ s.jobs.map (fun j => .jobComplete j.id) ++
  s.retained.map (fun h => .retainExpiry h.ctx h.tag) ++ (if s.cmdBusy then [cmdEvent (cmdOp s.cmdBlock)] else [])

/-- The unit whose turn it is among those that could act, in a rotation. -/
def agentTurn (s : State) : Option Turn :=
  let l := (agents s).map Turn.event ++ (actsDue s).map Turn.act
  l[s.steps / 2 % max 1 l.length]?

/-- The turn of a party by the arbiter of a core (R178), in a rotation over the cores. -/
def issueTurn (s : State) : Option (Turn × State) :=
  (turnCore s).bind (fun core =>
    (coreTurn s core).map (fun e => (.issue e.2, setCore s core (fun c => { c with pointer := (e.1 + 1) % 5 }))))

/-- The turn of this step: a scheduled one; else work that is due; else, by turns, a unit's or a party's. -/
def chooseTurn (s : State) : Option Turn × State :=
  match s.schedule with
  | t :: r => (some t, { s with schedule := r })
  | [] =>
    match s.due with
    | i :: r => (some (.event i), { s with due := r })
    | [] =>
      match (if s.steps % 2 = 0 then none else issueTurn s) with
      | some (t, s1) => (some t, s1)
      | none =>
        match agentTurn s with
        | some t => (some t, s)
        | none =>
          match issueTurn s with
          | some (t, s1) => (some t, s1)
          | none => (none, s)

/-- What a fetched instruction leads to. -/
def fetched (r : Except Trap (Except Parcel Instr × State)) (s : State) : Option Instr × State :=
  match r with
  | .error t => (some (.fetchFault (BitVec.ofNat 8 t.cause) t.tval), noteTrap s t)
  | .ok (.error p, s1) => (some (.malformedEncoding p), s1)
  | .ok (.ok i, s1) => (some i, s1)

/-- The instruction of a strand inside a repetition (R184). An index beyond the body, which only a debugger can write, names no
instruction: the strand never issues again (R186, assumption 81). -/
def repetition (s : State) (t : Strand) (r : Rep) : Option Instr × State :=
  match r.body[r.idx]? with
  | none => (none, s)
  | some e =>
    match passInstr s t r e.1 with
    | .error tr => (none, takeTrap s t.key tr)
    | .ok i => (some i, s)

/-- The first parcel of the REPB before a body (R184, assumption 74). -/
def repbAt (s : State) (t : Strand) (base : Word) : Word :=
  match fetchParcel s t (base - 4) with
  | .ok (p, _) => p.setWidth 64
  | .error _ => Config.repbParcel

/-- A strand that resumed with `repst` ACTIVE captures its body again and continues (R186). -/
def recapture (s : State) (t : Strand) : Option Instr × State :=
  let v := t.repst.toNat
  let n := fld v 4 1 + 1
  let base := t.pc - BitVec.ofNat 64 (fld v 40 32)
  match captureBody t (fld v 28 25) n s base 0 with
  | .error tr => (none, takeTrap s t.key tr)
  | .ok (none, s1) =>
    (none, takeTrap s1 t.key { cause := cIllegal, tval := repbAt s1 t base })
  | .ok (some body, s1) =>
    let r : Rep := { base := base, body := body, idx := fld v 8 5, pass := fld v 14 9, count := fld v 20 15 + 1
                     stride := fld v 24 21, mask := fld v 28 25 }
    let s2 := setStrand s1 t.key (fun t => { t with rep := some r, recapture := false })
    repetition s2 (strandOf s2 t.key) r

/-- The instruction that a party issues. A strand that a cancel covers issues nothing after the CANCEL's step (R141, assumption 124). -/
def issueNext (s : State) (p : Party) : Option Instr × State :=
  let s := { s with cur := p }
  match p with
  | .handler c =>
    let h := coreOf s c
    if h.hawake && !h.hfrozen && !h.failed then fetched (fetchInstr (fun s a => fetchHandler s c a) s h.hpc) s else (none, s)
  | .strand k =>
    match findStrand s k with
    | none => (none, s)
    | some t =>
      if !strandReady s t then (none, s)
      else if t.cancelPending && atBoundary t then (some (.strandCancel k), s)
      else if t.recapture then recapture s t
      else
        match t.rep with
        | some r => repetition s t r
        | none => fetched (fetchStrand s t t.pc) s

/-- The instruction or event of a turn. -/
def turnInstr (s : State) (t : Turn) : Option Instr × State :=
  match t with
  | .event i => (some i, s)
  | .issue p => issueNext s p
  | .act a => (none, performAct a s)

/-- What this step executes, if anything, and the state in which it does. While STATE is FAILED nothing runs and no clock
counts (R393, R394). -/
def nextInstr (s : State) : Option Instr × State :=
  if s.status = 2 then (none, { s with schedule := s.schedule.tail })
  else
    match chooseTurn (tick s) with
    | (none, s1) => (none, s1)
    | (some t, s1) => turnInstr s1 t

end Sys2Proof.Machine
end

