-- ==== Sys2Proof/Machine/Place.lean ====
section
/-! DEFINITION. A strand with one instruction at its pc, for running a single instruction (assumption 3): a launch of
one strand in an unused context, whose tables map the first 2 GiB of device memory onto themselves. -/

namespace Sys2Proof.Machine

/-- Where the placed instruction stands, and the root table above it. -/
def placePc : Nat := 0x2000
def placeRoot : Nat := 2 ^ 31

/-- A context number that no context uses, or 15. -/
def freeContext (s : State) : Nat :=
  ((List.range 15).find? (fun c => (tget none s.contexts c).isNone)).getD 15

/-- A place for the strand: the first core and slot of die 0 without one. -/
def freePlace (s : State) : Nat × Nat :=
  (((List.range Config.dieStrands).find? (fun q => (physStrand s 0 q).isNone)).map (fun q => (q / 4, q % 4))).getD (0, 0)

/-- The launch, the context and the strand. -/
def placeStrand (s : State) (ctx : Nat) (place : Nat × Nat) : Strand :=
  { key := ⟨s.runs.length, 0⟩, ctx := ctx, core := place.1, slot := place.2, pc := BitVec.ofNat 64 placePc, vblocks := 8
    granules := List.range 16
    segs := [(0, descOf 0 (2 ^ 30) kConst true false true 0), (1, descOf 0 196607 kScratch true true false 0),
             (4, descOf 0 (2 ^ 30) kGlobal true true false 0)] }

/-- The bytes of an instruction of nbits bits, first parcel lowest, and zeros up to 20 bytes. -/
def wordBytes (nbits w : Nat) : List Byte := leBytes 20 (w % 2 ^ nbits)

/-- The state whose next step fetches and runs those bytes. -/
def placeWord (s : State) (nbits w : Nat) : State :=
  let ctx := freeContext s
  let t := placeStrand s ctx (freePlace s)
  let s1 : State :=
    { s with
      strands := s.strands ++ [t]
      crews := s.crews ++ [{ run := s.runs.length, crew := 0, cluster := clusterOfCore t.core }]
      runs := s.runs ++ [{ noRun with ctx := ctx, ncrew := 1, nstrand := 1, stage := .bound }]
      contexts := tins s.contexts ctx (some { root := placeRoot, code := 0, codeSize := 0, mani := 0, maniSize := 0
                                              save := 0, saveSize := 0, level := 0, queues := [] })
      schedule := .issue (.strand t.key) :: s.schedule
      status := if s.status = 2 then 1 else s.status }
  let s2 := poke (poke s1 .dev placePc (wordBytes nbits w)) .dev placeRoot (leBytes 8 0x7F)
  let s3 := setCluster s2 (clusterOfCore t.core) (fun c => { c with tlb := [] })
  setCore s3 t.core (fun c => { c with utlb := [], icache := [], failed := false })

end Sys2Proof.Machine
end

