-- ==== Sys2Proof/Machine/Step.lean ====
section
/-! DEFINITION. One step of the machine. -/

namespace Sys2Proof.Machine

/-- One step: time passes, a turn is chosen, and its instruction or event takes place. -/
def step (s : State) : Host.Outcome State Fault Refusal :=
  match nextInstr s with
  | (none, s1) => .next s1
  | (some i, s1) => exec i s1

/-- The state in which the next step fetches and runs the instruction of the given bits (assumption 3). -/
def State.withFetchWord (s : State) (nbits w : Nat) : State := placeWord s nbits w

end Sys2Proof.Machine
end

