-- ==== Sys2Proof/Certificates/Slice0/Obligations.lean ====
section
/-! DEFINITION. What is to be proved: statements about the decoder, the meanings and the step, from the spec's rules. -/

namespace Sys2Proof.Oblig

open Machine

/-! ### The words of the statements -/

/-- What a meaning answers. -/
abbrev Answer := Host.Outcome State Fault Refusal

/-- A party that exists issues: a strand, or a core's handler context (R98, R191). -/
def issuing (s : State) : Bool :=
  match s.cur with
  | .strand k => (findStrand s k).isSome
  | .handler _ => true

/-- Strand t issues. -/
def Issues (s : State) (t : Strand) : Prop := s.cur = .strand t.key ∧ findStrand s t.key = some t

/-- The handler context of core c issues. -/
def IssuesHandler (s : State) (c : Nat) : Prop := s.cur = .handler c

/-- The end of the body of the hardware loop is reached (R133). -/
def endsBody (t : Strand) (len : Nat) : Bool := t.lpcount ≠ 0 && t.pc + BitVec.ofNat 64 len = t.lpend

/-- The address at which a strand goes on after an instruction of len bytes (R133). -/
def seqPc (t : Strand) (len : Nat) : Word :=
  if endsBody t len && t.lpcount ≠ 1 then t.lpstart else t.pc + BitVec.ofNat 64 len

/-- The loop count after it (R133). -/
def seqCount (t : Strand) (len : Nat) : Word := if endsBody t len then t.lpcount - 1 else t.lpcount

/-- A strand outside a repetition goes on behind an instruction of len bytes. -/
def GoesOn (t t' : Strand) (len : Nat) : Prop :=
  t.rep = none → t'.pc = seqPc t len ∧ t'.lpcount = seqCount t len ∧ t'.rep = none

/-- Of a strand, only GPRs with their dead bits and the flow of control differ. -/
def OnlyRegs (t t' : Strand) : Prop :=
  t' = { t with x := t'.x, dead := t'.dead, pc := t'.pc, lpcount := t'.lpcount, rep := t'.rep }

/-- Of a strand, only the flow of control differs. -/
def OnlyFlow (t t' : Strand) : Prop := t' = { t with pc := t'.pc, lpcount := t'.lpcount, rep := t'.rep }

/-- The answer is a next state that differs from s in strand k alone, which has become t'. -/
def NextStrand (s : State) (o : Answer) (k : StrandKey) (t' : Strand) : Prop := o = .next (setStrand s k (fun _ => t'))

/-- The answer is a next state in which register rd of the party holds v (x0 discards it), every other register what it
held, and in which the party goes on behind an instruction of 4 bytes. Nothing else differs: no other strand, no byte of
memory, no special register. A written register is no longer dead (R99). -/
def Writes (s : State) (o : Answer) (rd : BitVec 5) (v : Word) : Prop :=
  ∃ u, o = .next u ∧ u.cur = s.cur ∧ (∀ r, xGet u r = if r = rd ∧ rd ≠ 0 then v else xGet s r) ∧
    match s.cur with
    | .strand k => ∃ t t', findStrand s k = some t ∧ u = setStrand s k (fun _ => t') ∧ OnlyRegs t t' ∧ GoesOn t t' 4 ∧
        ∀ r < 32, t'.dead.getLsbD r = (t.dead.getLsbD r && (r ≠ rd.toNat || rd = 0))
    | .handler c => ∃ h, u = setCore s c (fun _ => h) ∧ h = { coreOf s c with hx := h.hx, hpc := (coreOf s c).hpc + 4 }

/-- The answer is a next state in which the party goes on at an address, and nothing else differs. -/
def Jumps (s : State) (o : Answer) (target : Word) : Prop :=
  match s.cur with
  | .strand k => ∃ t, findStrand s k = some t ∧ NextStrand s o k { t with pc := target }
  | .handler c => o = .next (setCore s c (fun h => { h with hpc := target }))

/-- The answer is a next state in which the party goes on behind an instruction of len bytes, and nothing else differs. -/
def Skips (s : State) (o : Answer) (len : Nat) : Prop :=
  match s.cur with
  | .strand k => ∃ t t', findStrand s k = some t ∧ NextStrand s o k t' ∧ OnlyFlow t t' ∧ GoesOn t t' len
  | .handler c => o = .next (setCore s c (fun h => { h with hpc := h.hpc + BitVec.ofNat 64 len }))

end Sys2Proof.Oblig

namespace Sys2Proof.Oblig

open Machine

/-- The fault packet of strand t for a cause (R192). -/
def packetFor (s : State) (t : Strand) (cause : Nat) (tval : Word) (fetch : Bool) : Packet :=
  { key := t.key, cause := BitVec.ofNat 8 cause, fetch := fetch
    phys := t.core / 768 * 2 ^ 12 + t.core % 768 * 4 + t.slot, pc := t.pc, tval := tval, gtc := gtcOf s (t.core / 768)
    launch := (runOf s t.key.run).launchid, job := (runOf s t.key.run).jobid }

/-- The answer is a next state in which strand t has taken a trap (R115): it is FROZEN with its packet, its reservation
lost and a save that had begun given up (R114); the packet waits at its core for the buddy; of the rest, nothing differs: no register,
no byte of memory. -/
def Traps (s : State) (o : Answer) (t : Strand) (cause : Nat) (tval : Word) (fetch : Bool) : Prop :=
  let p := packetFor s t cause tval fetch
  ∃ t', o = .next { setCore (setStrand s t.key (fun _ => t')) t.core (fun c =>
      { c with outq := c.outq ++ [p], savingBits := if t.saving.isSome then c.savingBits &&& ~~~(1#4 <<< (t.slot % 4)) else c.savingBits }) with
      due := s.due ++ [.faultPacketDeliver t.core] } ∧
    t' = { t with life := .frozen, saving := none, rep := none, recapture := false, wait := none, resv := none, packet := some p
                  escalated := false, repst := t'.repst, frozenAt := t'.frozenAt } ∧
    (t.rep = none → t.recapture = false → t'.repst = 0)

/-- The answer is a next state in which the handler context of core c has taken a trap (R191): it is frozen, and its packet
is with its die manager. That the packet's PHYS names the die alone is the model's choice (log entry 86). -/
def HandlerTraps (s : State) (o : Answer) (c : Nat) (cause : Nat) (tval : Word) (fetch : Bool) : Prop :=
  o = .next (setDie (setCore s c (fun x => { x with hfrozen := true, hresv := none })) (c / 768) (fun d =>
    { d with escalated := d.escalated ++ [{ cause := BitVec.ofNat 8 cause, fetch := fetch, phys := c / 768 * 2 ^ 12
                                            pc := (coreOf s c).hpc, tval := tval, gtc := gtcOf s (c / 768), ofHandler := true }] }))

/-- The party that issues takes a trap. -/
def PartyTraps (s : State) (o : Answer) (cause : Nat) (tval : Word) (fetch : Bool) : Prop :=
  match s.cur with
  | .strand k => ∃ t, findStrand s k = some t ∧ Traps s o t cause tval fetch
  | .handler c => HandlerTraps s o c cause tval fetch

/-- Every byte of storage reads in u as in s. -/
def SameBytes (s u : State) : Prop := ∀ sp a, peek u sp a = peek s sp a

/-- Outside n bytes at a of one space, every byte reads in u as in s. -/
def OtherBytes (s u : State) (sp : Space) (a n : Nat) : Prop :=
  ∀ sp' b, ¬ (sp' = sp ∧ a ≤ b ∧ b < a + n) → peek u sp' b = peek s sp' b

/-- From s to u, register rd has become v, every other register of the party is as it was, and the party has gone on
behind an instruction of len bytes. -/
def RegStep (s u : State) (rd : BitVec 5) (v : Word) (len : Nat) : Prop :=
  u.cur = s.cur ∧ (∀ r, xGet u r = if r = rd ∧ rd ≠ 0 then v else xGet s r) ∧
  match s.cur with
  | .strand k => ∃ t t', findStrand s k = some t ∧ findStrand u k = some t' ∧ GoesOn t t' len ∧ t'.life = t.life
  | .handler c => (coreOf u c).hpc = (coreOf s c).hpc + BitVec.ofNat 64 len

/-- The same without a register written. -/
def PlainStep (s u : State) (len : Nat) : Prop := RegStep s u 0 0 len

end Sys2Proof.Oblig

section

open Sys2Proof Sys2Proof.Machine Sys2Proof.Oblig

/-! ### The base architecture: integer computation (R99, R117 to R119) -/

/-- Immediate forms write their result, and nothing else but the flow of control. -/
def Obligations.ImmediateResults : Prop :=
  ∀ (s : State) (rd rs1 : BitVec 5) (imm : BitVec 12) (up : BitVec 20), issuing s = true →
    Writes s (exec (.lui rd up) s) rd ((up ++ 0#12).signExtend 64) ∧
    Writes s (exec (.auipc rd up) s) rd (pcOf s + (up ++ 0#12).signExtend 64) ∧
    Writes s (exec (.addi rd rs1 imm) s) rd (xGet s rs1 + imm.signExtend 64) ∧
    Writes s (exec (.slti rd rs1 imm) s) rd (if (xGet s rs1).toInt < imm.toInt then 1 else 0) ∧
    Writes s (exec (.sltiu rd rs1 imm) s) rd (if xGet s rs1 < imm.signExtend 64 then 1 else 0) ∧
    Writes s (exec (.xori rd rs1 imm) s) rd (xGet s rs1 ^^^ imm.signExtend 64) ∧
    Writes s (exec (.ori rd rs1 imm) s) rd (xGet s rs1 ||| imm.signExtend 64) ∧
    Writes s (exec (.andi rd rs1 imm) s) rd (xGet s rs1 &&& imm.signExtend 64) ∧
    Writes s (exec (.addiw rd rs1 imm) s) rd (((xGet s rs1 + imm.signExtend 64).setWidth 32).signExtend 64)

/-- Shifts take the low 6 bits of the amount, the low 5 in the W forms (R119). -/
def Obligations.ShiftResults : Prop :=
  ∀ (s : State) (rd rs1 rs2 : BitVec 5) (sh : BitVec 6) (shw : BitVec 5), issuing s = true →
    let a := xGet s rs1
    let w := (xGet s rs1).setWidth 32
    let n := (xGet s rs2).toNat % 64
    let m := (xGet s rs2).toNat % 32
    Writes s (exec (.slli rd rs1 sh) s) rd (a <<< sh.toNat) ∧
    Writes s (exec (.srli rd rs1 sh) s) rd (a >>> sh.toNat) ∧
    Writes s (exec (.srai rd rs1 sh) s) rd (a.sshiftRight sh.toNat) ∧
    Writes s (exec (.slliw rd rs1 shw) s) rd ((w <<< shw.toNat).signExtend 64) ∧
    Writes s (exec (.srliw rd rs1 shw) s) rd ((w >>> shw.toNat).signExtend 64) ∧
    Writes s (exec (.sraiw rd rs1 shw) s) rd ((w.sshiftRight shw.toNat).signExtend 64) ∧
    Writes s (exec (.sll rd rs1 rs2) s) rd (a <<< n) ∧
    Writes s (exec (.srl rd rs1 rs2) s) rd (a >>> n) ∧
    Writes s (exec (.sra rd rs1 rs2) s) rd (a.sshiftRight n) ∧
    Writes s (exec (.sllw rd rs1 rs2) s) rd ((w <<< m).signExtend 64) ∧
    Writes s (exec (.srlw rd rs1 rs2) s) rd ((w >>> m).signExtend 64) ∧
    Writes s (exec (.sraw rd rs1 rs2) s) rd ((w.sshiftRight m).signExtend 64)

/-- Register forms of addition, comparison and logic. -/
def Obligations.RegisterResults : Prop :=
  ∀ (s : State) (rd rs1 rs2 : BitVec 5), issuing s = true →
    let a := xGet s rs1
    let b := xGet s rs2
    Writes s (exec (.add rd rs1 rs2) s) rd (a + b) ∧
    Writes s (exec (.sub rd rs1 rs2) s) rd (a - b) ∧
    Writes s (exec (.slt rd rs1 rs2) s) rd (if a.toInt < b.toInt then 1 else 0) ∧
    Writes s (exec (.sltu rd rs1 rs2) s) rd (if a < b then 1 else 0) ∧
    Writes s (exec (.xor rd rs1 rs2) s) rd (a ^^^ b) ∧
    Writes s (exec (.or rd rs1 rs2) s) rd (a ||| b) ∧
    Writes s (exec (.and rd rs1 rs2) s) rd (a &&& b) ∧
    Writes s (exec (.addw rd rs1 rs2) s) rd (((a + b).setWidth 32).signExtend 64) ∧
    Writes s (exec (.subw rd rs1 rs2) s) rd (((a - b).setWidth 32).signExtend 64) ∧
    Writes s (exec (.mul rd rs1 rs2) s) rd (a * b) ∧
    Writes s (exec (.mulw rd rs1 rs2) s) rd (((a * b).setWidth 32).signExtend 64) ∧
    Writes s (exec (.mulh rd rs1 rs2) s) rd ((a.signExtend 128 * b.signExtend 128).extractLsb' 64 64) ∧
    Writes s (exec (.mulhsu rd rs1 rs2) s) rd ((a.signExtend 128 * b.setWidth 128).extractLsb' 64 64) ∧
    Writes s (exec (.mulhu rd rs1 rs2) s) rd ((a.setWidth 128 * b.setWidth 128).extractLsb' 64 64)

/-- Division follows the table of R119: all ones or the dividend for divisor 0, else the quotient rounded toward zero and
its remainder; the W forms on the low 32 bits, sign-extended. -/
def Obligations.DivisionResults : Prop :=
  ∀ (s : State) (rd rs1 rs2 : BitVec 5), issuing s = true →
    let a := xGet s rs1
    let b := xGet s rs2
    let c := (xGet s rs1).setWidth 32
    let d := (xGet s rs2).setWidth 32
    Writes s (exec (.div rd rs1 rs2) s) rd (if b = 0 then -1 else a.sdiv b) ∧
    Writes s (exec (.divu rd rs1 rs2) s) rd (if b = 0 then -1 else a / b) ∧
    Writes s (exec (.rem rd rs1 rs2) s) rd (if b = 0 then a else a.srem b) ∧
    Writes s (exec (.remu rd rs1 rs2) s) rd (if b = 0 then a else a % b) ∧
    Writes s (exec (.divw rd rs1 rs2) s) rd ((if d = 0 then -1 else c.sdiv d).signExtend 64) ∧
    Writes s (exec (.divuw rd rs1 rs2) s) rd ((if d = 0 then -1 else c / d).signExtend 64) ∧
    Writes s (exec (.remw rd rs1 rs2) s) rd ((if d = 0 then c else c.srem d).signExtend 64) ∧
    Writes s (exec (.remuw rd rs1 rs2) s) rd ((if d = 0 then c else c % d).signExtend 64)

/-! ### The base architecture: transfers (R125, R129, R136) -/

/-- Whether a transfer to an address is allowed: aligned, and for a strand with bits [63:60] zero (R125). -/
def Sys2Proof.Oblig.targetOk (s : State) (a : Word) : Bool :=
  a.toNat % 4 = 0 && (match s.cur with
    | .strand _ => a.toNat < 2 ^ 60
    | .handler _ => true)

/-- A branch whose condition holds goes to an allowed target; one whose condition does not hold goes on, whatever its
target. -/
def Sys2Proof.Oblig.BranchesOn (s : State) (o : Answer) (cond : Bool) (target : Word) : Prop :=
  (cond = true → targetOk s target = true → Jumps s o target) ∧ (cond = false → Skips s o 4)

/-- The six conditional branches, BBS and BBC: taken or not, nothing but the flow of control changes. That a handler context's target
is checked for alignment alone is the model's choice (log entry 12). -/
def Obligations.BranchResults : Prop :=
  ∀ (s : State) (rs1 rs2 : BitVec 5) (off : BitVec 12), issuing s = true →
    let a := xGet s rs1
    let b := xGet s rs2
    let dest := pcOf s + (off ++ 0#1).signExtend 64
    BranchesOn s (exec (.beq rs1 rs2 off) s) (a = b) dest ∧
    BranchesOn s (exec (.bne rs1 rs2 off) s) (a ≠ b) dest ∧
    BranchesOn s (exec (.blt rs1 rs2 off) s) (a.toInt < b.toInt) dest ∧
    BranchesOn s (exec (.bge rs1 rs2 off) s) (b.toInt ≤ a.toInt) dest ∧
    BranchesOn s (exec (.bltu rs1 rs2 off) s) (a < b) dest ∧
    BranchesOn s (exec (.bgeu rs1 rs2 off) s) (b ≤ a) dest ∧
    ∀ (t : Strand) (h : Bool) (i : BitVec 6) (off : BitVec 10), Issues s t →
      let dest := t.pc + (off ++ 0#1).signExtend 64
      BranchesOn s (exec (.bbs h rs1 i off) s) (a.getLsbD i.toNat) dest ∧
      BranchesOn s (exec (.bbc h rs1 i off) s) (!a.getLsbD i.toNat) dest

/-- JAL and JALR of a handler context to an aligned target: rd holds pc + 4. -/
def Sys2Proof.Oblig.handlerJumps : Prop :=
  ∀ (s : State) (c : Nat) (rd rs1 : BitVec 5) (off : BitVec 20) (imm : BitVec 12), IssuesHandler s c →
    let links (o : Answer) (target : Word) : Prop :=
      target.toNat % 4 = 0 → ∃ u h, o = .next u ∧ u = setCore s c (fun _ => h) ∧ h = { coreOf s c with hx := h.hx, hpc := target } ∧
        ∀ r, xGet u r = if r = rd ∧ rd ≠ 0 then (coreOf s c).hpc + 4 else xGet s r
    links (exec (.jal rd off) s) ((coreOf s c).hpc + (off ++ 0#1).signExtend 64) ∧
    links (exec (.jalr rd rs1 imm) s) ((xGet s rs1 + imm.signExtend 64) &&& ~~~1#64)

/-- JAL and JALR to an allowed target: rd holds pc + 4, then a call (rd = ra) and a return (rd = x0, rs1 = ra, offset 0)
mark the registers of `deadmask` dead, x0 to x2 never; no other register, and nothing else, changes (R100, R125). -/
def Sys2Proof.Oblig.strandJumps : Prop :=
  ∀ (s : State) (t : Strand) (rd rs1 : BitVec 5) (off : BitVec 20) (imm : BitVec 12), Issues s t →
    let marked (t' : Strand) : Prop := ∀ r < 32,
      t'.dead.getLsbD r = ((t.dead.getLsbD r && (r ≠ rd.toNat || rd = 0)) || (2 < r && t.deadmask.getLsbD r))
    let plain (t' : Strand) : Prop := ∀ r < 32, t'.dead.getLsbD r = (t.dead.getLsbD r && (r ≠ rd.toNat || rd = 0))
    let links (o : Answer) (target : Word) (marks : Bool) : Prop :=
      targetOk s target = true → ∃ t', NextStrand s o t.key t' ∧ OnlyRegs t t' ∧ t'.pc = target ∧ t'.rep = t.rep ∧
        t'.lpcount = t.lpcount ∧ (∀ r < 32, r ≠ 0 → tget 0 t'.x r = if r = rd.toNat then t.pc + 4 else tget 0 t.x r) ∧
        (if marks then marked t' else plain t')
    links (exec (.jal rd off) s) (t.pc + (off ++ 0#1).signExtend 64) (rd = 1) ∧
    links (exec (.jalr rd rs1 imm) s) ((xGet s rs1 + imm.signExtend 64) &&& ~~~1#64)
      (rd = 1 || (rd = 0 && rs1 = 1 && imm = 0))

/-- JAL and JALR write the link and go on at the target: in a strand, and in a handler context, where alignment alone is checked (the
model's choice, log entry 12). -/
def Obligations.JumpResults : Prop := handlerJumps ∧ strandJumps

end

section

open Sys2Proof Sys2Proof.Machine Sys2Proof.Oblig

/-! ### Traps (R66, R68, R115, R125, R129, R191) -/

/-- ECALL, EBREAK, a malformed encoding and a failed fetch trap, with the cause and tval of R66, R68 and R129; a fetch fails with SEGMENT,
PAGE or ACCESS and no other cause. What a handler
context's packet holds as PHYS is the model's choice (log entry 86). -/
def Obligations.TrapEntry : Prop :=
  ∀ (s : State) (parcel : Parcel) (cause : BitVec 8) (addr : Word), issuing s = true →
    PartyTraps s (exec .ecall s) 0x05 0 false ∧
    PartyTraps s (exec .ebreak s) 0x06 (pcOf s) false ∧
    PartyTraps s (exec (.malformedEncoding parcel) s) 0x00 (parcel.setWidth 64) false ∧
    (cause ∈ [0x02#8, 0x03#8, 0x04#8] → PartyTraps s (exec (.fetchFault cause addr) s) cause.toNat addr (cause = 0x03)) ∧
    (cause ∉ [0x02#8, 0x03#8, 0x04#8] → exec (.fetchFault cause addr) s = .next s)

/-- A transfer that is taken to a bad target traps and writes no link: with MISALIGNED in a strand and in a handler context, and in a
strand with SEGMENT where the target is aligned. That a target which is bad both ways traps with MISALIGNED is read from the order of
R110 and R116, and that a handler context's target is checked for alignment alone: the model's choices (log entry 12). -/
def Obligations.TransferTraps : Prop :=
  ∀ (s : State) (rd rs1 rs2 : BitVec 5) (off : BitVec 20) (imm boff : BitVec 12), issuing s = true →
    let traps (o : Answer) (target : Word) : Prop :=
      (target.toNat % 4 ≠ 0 → PartyTraps s o 0x01 target false) ∧
      ∀ t, Issues s t → target.toNat % 4 = 0 → 2 ^ 60 ≤ target.toNat → Traps s o t 0x02 target false
    let a := xGet s rs1
    let b := xGet s rs2
    let dest := pcOf s + (boff ++ 0#1).signExtend 64
    traps (exec (.jal rd off) s) (pcOf s + (off ++ 0#1).signExtend 64) ∧
    traps (exec (.jalr rd rs1 imm) s) ((a + imm.signExtend 64) &&& ~~~1#64) ∧
    (a = b → traps (exec (.beq rs1 rs2 boff) s) dest) ∧ (a ≠ b → traps (exec (.bne rs1 rs2 boff) s) dest) ∧
    (a.toInt < b.toInt → traps (exec (.blt rs1 rs2 boff) s) dest) ∧ (b.toInt ≤ a.toInt → traps (exec (.bge rs1 rs2 boff) s) dest) ∧
    (a < b → traps (exec (.bltu rs1 rs2 boff) s) dest) ∧ (b ≤ a → traps (exec (.bgeu rs1 rs2 boff) s) dest) ∧
    ∀ (t : Strand) (h : Bool) (i : BitVec 6) (off : BitVec 10), Issues s t →
      let dest := t.pc + (off ++ 0#1).signExtend 64
      (a.getLsbD i.toNat = true → traps (exec (.bbs h rs1 i off) s) dest) ∧
      (a.getLsbD i.toNat = false → traps (exec (.bbc h rs1 i off) s) dest)

/-- Instructions that only handler contexts execute trap with PRIV when a strand issues them, with the first parcel as
tval; nothing else changes. A malformed XS encoding traps with ILLEGAL, whoever issues it; the packet of a handler context that does is the
die manager's (R191), and the PHYS it carries is the model's choice (log entry 86). -/
def Obligations.HandlerOnly : Prop :=
  (∀ (s : State) (t : Strand) (rs1 : BitVec 5) (i : Instr), Issues s t → i ∈ [Instr.stres rs1, .stkill rs1, .escal rs1, .stret] →
    t.rep = none → Traps s (exec i s) t 0x0D (firstParcel i) false) ∧
  ∀ (s : State) (p : Parcel), issuing s = true → p.extractLsb' 0 7 = 0x7B →
    PartyTraps s (exec (.malformedEncoding p) s) 0x00 (p.setWidth 64) false

/-! ### Loads and stores (R110, R111, R120) -/

/-- A load that translates and finds no poison writes the bytes, lowest address first, sign- or zero-extended; what differs
from the state that translation and the L1 leave is the register and the flow of control. -/
def Sys2Proof.Oblig.loadRegisters : Prop :=
  ∀ (s s2 : State) (rd rs1 : BitVec 5) (imm : BitVec 12) (bs : List Byte), issuing s = true →
    let ea := xGet s rs1 + imm.signExtend 64
    let loads (n : Nat) : Prop := curWindow s ea = none ∧ loadCur s ea n = .ok (bs, s2)
    let v := leNat bs
    (loads 1 → Writes s2 (exec (.lb rd rs1 imm) s) rd ((BitVec.ofNat 8 v).signExtend 64) ∧
               Writes s2 (exec (.lbu rd rs1 imm) s) rd ((BitVec.ofNat 8 v).setWidth 64)) ∧
    (loads 2 → Writes s2 (exec (.lh rd rs1 imm) s) rd ((BitVec.ofNat 16 v).signExtend 64) ∧
               Writes s2 (exec (.lhu rd rs1 imm) s) rd ((BitVec.ofNat 16 v).setWidth 64)) ∧
    (loads 4 → Writes s2 (exec (.lw rd rs1 imm) s) rd ((BitVec.ofNat 32 v).signExtend 64) ∧
               Writes s2 (exec (.lwu rd rs1 imm) s) rd ((BitVec.ofNat 32 v).setWidth 64)) ∧
    (loads 8 → Writes s2 (exec (.ld rd rs1 imm) s) rd (BitVec.ofNat 64 v))

/-- What a load leaves beside its register: no GPR of any strand or handler context, no byte of a scratchpad, of a weight buffer or of
host memory differs. -/
def Sys2Proof.Oblig.loadFrame : Prop :=
  ∀ (s s2 : State) (ea : Word) (n : Nat) (bs : List Byte), n ≤ 64 → loadCur s ea n = .ok (bs, s2) →
    bs.length = n ∧ s2.cur = s.cur ∧ (∀ r, xGet s2 r = xGet s r) ∧ pcOf s2 = pcOf s ∧
    (∀ k t, findStrand s k = some t → ∃ t', findStrand s2 k = some t' ∧ t'.x = t.x ∧ t'.dead = t.dead) ∧
    (∀ c, (coreOf s2 c).hx = (coreOf s c).hx) ∧
    (∀ sp a, sp ≠ .dev → peek s2 sp a = peek s sp a)

/-- Loads write what translation and memory give, and their frame. -/
def Obligations.LoadResults : Prop := loadRegisters ∧ loadFrame

/-- A load from a strand's scratchpad within LIMIT and its granules: the bytes lie where R111 puts them, and are sign- or zero-extended.
No addition of the strand is held by its home: an access that comes after one of them waits (R320). -/
def Obligations.ScratchLoad : Prop :=
  ∀ (s : State) (t : Strand) (rd rs1 : BitVec 5) (imm : BitVec 12), Issues s t → writesHeld s t = false →
    let ea := gx t rs1.toNat + imm.signExtend 64
    let d := tget 0 t.segs (ea.toNat / 2 ^ 60)
    let off := ea.toNat % 2 ^ 60
    let home (o : Nat) : Nat := t.core * 196608 + t.granules.getD (o / 12288) 0 * 12288 + o % 12288
    let loads (n : Nat) (o : Answer) (value : Nat → Word) : Prop :=
      dKind d = 1 → dR d = true → off + n ≤ dLimit d + 1 → (off + n - 1) / 12288 < t.granules.length →
      (∀ i < n, poisoned s .spad (home (off + i)) 1 = false) →
      ∃ u, o = .next u ∧ SameBytes s u ∧
        RegStep s u rd (value (leNat ((List.range n).map (fun i => peek s .spad (home (off + i)))))) 4
    loads 1 (exec (.lb rd rs1 imm) s) (fun v => (BitVec.ofNat 8 v).signExtend 64) ∧
    loads 1 (exec (.lbu rd rs1 imm) s) (fun v => BitVec.ofNat 64 v) ∧
    loads 2 (exec (.lh rd rs1 imm) s) (fun v => (BitVec.ofNat 16 v).signExtend 64) ∧
    loads 2 (exec (.lhu rd rs1 imm) s) (fun v => BitVec.ofNat 64 v) ∧
    loads 4 (exec (.lw rd rs1 imm) s) (fun v => (BitVec.ofNat 32 v).signExtend 64) ∧
    loads 4 (exec (.lwu rd rs1 imm) s) (fun v => BitVec.ofNat 64 v) ∧
    loads 8 (exec (.ld rd rs1 imm) s) (fun v => BitVec.ofNat 64 v)

/-- A store that translates: what differs from the state that the store's bytes leave is the flow of control. -/
def Obligations.StoreResults : Prop :=
  ∀ (s s2 : State) (rs1 rs2 : BitVec 5) (imm : BitVec 12), issuing s = true →
    let ea := xGet s rs1 + imm.signExtend 64
    let v := (xGet s rs2).toNat
    let stores (n : Nat) : Prop := curWindow s ea = none ∧ storeCur s ea (leBytes n v) = .ok s2
    (stores 1 → Skips s2 (exec (.sb rs1 rs2 imm) s) 4) ∧ (stores 2 → Skips s2 (exec (.sh rs1 rs2 imm) s) 4) ∧
    (stores 4 → Skips s2 (exec (.sw rs1 rs2 imm) s) 4) ∧ (stores 8 → Skips s2 (exec (.sd rs1 rs2 imm) s) 4)

/-- A store into a strand's scratchpad writes its bytes where R111 puts them, lowest first, and no other byte. No addition of the strand
is held by its home: an access that comes after one of them waits (R320). -/
def Obligations.ScratchStore : Prop :=
  ∀ (s : State) (t : Strand) (rs1 rs2 : BitVec 5) (imm : BitVec 12), Issues s t → writesHeld s t = false →
    let ea := gx t rs1.toNat + imm.signExtend 64
    let d := tget 0 t.segs (ea.toNat / 2 ^ 60)
    let off := ea.toNat % 2 ^ 60
    let home (o : Nat) : Nat := t.core * 196608 + t.granules.getD (o / 12288) 0 * 12288 + o % 12288
    let stores (n : Nat) (o : Answer) : Prop :=
      dKind d = 1 → dW d = true → off + n ≤ dLimit d + 1 → (off + n - 1) / 12288 < t.granules.length →
      ∃ u, o = .next u ∧ PlainStep s u 4 ∧
        (∀ i < n, peek u .spad (home (off + i)) = (gx t rs2.toNat).extractLsb' (8 * i) 8) ∧
        (∀ sp a, (∀ i < n, (sp, a) ≠ (Space.spad, home (off + i))) → peek u sp a = peek s sp a)
    stores 1 (exec (.sb rs1 rs2 imm) s) ∧ stores 2 (exec (.sh rs1 rs2 imm) s) ∧ stores 4 (exec (.sw rs1 rs2 imm) s) ∧
    stores 8 (exec (.sd rs1 rs2 imm) s)

/-! ### Atomics (R122 to R124) -/

/-- An atomic of width n reaches its home at address a of a space: the address translates, its level allows it, no decision
of RECORDED or of a replay stands before it, and no addition that a release would wait for is held. h is the state that the home
serves: with rl the party's own stores have registered; of the other stores of its core, those to a device word's own 4-byte words
have registered, and the words have left the core's L1. That the core's stores to these words alone come first is the model's choice
(log entries 9 and 62). -/
def Sys2Proof.Oblig.ReachesHome (s : State) (op : Atomic) (n : Nat) (rd rs1 : BitVec 5) (rl : Bool) (sp : Space) (a : Nat) (h : State) : Prop :=
  ∃ s1 rest, locateAtomic s (xGet s rs1) n = .ok ((sp, a) :: rest, s1) ∧ atomicGate s1 op rd sp a = .go ∧
    (rl = true → curHeld s = false) ∧
    (match s.cur with
     | .strand k => (runOf s k.run).replay = none ∧
         ((runOf s k.run).level = 0 ∨ (runOf s k.run).level = 1 ∧ orderSensitive op rd = false)
     | .handler _ => True) ∧
    let c := curCore s1
    let s2 := if rl then registerWhere s1 c (fun p => p.key = curKey s1) else s1
    h = (if sp = .dev then l1Drop (registerWhere s2 c (fun p => (wordsOf a n).any p.touches)) c a n else wakeLoc s2 (sp, a))

/-- An AMO: rd receives the old word, sign-extended; the home holds the new one; no other byte changes. -/
def Sys2Proof.Oblig.AmoWrites (s h : State) (o : Answer) (rd : BitVec 5) (sp : Space) (a w : Nat) (new : BitVec w → BitVec w) : Prop :=
  let old := BitVec.ofNat w (peekNat h sp a (w / 8))
  ∃ u, o = .next u ∧ RegStep s u rd (old.signExtend 64) 4 ∧ peekNat u sp a (w / 8) = (new old).toNat ∧ OtherBytes h u sp a (w / 8)

/-- The nine operations in both widths (R122). -/
def Obligations.AmoResults : Prop :=
  ∀ (s h : State) (rd rs1 rs2 : BitVec 5) (aq rl : Bool) (sp : Space) (a : Nat), issuing s = true →
    let b := xGet s rs2
    let at32 (op : AmoOp) (i : Instr) (new : BitVec 32 → BitVec 32) : Prop :=
      ReachesHome s (.amo op b) 4 rd rs1 rl sp a h → poisoned h sp a 4 = false → AmoWrites s h (exec i s) rd sp a 32 new
    let at64 (op : AmoOp) (i : Instr) (new : BitVec 64 → BitVec 64) : Prop :=
      ReachesHome s (.amo op b) 8 rd rs1 rl sp a h → poisoned h sp a 8 = false → AmoWrites s h (exec i s) rd sp a 64 new
    let c := b.setWidth 32
    at32 .swap (.amoswapW rd rs1 rs2 aq rl) (fun _ => c) ∧ at64 .swap (.amoswapD rd rs1 rs2 aq rl) (fun _ => b) ∧
    at32 .add (.amoaddW rd rs1 rs2 aq rl) (fun x => x + c) ∧ at64 .add (.amoaddD rd rs1 rs2 aq rl) (fun x => x + b) ∧
    at32 .xor (.amoxorW rd rs1 rs2 aq rl) (fun x => x ^^^ c) ∧ at64 .xor (.amoxorD rd rs1 rs2 aq rl) (fun x => x ^^^ b) ∧
    at32 .and (.amoandW rd rs1 rs2 aq rl) (fun x => x &&& c) ∧ at64 .and (.amoandD rd rs1 rs2 aq rl) (fun x => x &&& b) ∧
    at32 .or (.amoorW rd rs1 rs2 aq rl) (fun x => x ||| c) ∧ at64 .or (.amoorD rd rs1 rs2 aq rl) (fun x => x ||| b) ∧
    at32 .min (.amominW rd rs1 rs2 aq rl) (fun x => if x.toInt ≤ c.toInt then x else c) ∧
    at64 .min (.amominD rd rs1 rs2 aq rl) (fun x => if x.toInt ≤ b.toInt then x else b) ∧
    at32 .max (.amomaxW rd rs1 rs2 aq rl) (fun x => if x.toInt ≤ c.toInt then c else x) ∧
    at64 .max (.amomaxD rd rs1 rs2 aq rl) (fun x => if x.toInt ≤ b.toInt then b else x) ∧
    at32 .minu (.amominuW rd rs1 rs2 aq rl) (fun x => if x ≤ c then x else c) ∧
    at64 .minu (.amominuD rd rs1 rs2 aq rl) (fun x => if x ≤ b then x else b) ∧
    at32 .maxu (.amomaxuW rd rs1 rs2 aq rl) (fun x => if x ≤ c then c else x) ∧
    at64 .maxu (.amomaxuD rd rs1 rs2 aq rl) (fun x => if x ≤ b then b else x)

/-- LR reads the word and reserves it; SC stores and answers 0 when its reservation holds, else stores nothing and answers 1;
either way the reservation is gone after it. -/
def Obligations.ReservationResults : Prop :=
  ∀ (s h : State) (rd rs1 rs2 : BitVec 5) (aq rl : Bool) (sp : Space) (a : Nat), issuing s = true →
    let ea := xGet s rs1
    let b := (xGet s rs2).toNat
    let lr (w : Nat) (i : Instr) : Prop := ReachesHome s .lr (w / 8) rd rs1 rl sp a h → poisoned h sp a (w / 8) = false →
      ∃ u, exec i s = .next u ∧ RegStep s u rd ((BitVec.ofNat w (peekNat h sp a (w / 8))).signExtend 64) 4 ∧ SameBytes h u ∧
        ∃ r, curResv u = some r ∧ r.width = w / 8 ∧ r.ea = ea ∧ r.space = sp ∧ r.word = a / 8
    let sc (w : Nat) (i : Instr) : Prop := ReachesHome s (.sc (xGet s rs2)) (w / 8) rd rs1 rl sp a h →
      ∃ u, exec i s = .next u ∧ curResv u = none ∧
        (resvValid h (w / 8) ea = true → RegStep s u rd 0 4 ∧ peekNat u sp a (w / 8) = b % 2 ^ w ∧ OtherBytes h u sp a (w / 8)) ∧
        (resvValid h (w / 8) ea = false → RegStep s u rd 1 4 ∧ SameBytes h u)
    lr 32 (.lrW rd rs1 aq rl) ∧ lr 64 (.lrD rd rs1 aq rl) ∧ sc 32 (.scW rd rs1 rs2 aq rl) ∧ sc 64 (.scD rd rs1 rs2 aq rl)

/-! ### Fences (R127, R128, R318, R319, R327) -/

/-- A fence that releases leaves no store of its party unregistered; one that acquires leaves in the core's L1 only O words, V words
being gone (R316, R319); what an O word that is not owned at its home yet holds then is the model's choice (log entry 62), as is that a
release takes older stores of other parties to the same bytes with it (log entry 9); no register changes, and a fence that does neither changes nothing. A releasing fence completes once no addition of its strand is held. -/
def Sys2Proof.Oblig.fenceCompletes : Prop :=
  ∀ (s : State) (pred succ : BitVec 4) (a b : BitVec 5), issuing s = true →
    let c := curCore s
    let fenced (o : Answer) (rel acq : Bool) : Prop := (rel = true → curHeld s = false) → ∃ u, o = .next u ∧ PlainStep s u 4 ∧
      (rel = true → ∀ p ∈ (coreOf u c).stores, p.key ≠ curKey s) ∧
      (acq = true → ∀ e ∈ (coreOf u c).l1, e.2.own = true) ∧
      (∀ sp x, sp ≠ .dev → peek u sp x = peek s sp x)
    let idle : Prop := match s.cur with
      | .strand k => ∃ t, findStrand s k = some t ∧ classesDone s t a.toNat = true
      | .handler _ => True
    fenced (exec (.fence pred succ) s) (succ ≠ 0 && (pred.getLsbD 0 || pred.getLsbD 2))
      (pred ≠ 0 && (succ.getLsbD 1 || succ.getLsbD 3)) ∧
    fenced (exec .fenceTso s) true true ∧
    (fenced (exec .fenceI s) true false ∧ ∀ u, curHeld s = false → exec .fenceI s = .next u → (coreOf u c).icache = []) ∧
    (idle → fenced (exec (.fencex a b) s) (a.getLsbD 0 && b ≠ 0) (b.getLsbD 0 && 2 ≤ a.toNat)) ∧
    (pred = 0 ∨ succ = 0 → Skips s (exec (.fence pred succ) s) 4)

/-- A FENCEX that has engine work to wait for blocks its strand, and changes nothing else. -/
def Sys2Proof.Oblig.fencexWaits : Prop :=
  ∀ (s : State) (t : Strand) (a b : BitVec 5), Issues s t → a ≠ 0 → b ≠ 0 → classesDone s t a.toNat = false →
    ∃ n, NextStrand s (exec (.fencex a b) s) t.key
      { t with life := .blocked, wait := some (4, .fencex a.toNat b.toNat), waitSince := n, blockedAt := n }

/-- The fences complete as they order accesses, and FENCEX waits while a class it names is outstanding. Which stores a release takes
with it, and what the words that an acquire keeps hold, are the model's choice (log entries 9 and 62). -/
def Obligations.FenceResults : Prop := fenceCompletes ∧ fencexWaits

/-! ### CSRs (R104 to R106, R130, R193) -/

/-- The six CSR instructions of a strand: a read form writes the old value to rd and nothing else; a write form also gives a
user CSR its new value, on the fields that take a write. -/
def Sys2Proof.Oblig.strandCsrs : Prop :=
  ∀ (s : State) (t t1 : Strand) (rd rs1 uimm : BitVec 5) (csr : BitVec 12) (old : Word), Issues s t →
    ¬ (0x5C0 ≤ csr.toNat ∧ csr.toNat ≤ 0x5FF) → readCsr s t csr.toNat = some old →
    let n := csr.toNat - 0x800
    let x := gx t rs1.toNat
    let z := uimm.setWidth 64
    let puts (i : Instr) (v : Word) : Prop := csr.toNat < 0xC00 → putUserCsr t n v = some t1 →
      Writes (setStrand s t.key (fun _ => t1)) (exec i s) rd old
    puts (.csrrw rd csr rs1) x ∧ (rs1 ≠ 0 → puts (.csrrs rd csr rs1) (old ||| x)) ∧ (rs1 ≠ 0 → puts (.csrrc rd csr rs1) (old &&& ~~~x)) ∧
    puts (.csrrwi rd csr uimm) z ∧ (uimm ≠ 0 → puts (.csrrsi rd csr uimm) (old ||| z)) ∧
    (uimm ≠ 0 → puts (.csrrci rd csr uimm) (old &&& ~~~z)) ∧
    Writes s (exec (.csrrs rd csr 0) s) rd old ∧ Writes s (exec (.csrrc rd csr 0) s) rd old ∧
    Writes s (exec (.csrrsi rd csr 0) s) rd old ∧ Writes s (exec (.csrrci rd csr 0) s) rd old

/-- The same for a handler context and its own CSRs. -/
def Sys2Proof.Oblig.handlerCsrs : Prop :=
  ∀ (s s1 : State) (c : Nat) (rd rs1 uimm : BitVec 5) (csr : BitVec 12) (old : Word), IssuesHandler s c →
    readHandlerCsr s c csr.toNat = some (.ok old) →
    let x := xGet s rs1
    let z := uimm.setWidth 64
    let puts (i : Instr) (v : Word) : Prop := writeHandlerCsr s c csr.toNat v = some (.ok s1) → Writes s1 (exec i s) rd old
    puts (.csrrw rd csr rs1) x ∧ (rs1 ≠ 0 → puts (.csrrs rd csr rs1) (old ||| x)) ∧ (rs1 ≠ 0 → puts (.csrrc rd csr rs1) (old &&& ~~~x)) ∧
    puts (.csrrwi rd csr uimm) z ∧ (uimm ≠ 0 → puts (.csrrsi rd csr uimm) (old ||| z)) ∧
    (uimm ≠ 0 → puts (.csrrci rd csr uimm) (old &&& ~~~z)) ∧
    Writes s (exec (.csrrs rd csr 0) s) rd old ∧ Writes s (exec (.csrrc rd csr 0) s) rd old ∧
    Writes s (exec (.csrrsi rd csr 0) s) rd old ∧ Writes s (exec (.csrrci rd csr 0) s) rd old

/-- The six CSR instructions read and write special registers: a strand's, and a handler context's. -/
def Obligations.CsrResults : Prop := strandCsrs ∧ handlerCsrs

/-- A write of user CSR n of the 13 changes that CSR on its writable fields and no other; a new place or size of the ring also
empties the ring (R299). -/
def Obligations.CsrFields : Prop :=
  ∀ (t t1 : Strand) (n : Nat) (v : Word), n ≤ 12 → putUserCsr t n v = some t1 →
    (∀ m ≤ 12, userCsr t1 m = if m = n then v &&& csrMask n else if m = 10 ∧ (n = 8 ∨ n = 9) then 0 else userCsr t m) ∧
    t1.x = t.x ∧ t1.v = t.v ∧ t1.segs = t.segs ∧ t1.pc = t.pc ∧ t1.dead = t.dead

/-- A strand's access to a handler CSR traps with PRIV, to an address without a CSR with ILLEGAL, whatever its form; each form that
writes traps with ILLEGAL on a read-only CSR, and with ENGINE on `ringhead` beyond the delivered entries. -/
def Obligations.CsrTraps : Prop :=
  ∀ (s : State) (t : Strand) (rd rs1 uimm : BitVec 5) (csr : BitVec 12), Issues s t → t.rep = none →
    let x := gx t rs1.toNat
    let z := uimm.setWidth 64
    let traps (i : Instr) (cause : Nat) : Prop := Traps s (exec i s) t cause (firstParcel i) false
    let forms : List Instr := [.csrrw rd csr rs1, .csrrs rd csr rs1, .csrrc rd csr rs1, .csrrwi rd csr uimm, .csrrsi rd csr uimm, .csrrci rd csr uimm]
    let barred (i : Instr) (v : Word → Word) : Prop :=
      (0xC00 ≤ csr.toNat → csr.toNat ≤ 0xCFF → traps i 0x00) ∧
      (csr = 0x80A → ringheadOk t ((v t.ringhead).toNat % 2 ^ 32) = false → traps i 0x0A)
    (∀ i ∈ forms, 0x5C0 ≤ csr.toNat → csr.toNat ≤ 0x5FF → traps i 0x0D) ∧
    (∀ i ∈ forms, ¬ (0x5C0 ≤ csr.toNat ∧ csr.toNat ≤ 0x5FF) → readCsr s t csr.toNat = none → traps i 0x00) ∧
    barred (.csrrw rd csr rs1) (fun _ => x) ∧ barred (.csrrwi rd csr uimm) (fun _ => z) ∧
    (rs1 ≠ 0 → barred (.csrrs rd csr rs1) (fun v => v ||| x) ∧ barred (.csrrc rd csr rs1) (fun v => v &&& ~~~x)) ∧
    (uimm ≠ 0 → barred (.csrrsi rd csr uimm) (fun v => v ||| z) ∧ barred (.csrrci rd csr uimm) (fun v => v &&& ~~~z))

/-! ### The hardware loop, hints and repetitions (R132, R137, R184) -/

/-- LOOP arms the loop around the body that its scan finds, or passes over it when the count is 0; FHINT changes no register
and no byte of memory; REPB starts a repetition of the captured body, or passes over it when the count is 0. -/
def Obligations.LoopResults : Prop :=
  ∀ (s s1 : State) (t : Strand) (rs1 : BitVec 5), Issues s t →
    (∀ (n : BitVec 12) (a : Word), t.lpcount = 0 → formOk (.loop rs1 n) = true → scanBody t n.toNat s (t.pc + 4) = .ok (a, s1) →
      let c := gx t rs1.toNat
      ∃ t1, findStrand s1 t.key = some t1 ∧ NextStrand s1 (exec (.loop rs1 n) s) t.key
        { t1 with lpstart := (t1.pc + 4) &&& 0x0FFFFFFFFFFFFFFC, lpend := a &&& 0x0FFFFFFFFFFFFFFC, lpcount := c
                  pc := if c = 0 then a else t.pc + 4 }) ∧
    (∀ k : BitVec 4, ∃ u, exec (.fhint rs1 k) s = .next u ∧ PlainStep s u 4 ∧ SameBytes s u) ∧
    (∀ (n stride mask : BitVec 4) (body : List (Instr × Nat × Nat)), (gx t rs1.toNat).toNat ≤ 64 →
      formOk (.repb rs1 n stride mask) = true → captureBody t mask.toNat (n.toNat + 1) s (t.pc + 4) 0 = .ok (some body, s1) →
      0 < (gx t rs1.toNat).toNat →
      ∃ t1 r, findStrand s1 t.key = some t1 ∧ NextStrand s1 (exec (.repb rs1 n stride mask) s) t.key
          { t1 with rep := some r, pc := t.pc + 4 } ∧
        r.base = t.pc + 4 ∧ r.body = body ∧ r.idx = 0 ∧ r.pass = 0 ∧ r.count = (gx t rs1.toNat).toNat ∧
        r.stride = stride.toNat ∧ r.mask = mask.toNat) ∧
    (∀ (n stride mask : BitVec 4) (body : List (Instr × Nat × Nat)), gx t rs1.toNat = 0 →
      formOk (.repb rs1 n stride mask) = true → captureBody t mask.toNat (n.toNat + 1) s (t.pc + 4) 0 = .ok (some body, s1) →
      ∃ t1 t', findStrand s1 t.key = some t1 ∧ NextStrand s1 (exec (.repb rs1 n stride mask) s) t.key t' ∧ OnlyFlow t1 t' ∧
        (t1.lpcount = 0 → t'.pc = t.pc + 4 + BitVec.ofNat 64 (body.getLast?.elim 0 (fun e => e.2.1 + e.2.2))))

end

section

open Sys2Proof Sys2Proof.Machine Sys2Proof.Oblig

/-! ### Claims (R213 to R224) -/

/-- What a grant of `a` units of a class to strand t leaves (R101, R103, R220): a more register blocks, all of whose registers read as
zero; a further granules, that nothing held and that read as zero; a further slots of the crew, that nothing held, cleared and
without a master; or a more transform entries. Of the other classes nothing changes. Which free units are taken is the model's
choice (log entry 14); there are a of them whenever the units in use and a fit the pool. -/
def Sys2Proof.Oblig.Granted (s u : State) (t : Strand) (cls a : Nat) : Prop :=
  let home (g : Nat) : Nat := t.core * 196608 + g * 12288
  let cl := (crewOf s t.key).cluster
  (∃ t' gs, findStrand u t.key = some t' ∧ t'.granules = t.granules ++ gs ∧
    t'.vblocks = t.vblocks + (if cls = 0 then a else 0) ∧
    (∀ r < 8 * t.vblocks, tget 0 t'.v r = tget 0 t.v r) ∧ (cls = 0 → ∀ r, 8 * t.vblocks ≤ r → tget 0 t'.v r = 0) ∧
    (cls ≠ 1 → gs = [] ∧ SameBytes s u) ∧
    (cls = 1 → gs.Nodup ∧ gs.length ≤ a ∧ ((usedGranules s t.core).length + a ≤ 16 → gs.length = a) ∧
      (∀ g ∈ gs, g < 16 ∧ g ∉ usedGranules s t.core ∧ ∀ o < 12288, peek u .spad (home g + o) = 0) ∧
      ∀ sp b, (∀ g ∈ gs, ¬ (sp = .spad ∧ home g ≤ b ∧ b < home g + 12288)) → peek u sp b = peek s sp b)) ∧
  (∀ c, findCrew s t.key.run (t.key.gls / 32) = some c → ∃ c' ms, findCrew u t.key.run (t.key.gls / 32) = some c' ∧
    c'.mslots = c.mslots ++ ms ∧ c'.xq = c.xq + (if cls = 3 then a else 0) ∧ (cls ≠ 2 → ms = []) ∧
    (cls = 2 → ms.Nodup ∧ ms.length ≤ a ∧ ((usedSlots s cl).length + a ≤ 8 → ms.length = a) ∧
      ∀ p ∈ ms, p < 8 ∧ p ∉ usedSlots s cl ∧ slotOf u cl p = {}))

/-- Which of the cases of R218 a request of amount a in a class meets first: 0 GRANTED, 3 REFUSED_OVER, 1 REFUSED_BUSY,
2 REFUSED_UNSAFE. A request whose strand's save has begun waits no more (R225). -/
def Sys2Proof.Oblig.outcome (s : State) (t : Strand) (cls a : Nat) : Nat :=
  let cl := t.core / 8
  let pool : Nat := if cls = 0 then t.core % 8 else if cls = 1 then 8 + t.core % 8 else if cls = 2 then 16 else 17
  let waiting := (clusterOf s cl).claimq.filter (fun q => (strandOf s q.key).saving.isNone && poolOf (strandOf s q.key) q.cls = pool)
  if a = 0 then 0
  else if claimMax (runOf s t.key.run) cls < heldBy s t cls + a then 3
  else if (freePools s cl).getD pool 0 < a ∨ waiting ≠ [] then 1
  else if safe (grantUnits s t.key cls a) cl = false then 2
  else 0

/-- TRYACQ answers in rd the case of R218 that its request meets and grants at once or changes nothing; ACQ grants, blocks its strand
in the pool's queue behind the requests that came before, or traps with CLAIM and the amount when the declared maximum forbids it;
CLAIMQ reads the class. -/
def Obligations.ClaimResults : Prop :=
  ∀ (s : State) (t : Strand) (rd rs1 : BitVec 5) (cls : BitVec 3) (n : BitVec 7), Issues s t →
    let a := n.toNat + (xGet s rs1).toNat
    let v := outcome s t cls.toNat a
    (formOk (.tryacq rd cls n rs1) = true → ∃ u, exec (.tryacq rd cls n rs1) s = .next u ∧ RegStep s u rd (BitVec.ofNat 64 v) 4 ∧
      (v = 0 → Granted s u t cls.toNat a) ∧ (v ≠ 0 → Writes s (.next u) rd (BitVec.ofNat 64 v))) ∧
    (formOk (.acq rd cls n rs1) = true →
      (v = 0 → ∃ u, exec (.acq rd cls n rs1) s = .next u ∧ RegStep s u rd 0 4 ∧ Granted s u t cls.toNat a) ∧
      (v = 3 → Traps s (exec (.acq rd cls n rs1) s) t 0x07 (BitVec.ofNat 64 a) false) ∧
      (v = 1 ∨ v = 2 → ∃ u t' pre q post, exec (.acq rd cls n rs1) s = .next u ∧ SameBytes s u ∧
        findStrand u t.key = some t' ∧ t' = { t with life := .blocked, wait := some (4, .acq rd), waitSince := t'.waitSince, blockedAt := t'.blockedAt } ∧
        (clusterOf s (t.core / 8)).claimq = pre ++ post ∧ (clusterOf u (t.core / 8)).claimq = pre ++ q :: post ∧
        q.key = t.key ∧ q.cls = cls.toNat ∧ q.amount = a ∧ q.since = now s t.core ∧
        (∀ p ∈ pre, p.since < q.since ∨ p.since = q.since ∧ p.key.gls ≤ t.key.gls) ∧
        ∀ p ∈ post.head?, ¬ (p.since < q.since ∨ p.since = q.since ∧ p.key.gls ≤ t.key.gls))) ∧
    (formOk (.claimq rd cls) = true → Writes s (exec (.claimq rd cls) s) rd (BitVec.ofNat 64
      (heldBy s t cls.toNat + claimMax (runOf s t.key.run) cls.toNat * 2 ^ 8 + claimInit (runOf s t.key.run) cls.toNat * 2 ^ 16 +
        (if cls = 0 then 32 else if cls = 1 then 16 else if cls = 2 then 8 else 4) * 2 ^ 24)))

/-- A REL of units that no engine command uses, in a cluster where no request waits, releases the most recently granted ones, loses
their contents, keeps the rest, and writes 0 to rd; one of units in use waits; a REL of more than is held traps with CLAIM and the
amount, one of granules that a posting names with ENGINE. What is held is tested when the REL issues (the model's choice, log
entry 70). -/
def Obligations.ReleaseResults : Prop :=
  ∀ (s : State) (t : Strand) (rd rs1 : BitVec 5) (cls : BitVec 3) (n : BitVec 7), Issues s t → formOk (.rel rd cls n rs1) = true →
    let i := Instr.rel rd cls n rs1
    let a := n.toNat + (xGet s rs1).toNat
    let cl := (crewOf s t.key).cluster
    let gone := t.granules.drop (t.granules.length - a)
    (heldBy s t cls.toNat < a → Traps s (exec i s) t 0x07 (BitVec.ofNat 64 a) false) ∧
    (a = 0 → Writes s (exec i s) rd 0) ∧
    (0 < a → a ≤ heldBy s t cls.toNat → t.rep = none → cls = 1 → relPosted s t a = true → Traps s (exec i s) t 0x0A (firstParcel i) false) ∧
    (0 < a → a ≤ heldBy s t cls.toNat → (cls = 1 → relPosted s t a = false) →
      (relBusy s t cls.toNat a = true → ∃ m, NextStrand s (exec i s) t.key
        { t with life := .blocked, wait := some (4, .rel rd cls.toNat a), waitSince := m, blockedAt := m }) ∧
      (relBusy s t cls.toNat a = false → (clusterOf s (t.core / 8)).claimq = [] →
        ∃ u t', exec i s = .next u ∧ findStrand u t.key = some t' ∧ RegStep s u rd 0 4 ∧
          t'.vblocks = t.vblocks - (if cls = 0 then a else 0) ∧
          t'.granules = t.granules.take (t.granules.length - (if cls = 1 then a else 0)) ∧
          (∀ r, tget 0 t'.v r = if cls = 0 ∧ 8 * t'.vblocks ≤ r then 0 else tget 0 t.v r) ∧
          (∀ sp b, (cls = 1 → ∀ g ∈ gone, ¬ (sp = .spad ∧ t.core * 196608 + g * 12288 ≤ b ∧ b < t.core * 196608 + (g + 1) * 12288)) →
            peek u sp b = peek s sp b) ∧
          (∀ c, findCrew s t.key.run (t.key.gls / 32) = some c → ∃ c', findCrew u t.key.run (t.key.gls / 32) = some c' ∧
            c'.mslots = c.mslots.take (c.mslots.length - (if cls = 2 then a else 0)) ∧ c'.xq = c.xq - (if cls = 3 then a else 0) ∧
            ∀ p, slotOf u cl p = if cls = 2 ∧ p ∈ c.mslots.drop (c.mslots.length - a) then {} else slotOf s cl p)))

/-! ### The end of strands (R113, R138 to R140) -/

/-- A HALT whose commands have completed, with no addition of it held, ends its strand, or retains it under its tag; every store of the
strand has registered. That a duplicate tag is sought once the commands have completed is the model's choice (log entry 44). -/
def Sys2Proof.Oblig.haltCompletes : Prop :=
  ∀ (s : State) (t : Strand) (rs1 : BitVec 5) (retain : Bool), Issues s t → formOk (.halt rs1 retain) = true →
    classesDone s t 29 = true → (retain = true → gx t rs1.toNat ≠ 0) →
    (retain = true → ∀ h ∈ s.retained, ¬ (h.ctx = t.ctx ∧ h.tag = gx t rs1.toNat)) →
    ∃ u t', exec (.halt rs1 retain) s = .next u ∧ findStrand u t.key = some t' ∧ t'.wait = none ∧
      t'.life = (if retain then .retained else .ended) ∧ (∀ p ∈ (coreOf u t.core).stores, p.key ≠ t.key) ∧
      (retain = true → (clusterOf s (t.core / 8)).claimq = [] → ∃ h ∈ u.retained, h.ctx = t.ctx ∧ h.tag = gx t rs1.toNat ∧ h.key = t.key ∧
        h.granules = t.granules ∧ h.vblocks = t.vblocks)

/-- A HALT with engine commands outstanding blocks its strand and changes nothing else; a retaining one with tag 0, or with a tag
that the context holds, traps with ENGINE. -/
def Sys2Proof.Oblig.haltWaits : Prop :=
  ∀ (s : State) (t : Strand) (rs1 : BitVec 5) (retain : Bool), Issues s t → formOk (.halt rs1 retain) = true → t.rep = none →
    let i := Instr.halt rs1 retain
    let tag := gx t rs1.toNat
    (retain = true → tag = 0 → Traps s (exec i s) t 0x0A (firstParcel i) false) ∧
    ((retain = true → tag ≠ 0) → classesDone s t 29 = false → ∃ n w, NextStrand s (exec i s) t.key
      { t with life := .blocked, wait := some (4, w), waitSince := n, blockedAt := n }) ∧
    (retain = true → tag ≠ 0 → classesDone s t 29 = true → (∃ h ∈ s.retained, h.ctx = t.ctx ∧ h.tag = tag) →
      Traps s (exec i s) t 0x0A (firstParcel i) false)

/-- HALT ends or retains its strand, waits for its commands, or traps. When a duplicate tag is sought, and which stores the release takes
with it, are the model's choice (log entries 44 and 9). -/
def Obligations.HaltResults : Prop := haltCompletes ∧ haltWaits

/-- CANCEL ends the issuing strand, and a cancel sets out for every other strand of its scope: its crew, its launch, or, where a graph
started the launch, every launch of that graph. The launches of the scope are cancelled with a cause, their postings are discarded, and
the graph's walker starts nothing more. -/
def Obligations.CancelResults : Prop :=
  ∀ (s : State) (t : Strand) (scope : BitVec 5), Issues s t → formOk (.cancel scope) = true →
    t.key.run < s.runs.length → (runOf s t.key.run).stage ≠ .done →
    let reached (n : Nat) : Prop := n < s.runs.length ∧ (runOf s n).stage ≠ .done ∧
      (n = t.key.run ∧ scope ≠ 0 ∨ scope = 2 ∧ ∃ g i j, (runOf s t.key.run).origin = .node g i ∧ (runOf s n).origin = .node g j)
    ∃ u t', exec (.cancel scope) s = .next u ∧ findStrand u t.key = some t' ∧ t'.life = .ended ∧
      (∀ n, reached n → (runOf u n).cancelled = true ∧ (runOf u n).status.isSome = true ∧ (runOf u n).postings = []) ∧
      (∀ k r, findStrand s k = some r → k ≠ t.key → r.life ≠ .ended → (reached k.run ∨ k.run = t.key.run ∧ k.gls / 32 = t.key.gls / 32) →
        ∃ r', findStrand u k = some r' ∧ r'.cancelPending = true) ∧
      ∀ g i x, scope = 2 → (runOf s t.key.run).origin = .node g i → s.graphs[g]? = some x → x.done = false →
        ∃ y, u.graphs[g]? = some y ∧ y.ending = true ∧ y.ready = []

/-! ### Messages (R299 to R302) -/

/-- Whether a SEND's ring takes a message now: the receiver is there, its ring is well formed, of the right kind, from this sender
or from none, and has room. -/
def Sys2Proof.Oblig.ringTakes (s : State) (t r : Strand) (multi : Bool) (g : Nat) : Prop :=
  receiver s t g = .here r ∧ countOk (ringCount r) = true ∧ ringGranted r = true ∧ ringMulti r = multi ∧
  (multi = false → r.ringFrom = none ∨ r.ringFrom = some t.key.gls) ∧ ringUsed r ≠ ringCount r

/-- A SEND into a ring with room writes the 16-byte entry (sender, sequence number, payload) at the receiver's tail, advances that
tail and the sender's sequence number, registers the sender's stores, and writes no register; a SEND into a full ring blocks. SEND.S does
so at every level and under a replay; SEND.M is stated here for a launch at level 0, outside a replay, in a context whose manifest holds no
OVERFLOW record: past one, arrival rounds serve it (R383, R384). -/
def Obligations.SendResults : Prop :=
  ∀ (s : State) (t r : Strand) (rs1 rs2 : BitVec 5), Issues s t → writesHeld s t = false →
    let g := (gx t rs1.toNat).toNat
    let free : Prop := (runOf s t.key.run).replay = none ∧ (runOf s t.key.run).level = 0 ∧ overflowed s t = false
    let sends (i : Instr) (multi : Bool) : Prop := formOk i = true → ringTakes s t r multi g →
      ∃ u t' r', exec i s = .next u ∧ PlainStep s u 4 ∧ findStrand u t.key = some t' ∧ findStrand u r.key = some r' ∧
        (∀ p ∈ (coreOf u t.core).stores, p.key ≠ t.key) ∧ t'.ringsend = BitVec.ofNat 64 ((t.ringsend.toNat + 1) % 2 ^ 32) ∧ r'.ringtail = (r.ringtail + 1) % 2 ^ 32 ∧
        peekNat u .spad (scratchAddr r.core r.granules (ringEntry r r.ringtail)) 16 =
          t.key.gls % 2 ^ 32 + t.ringsend.toNat % 2 ^ 32 * 2 ^ 32 + (gx t rs2.toNat).toNat * 2 ^ 64
    let waits (i : Instr) (multi : Bool) : Prop := formOk i = true → receiver s t g = .here r → countOk (ringCount r) = true →
      ringGranted r = true → ringMulti r = multi → (multi = false → r.ringFrom = none ∨ r.ringFrom = some t.key.gls) →
      ringUsed r = ringCount r → ∃ n w, NextStrand s (exec i s) t.key { t with life := .blocked, wait := some (4, w), waitSince := n, blockedAt := n }
    sends (.sendS rs1 rs2) false ∧ waits (.sendS rs1 rs2) false ∧ (free → sends (.sendM rs1 rs2) true ∧ waits (.sendM rs1 rs2) true)

/-- RECV and TRYRECV give the pointer to the head entry; with nothing delivered TRYRECV gives 0, and RECV blocks. A RECV that completes
acquires (R319); what the words that its core's L1 keeps hold then is the model's choice (log entry 62). -/
def Obligations.ReceiveResults : Prop :=
  ∀ (s : State) (t : Strand) (rd : BitVec 5), Issues s t → countOk (ringCount t) = true → ringGranted t = true →
    let head := BitVec.ofNat 64 (2 ^ 60 + ringOff t + 16 * (t.ringhead.toNat % ringCount t))
    (formOk (.tryrecv rd) = true → Writes s (exec (.tryrecv rd) s) rd (if ringUsed t = 0 then 0 else head)) ∧
    (formOk (.recv rd) = true → ringUsed t ≠ 0 → Writes (acquire s t.core) (exec (.recv rd) s) rd head) ∧
    (formOk (.recv rd) = true → ringUsed t = 0 → ∃ n, NextStrand s (exec (.recv rd) s) t.key
      { t with life := .blocked, wait := some (4, .recv rd), waitSince := n, blockedAt := n })

/-! ### Barriers (R295 to R298) -/

/-- Credit(n, bits) of R296: EXPECTED and bytes [15:12] stay, the arrived bytes and the phases completed account for every byte
credited, and the status bits are set. -/
def Sys2Proof.Oblig.barrierCredit : Prop :=
  ∀ (b n bits : Nat), b < 2 ^ 128 → bits < 8 →
    let c := creditNat b n bits
    bExpected c = bExpected b ∧ c / 2 ^ 96 = b / 2 ^ 96 ∧ bStatus c = bStatus b ||| bits ∧
    (bExpected b = 0 → bArrived c = (bArrived b + n) % 2 ^ 32 ∧ bPhase c = bPhase b) ∧
    (0 < bExpected b → 0 < n → bArrived c = (bArrived b + n) % bExpected b ∧
      bPhase c = (bPhase b + (bArrived b + n) / bExpected b) % 2 ^ 16) ∧
    (0 < bExpected b → n = 0 → bArrived c = bArrived b ∧ bPhase c = bPhase b)

/-- BINIT sets EXPECTED, empties ARRIVED and STATUS and keeps PHASE; BARRIVE credits, and releases: the strand's stores to device memory
register (R318). Neither writes a register, and neither writes another byte, but for those stores of BARRIVE's strand. -/
def Sys2Proof.Oblig.barrierWrites : Prop :=
  ∀ (s : State) (t : Strand) (rs1 rs2 : BitVec 5), Issues s t → barrierCheck t (gx t rs1.toNat) = none →
    let a := scratchAddr t.core t.granules ((gx t rs1.toNat).toNat % 2 ^ 60)
    let n := (gx t rs2.toNat).toNat
    (formOk (.binit rs1 rs2) = true → 0 < n → n < 2 ^ 32 → ∃ u, exec (.binit rs1 rs2) s = .next u ∧ PlainStep s u 4 ∧
      peekNat u .spad a 8 = n ∧ peekNat u .spad (a + 8) 2 = peekNat s .spad (a + 8) 2 ∧ peekNat u .spad (a + 10) 6 = 0 ∧
      OtherBytes s u .spad a 16) ∧
    (formOk (.barrive rs1 rs2) = true → n < 2 ^ 32 → writesHeld s t = false → poisoned s .spad a 16 = false → bBroken (peekNat s .spad a 16) = false →
      ∃ u, exec (.barrive rs1 rs2) s = .next u ∧ PlainStep s u 4 ∧ (∀ p ∈ (coreOf u t.core).stores, p.key ≠ t.key) ∧
        peekNat u .spad a 16 = (if n = 0 then peekNat s .spad a 16 else creditNat (peekNat s .spad a 16) n 0) ∧
        ∀ sp b, sp ≠ .dev → ¬ (sp = .spad ∧ a ≤ b ∧ b < a + 16) → peek u sp b = peek s sp b)

/-- A phase p has passed when the barrier's PHASE is 1 to 32,767 ahead of it (R298). -/
def Sys2Proof.Oblig.passed (b p : Nat) : Bool := let d := (bPhase b + 65536 - p % 65536) % 65536; 1 ≤ d && d ≤ 32767

/-- BTEST reads the barrier and whether the phase has passed; BWAIT blocks until it has, then reads it after an acquire: the core's
L1 keeps no word but O words. -/
def Sys2Proof.Oblig.barrierReads : Prop :=
  ∀ (s : State) (t : Strand) (rd rs1 rs2 : BitVec 5), Issues s t → barrierCheck t (gx t rs1.toNat) = none →
    let a := scratchAddr t.core t.granules ((gx t rs1.toNat).toNat % 2 ^ 60)
    let b := peekNat s .spad a 16
    let p := (gx t rs2.toNat).toNat
    poisoned s .spad a 16 = false → bBroken b = false →
    (formOk (.btest rd rs1 rs2) = true → ∃ u, exec (.btest rd rs1 rs2) s = .next u ∧ SameBytes s u ∧
      RegStep s u rd (BitVec.ofNat 64 (bStatus b + bPhase b * 2 ^ 16 + (if passed b p then 2 ^ 32 else 0))) 4) ∧
    (formOk (.bwait rd rs1 rs2) = true →
      (passed b p = true → t.faults = [] → ∃ u, exec (.bwait rd rs1 rs2) s = .next u ∧ SameBytes s u ∧
        RegStep s u rd (BitVec.ofNat 64 (bStatus b + bPhase b * 2 ^ 16)) 4 ∧ ∀ e ∈ (coreOf u t.core).l1, e.2.own = true) ∧
      (passed b p = false → ∃ u t', exec (.bwait rd rs1 rs2) s = .next u ∧ SameBytes s u ∧ findStrand u t.key = some t' ∧
        t'.life = .blocked ∧ t'.pc = t.pc))

/-- What a credit does to a barrier; BINIT and BARRIVE write one, BTEST and BWAIT read one. Of a release and an acquire only what R318 and
R319 say is stated here; what the model chooses beyond them (log entries 9 and 62) is not. -/
def Obligations.BarrierResults : Prop := barrierCredit ∧ barrierWrites ∧ barrierReads

/-! ### Pre-emption requests (R197, R198) -/

/-- PCHK reads whether a request is pending; PHINT does nothing without one, and with one begins, at the next instruction, the save of
the mapped registers, the granted granules and the mastered slots that it names. -/
def Obligations.HintResults : Prop :=
  ∀ (s : State) (t : Strand) (rd : BitVec 5) (f0 f1 : BitVec 4) (c0 c1 : BitVec 5) (sm : BitVec 8) (vm : Word), Issues s t →
    let i := Instr.phint f0 c0 f1 c1 sm vm
    let want := (coreOf s t.core).req.getLsbD (t.slot % 4)
    (formOk (.pchk rd) = true → Writes s (exec (.pchk rd) s) rd (if want then 1 else 0)) ∧
    (formOk i = true → want = false → Skips s (exec i s) (instrLen i)) ∧
    (formOk i = true → want = true → ∃ u t' live, exec i s = .next u ∧ findStrand u t.key = some t' ∧ t'.saving = some live ∧
      live.2.2.2 = false ∧ (∀ r < 64, live.1.getLsbD r = true ↔ vm.getLsbD r = true ∧ r < 8 * t.vblocks) ∧
      (∀ g < 16, live.2.1.getLsbD g = true ↔ g < t.granules.length ∧
        (f0.toNat ≤ g ∧ g < f0.toNat + c0.toNat ∨ f1.toNat ≤ g ∧ g < f1.toNat + c1.toNat)) ∧
      (∀ m < 8, live.2.2.1.getLsbD m = true ↔ sm.getLsbD m = true ∧
        ∃ p, crewSlot s t m = some p ∧ (slotOf s (t.core / 8) p).master = some t.key) ∧
      (coreOf u t.core).savingBits.getLsbD (t.slot % 4) = true ∧ Instr.saveWrite t.key ∈ u.due ∧
      GoesOn t t' (instrLen i) ∧ t' = { t with saving := some live, pc := t'.pc, lpcount := t'.lpcount, rep := t'.rep } ∧ SameBytes s u)

/-! ### The handler context's dispositions (R195, R196) -/

/-- STRES, STKILL and ESCAL of a FROZEN strand whose packet the core holds: the strand runs on, ends, or stays FROZEN for the die
manager; the handler goes on. STRET loads the next packet and starts at its entry, or the handler sleeps. That the entry is address 0
is the model's choice (log entry 19). -/
def Obligations.DispositionResults : Prop :=
  ∀ (s : State) (c : Nat) (t : Strand) (rs1 : BitVec 5), IssuesHandler s c →
    let found : Prop := physStrand s (c / 768) ((xGet s rs1).toNat % 2 ^ 12) = some t ∧ findStrand s t.key = some t ∧
      t.life = .frozen ∧ holdsPacket s c t.key = true
    let next (i : Instr) (p : State → Strand → Prop) : Prop := found → ∃ u t', exec i s = .next u ∧
      (coreOf u c).hpc = (coreOf s c).hpc + 4 ∧ findStrand u t.key = some t' ∧ p u t'
    next (.stres rs1) (fun u t' => t'.life = .running ∧ t'.pc = t.pc ∧ t'.x = t.x ∧ t'.escalated = false ∧ SameBytes s u) ∧
    next (.stkill rs1) (fun _ t' => t'.life = .ended) ∧
    next (.escal rs1) (fun u t' => t'.life = .frozen ∧ ((t.packet.getD {}).key = t.key → t'.escalated = true) ∧ ∃ p ∈ (dieOf u (c / 768)).escalated, p.key = (t.packet.getD {}).key) ∧
    ((coreOf s c).valid = false →
      ((coreOf s c).faultq = [] → ∃ u, exec .stret s = .next u ∧ (coreOf u c).hawake = false ∧ (coreOf u c).valid = false) ∧
      (∀ p rest, (coreOf s c).faultq = p :: rest → ∃ u, exec .stret s = .next u ∧ (coreOf u c).hpc = 0 ∧
        (coreOf u c).loaded = some p ∧ (coreOf u c).valid = true ∧ (coreOf u c).faultq = rest ∧ (coreOf u c).hawake = true))

end

namespace Sys2Proof.Oblig

open Machine

/-- Every named vector register is mapped: below 8 times the strand's register blocks (R101). -/
def Mapped (t : Strand) (vs : List (BitVec 6)) : Prop := ∀ v ∈ vs, v.toNat < 8 * t.vblocks

/-- From state w on, strand t has gone on behind an instruction of len bytes, its registers vd to vd + k - 1 and `vxflags`
have been written, and nothing else differs: `p` says what the registers hold, `fl` are the conditions that have been ORed. -/
def VecWrites (w : State) (o : Answer) (t : Strand) (len vd k fl : Nat) (p : Strand → Prop) : Prop :=
  ∃ t', NextStrand w o t.key t' ∧ GoesOn t t' len ∧
    t' = { t with v := t'.v, vxflags := t.vxflags ||| BitVec.ofNat 64 (fl % 32), pc := t'.pc, lpcount := t'.lpcount, rep := t'.rep } ∧
    (∀ r, r < vd ∨ vd + k ≤ r → tget 0 t'.v r = tget 0 t.v r) ∧ p t'

/-- The same for a GPR as destination. -/
def GprWrites (w : State) (o : Answer) (t : Strand) (len rd : Nat) (v : Word) : Prop :=
  ∃ t', NextStrand w o t.key t' ∧ GoesOn t t' len ∧ OnlyRegs t t' ∧
    ∀ r < 32, gx t' r = if r = rd ∧ rd ≠ 0 then v else gx t r

/-- Lane i of width w of a vector register of a strand (R142). -/
def vlaneOf (t : Strand) (w : Nat) (v : BitVec 6) (i : Nat) : Nat := lane w i (vGet t v.toNat)

/-- The lanes that a guard makes active take the value given, and the others keep theirs (R79). -/
def LanesAre (t t' : Strand) (f : X96) (w n : Nat) (new : Nat → Nat) : Prop :=
  ∀ i < n, vlaneOf t' w f.vd i = if activeLane t f i then new i % 2 ^ w else vlaneOf t w f.vd i

/-- VARITH instructions with their function numbers, source 2 a register. -/
def varithForms (f : X96) : List (Nat × Instr) :=
  [(0, .vadd f), (1, .vsub f), (2, .vmul f), (3, .vfma f), (4, .vmin f), (5, .vmax f), (6, .vdiv f), (7, .vsqrt f), (8, .vrcp f),
   (9, .vrsq f), (10, .vexp2 f), (11, .vlog2 f), (12, .vtanh f), (13, .vand f), (14, .vor f), (15, .vxor f), (16, .vshl f),
   (17, .vshr f), (18, .vmulh f), (19, .vsel f)]

/-- VARITH instructions whose source 2 is the literal in every lane (R76). -/
def varithLiterals (f : X96) (l : Word) : List (Nat × Instr) :=
  [(0, .vaddX160 f l), (1, .vsubX160 f l), (2, .vmulX160 f l), (3, .vfmaX160 f l), (4, .vminX160 f l), (5, .vmaxX160 f l),
   (6, .vdivX160 f l), (13, .vandX160 f l), (14, .vorX160 f l), (15, .vxorX160 f l), (16, .vshlX160 f l), (17, .vshrX160 f l),
   (18, .vmulhX160 f l), (19, .vselX160 f l)]

end Sys2Proof.Oblig

section

open Sys2Proof Sys2Proof.Machine Sys2Proof.Oblig

/-! ### Floating-point values and their rounding, from the rules (R17, R18, R31 to R36, R38, R40, R45 to R47, R77) -/

/-- A floating-point format: exponent bits, fraction bits, bias, what the all-ones exponent encodes (R18). -/
abbrev Sys2Proof.Oblig.Fmt := Nat × Nat × Nat × TopExp

/-- An exact result: NaN, an infinity, or a rational number with the sign that a zero has. -/
inductive Sys2Proof.Oblig.Ideal where
  | nan
  | inf (neg : Bool)
  | real (x : ℚ) (neg : Bool)
  deriving DecidableEq

/-- The formats of the floating-point types (R18). -/
def Sys2Proof.Oblig.formatOf (ty : Nat) : Fmt :=
  match ty with
  | 8 => (5, 10, 15, .ieee)
  | 9 => (8, 7, 127, .ieee)
  | 10 => (8, 23, 127, .ieee)
  | _ => (11, 52, 1023, .ieee)

/-- The codes of R18: a code with a sign, infinity, the canonical NaN, the largest finite value. -/
def Sys2Proof.Oblig.signed (F : Fmt) (neg : Bool) (c : Nat) : Nat := (if neg then 2 ^ (F.1 + F.2.1) else 0) + c
def Sys2Proof.Oblig.infCode (F : Fmt) : Nat := (2 ^ F.1 - 1) * 2 ^ F.2.1
def Sys2Proof.Oblig.nanCode (F : Fmt) : Nat := if F.2.2.2 = .ieee then infCode F + 2 ^ (F.2.1 - 1) else 2 ^ (F.1 + F.2.1) - 1
def Sys2Proof.Oblig.topCode (F : Fmt) : Nat :=
  match F.2.2.2 with
  | .ieee => infCode F - 1
  | .oneNan => 2 ^ (F.1 + F.2.1) - 2
  | .normal => 2 ^ (F.1 + F.2.1) - 1

/-- The number that a code of a magnitude stands for (R17). -/
def Sys2Proof.Oblig.magnitude (F : Fmt) (c : Nat) : ℚ :=
  let ef := c / 2 ^ F.2.1 % 2 ^ F.1
  ((if ef = 0 then c % 2 ^ F.2.1 else 2 ^ F.2.1 + c % 2 ^ F.2.1 : Nat) : ℚ) * 2 ^ ((max ef 1 : Int) - F.2.2.1 - F.2.1)

/-- What a code stands for (R17, R18). -/
def Sys2Proof.Oblig.idealOf (F : Fmt) (c : Nat) : Ideal :=
  let neg := c.testBit (F.1 + F.2.1)
  let top := decide (c / 2 ^ F.2.1 % 2 ^ F.1 = 2 ^ F.1 - 1)
  let mf := c % 2 ^ F.2.1
  if F.2.2.2 = .ieee ∧ top = true then (if mf = 0 then .inf neg else .nan)
  else if F.2.2.2 = .oneNan ∧ top = true ∧ mf = 2 ^ F.2.1 - 1 then .nan
  else .real (if neg then -magnitude F c else magnitude F c) neg

/-- A source modified: A takes the absolute value, then N negates (R77). -/
def Sys2Proof.Oblig.idModify (n a : Bool) : Ideal → Ideal
  | .nan => .nan
  | .inf s => .inf ((s && !a) != n)
  | .real x s => .real (if n then -(if a then |x| else x) else if a then |x| else x) ((s && !a) != n)

/-- The exact sum, with the conditions of R47. A zero sum is +0, and under RDN −0; of two zeros of one sign it has that sign, which for two
+0 under RDN is the model's choice (log entry 113). -/
def Sys2Proof.Oblig.idAdd (rdn : Bool) : Ideal → Ideal → Ideal × Nat
  | .nan, _ => (.nan, 0)
  | _, .nan => (.nan, 0)
  | .inf s, .inf t => if s = t then (.inf s, 0) else (.nan, 16)
  | .inf s, _ => (.inf s, 0)
  | _, .inf t => (.inf t, 0)
  | .real x s, .real y t =>
    if x + y = 0 then (.real 0 (if x = 0 ∧ s = t then s else rdn), 0) else (.real (x + y) (decide (x + y < 0)), 0)

/-- The exact product: an infinity times a zero is invalid (R47). -/
def Sys2Proof.Oblig.idMul : Ideal → Ideal → Ideal × Nat
  | .nan, _ => (.nan, 0)
  | _, .nan => (.nan, 0)
  | .inf s, .inf t => (.inf (s != t), 0)
  | .inf s, .real y t => if y = 0 then (.nan, 16) else (.inf (s != t), 0)
  | .real x s, .inf t => if x = 0 then (.nan, 16) else (.inf (s != t), 0)
  | .real x s, .real y t => (.real (x * y) (s != t), 0)

/-- The exact quotient: 0 / 0 and ∞ / ∞ are invalid; a finite nonzero value over a zero raises divide-by-zero (R47). -/
def Sys2Proof.Oblig.idDiv : Ideal → Ideal → Ideal × Nat
  | .nan, _ => (.nan, 0)
  | _, .nan => (.nan, 0)
  | .inf _, .inf _ => (.nan, 16)
  | .inf s, .real _ t => (.inf (s != t), 0)
  | .real _ s, .inf t => (.real 0 (s != t), 0)
  | .real x s, .real y t =>
    if y = 0 then (if x = 0 then (.nan, 16) else (.inf (s != t), 8)) else (.real (x / y) (s != t), 0)

/-- Whether one value is below another; with `zeros`, −0 is below +0 (R46, R176). -/
def Sys2Proof.Oblig.idBelow (zeros : Bool) : Ideal → Ideal → Bool
  | .inf s, .inf t => s && !t
  | .inf s, .real _ _ => s
  | .real _ _, .inf t => !t
  | .real x s, .real y t => decide (x < y) || (zeros && decide (x = y) && s && !t)
  | _, _ => false

/-- The minimum and the maximum: NaN if either operand is (R46). -/
def Sys2Proof.Oblig.idMin (a b : Ideal) : Ideal :=
  match a, b with
  | .nan, _ => .nan
  | _, .nan => .nan
  | a, b => if idBelow true b a then b else a
def Sys2Proof.Oblig.idMax (a b : Ideal) : Ideal :=
  match a, b with
  | .nan, _ => .nan
  | _, .nan => .nan
  | a, b => if idBelow true a b then b else a

/-- SCL and CLP (R77 steps 3 and 4). -/
def Sys2Proof.Oblig.idScale (k : Int) : Ideal → Ideal
  | .real x s => .real (x * 2 ^ k) s
  | v => v
def Sys2Proof.Oblig.idClamp (clp : Nat) : Ideal → Ideal
  | .nan => .nan
  | .inf s =>
    match clp with
    | 0 => .inf s
    | 1 => if s then .real 0 false else .inf false
    | 2 => if s then .real 0 false else .real 1 false
    | _ => if s then .real (-1) true else .real 1 false
  | .real x s =>
    match clp with
    | 0 => .real x s
    | 1 => if s then .real 0 false else .real x s
    | 2 => if x < 0 then .real 0 false else if 1 < x then .real 1 false else .real x s
    | _ => if x < -1 then .real (-1) true else if 1 < x then .real 1 false else .real x s

/-- N is the multiple of u that a mode chooses for x: x itself, or one of the two multiples that enclose it (R38, R40). -/
def Sys2Proof.Oblig.Picks (mode draw : Nat) (x u : ℝ) (N : ℤ) : Prop :=
  let n := ⌊x / u⌋
  let frac := x / u - n
  (frac = 0 → N = n) ∧
  (frac ≠ 0 → (N = n ∨ N = n + 1) ∧
    match mode with
    | 0 => (frac < 1 / 2 → N = n) ∧ (1 / 2 < frac → N = n + 1) ∧ (frac = 1 / 2 → N % 2 = 0)
    | 1 => N = n ↔ 0 < x
    | 2 => N = n
    | 3 => N = n + 1
    | 4 => N % 2 = 1
    | _ => N = n + 1 ↔ (draw : ℤ) < ⌊frac * 2 ^ 32⌋)

/-- r is a real number rounded to a format, with its conditions: to one of the two adjacent values, the exponent unbounded above; a result
beyond the largest finite value overflows (R31 to R33, R36, R38). -/
def Sys2Proof.Oblig.RoundsTo (F : Fmt) (mode draw : Nat) (sat : Bool) (x : ℝ) (neg : Bool) (r : Nat × Nat) : Prop :=
  (x = 0 → r = (signed F neg 0, 0)) ∧
  (x ≠ 0 → ∃ N : ℤ,
    let u : ℝ := 2 ^ (max (Int.log 2 |x|) (1 - F.2.2.1) - F.2.1)
    let y := N * u
    Picks mode draw x u N ∧
    (|y| ≤ magnitude F (topCode F) → r.1 < 2 ^ (F.1 + F.2.1 + 1) ∧ (∃ q : ℚ, idealOf F r.1 = .real q neg ∧ (q : ℝ) = y) ∧
      (y = x → r.2 = 0) ∧ (y ≠ x → (|x| < 2 ^ (1 - F.2.2.1 : ℤ) → r.2 = 3) ∧ (2 ^ (1 - F.2.2.1 : ℤ) ≤ |x| → r.2 = 1))) ∧
    (magnitude F (topCode F) < |y| → r.2 = 5 ∧ r.1 =
      if sat = true ∨ F.2.2.2 = .normal then signed F neg (topCode F)
      else if F.2.2.2 = .oneNan then signed F neg (nanCode F)
      else if mode = 0 ∨ mode = 5 ∨ (mode = 3 ∧ neg = false) ∨ (mode = 2 ∧ neg = true) then signed F neg (infCode F)
      else signed F neg (topCode F)))

/-- r is an exact result in a format, with the conditions of the rounding. `keep`: an infinity stays one (R45, R30); else R32 and R33. -/
def Sys2Proof.Oblig.Finishes (F : Fmt) (mode draw : Nat) (sat keep : Bool) (v : Ideal) (r : Nat × Nat) : Prop :=
  match v with
  | .nan => r = if F.2.2.2 = .normal then (topCode F, 17) else (nanCode F, 0)
  | .inf s => r =
    if keep = true ∧ F.2.2.2 = .ieee then (signed F s (infCode F), 0)
    else if sat = true ∨ F.2.2.2 = .normal then (signed F s (topCode F), 5)
    else if F.2.2.2 = .ieee then (signed F s (infCode F), 0) else (signed F s (nanCode F), 1)
  | .real x s => RoundsTo F mode draw sat x s r

/-- r is an exact result in an integer type, with its conditions (R35, R36). -/
def Sys2Proof.Oblig.FinishesInt (sg : Bool) (w mode draw : Nat) (sat : Bool) (v : Ideal) (r : Nat × Nat) : Prop :=
  let lo : Int := if sg then -2 ^ (w - 1) else 0
  let hi : Int := if sg then 2 ^ (w - 1) - 1 else 2 ^ w - 1
  let low (i : Int) : Nat := (BitVec.ofInt w i).toNat
  match v with
  | .nan => r = (0, 17)
  | .inf s => r = (low (if s then lo else hi), 5)
  | .real x _ => ∃ N : ℤ, Picks mode draw x 1 N ∧
    (lo ≤ N → N ≤ hi → r.1 = low N ∧ ((N : ℚ) = x → r.2 = 0) ∧ ((N : ℚ) ≠ x → r.2 = 1)) ∧
    (N < lo → r = (low (if sat then lo else N), 5)) ∧ (hi < N → r = (low (if sat then hi else N), 5))

/-- A floating-point lane of VARITH: the exact result of the modified operands, scaled and clamped, rounded once, with the conditions of the
operation and of the rounding (R45 to R47, R151); infinities that are no overflow stay. -/
def Sys2Proof.Oblig.floatLanes : Prop :=
  ∀ (s : State) (t : Strand) (f : X96) (mode k a b c : Nat),
    let ty := f.ty.toNat
    let F := formatOf ty
    let x := idModify f.n1 f.a1 (idealOf F a)
    let y := idModify f.n2 f.a2 (idealOf F b)
    let z := idModify f.n3 f.a3 (idealOf F c)
    let rdn := decide (mode = 2)
    let scl := f.scl.toInt
    let r (fn : Nat) := varithLane s t fn f mode k a b c
    let draw := laneDraw s t f mode k
    let gives (fn : Nat) (v : Ideal × Nat) : Prop := ∃ g,
      Finishes F mode draw f.sat true (idClamp f.clp.toNat (idScale scl v.1)) ((r fn).1, g) ∧ (r fn).2 = v.2 ||| g
    8 ≤ ty → ty < 12 → mode < 6 → a < 2 ^ tyWidth ty → b < 2 ^ tyWidth ty → c < 2 ^ tyWidth ty →
    gives 0 (idAdd rdn x y) ∧ gives 1 (idAdd rdn x (idModify true false y)) ∧ gives 2 (idMul x y) ∧
    gives 3 ((idAdd rdn (idMul x y).1 z).1, (idMul x y).2 ||| (idAdd rdn (idMul x y).1 z).2) ∧
    gives 4 (idMin x y, 0) ∧ gives 5 (idMax x y, 0) ∧ gives 6 (idDiv x y) ∧
    (match x with
     | .nan => gives 7 (.nan, 0)
     | .inf s => gives 7 (if s then (.nan, 16) else (.inf false, 0))
     | .real q s => (q = 0 → gives 7 (.real 0 s, 0)) ∧ (q < 0 → gives 7 (.nan, 16)) ∧
       (0 < q → RoundsTo F mode draw f.sat (if 2 ≤ f.clp.toNat then min (Real.sqrt q * 2 ^ scl) 1 else Real.sqrt q * 2 ^ scl) false (r 7)))

/-- The special functions at NaN, infinities, zeros, negative values, and where they are exact (R55, R58 to R62). Which of the cases that no
rule names exact raise inexact on f32 lanes is the model's choice (log entry 84): both are allowed here. -/
def Sys2Proof.Oblig.specialLanes : Prop :=
  ∀ (s : State) (t : Strand) (f : X96) (mode k a b c : Nat),
    let ty := f.ty.toNat
    let F := formatOf ty
    let r (fn : Nat) := varithLane s t fn f mode k a b c
    let exact (fn : Nat) (v : Ideal) (fl : Nat) : Prop := ∃ g,
      Finishes F mode (laneDraw s t f mode k) f.sat true (idClamp f.clp.toNat (idScale f.scl.toInt v)) ((r fn).1, g) ∧ (r fn).2 = fl ||| g
    let gives (fn : Nat) (v : Ideal) (fl : Nat) : Prop := exact fn v fl ∨ ty = 10 ∧ exact fn v (fl ||| 1)
    8 ≤ ty → ty < 11 → mode < 6 → a < 2 ^ tyWidth ty →
    (match idModify f.n1 f.a1 (idealOf F a) with
     | .nan => ∀ fn ∈ [8, 9, 10, 11, 12], gives fn .nan 0
     | .inf s => exact 8 (.real 0 s) 0 ∧ (s = true → gives 9 .nan 16 ∧ exact 10 (.real 0 false) 0 ∧ gives 11 .nan 16 ∧ gives 12 (.real (-1) true) 0) ∧
       (s = false → exact 9 (.real 0 false) 0 ∧ gives 10 (.inf false) 0 ∧ exact 11 (.inf false) 0 ∧ gives 12 (.real 1 false) 0)
     | .real q s =>
       (q = 0 → gives 8 (.inf s) 8 ∧ gives 9 (.inf s) 8 ∧ gives 11 (.inf true) 8 ∧ exact 12 (.real 0 s) 0) ∧
       (q < 0 → gives 9 .nan 16 ∧ gives 11 .nan 16) ∧
       (∀ n : ℤ, |q| = 2 ^ n → exact 8 (.real (if s then -2 ^ (-n) else 2 ^ (-n)) s) 0) ∧
       (∀ n : ℤ, q = 2 ^ (2 * n) → exact 9 (.real (2 ^ (-n)) false) 0) ∧
       (∀ n : ℤ, -152 ≤ n → n ≤ 128 → q = n → exact 10 (.real (2 ^ n) false) 0) ∧
       (∀ n : ℤ, q = 2 ^ n → exact 11 (.real n (decide (n < 0))) 0) ∧
       (ty = 10 → 16 ≤ |q| → exact 12 (.real (if s then -1 else 1) s) 1))

/-- Comparisons of floating-point lanes, the operands modified: −0 equals +0, a NaN is unordered (R176). -/
def Sys2Proof.Oblig.floatComparisons : Prop :=
  ∀ (ty p q : Nat) (n1 a1 n2 a2 : Bool), 8 ≤ ty → ty < 12 →
    let w := tyWidth ty
    let x := idModify n1 a1 (idealOf (formatOf ty) p)
    let y := idModify n2 a2 (idealOf (formatOf ty) q)
    let un : Prop := x = .nan ∨ y = .nan
    let c (cc : Nat) : Bool := compareLane cc ty n1 a1 n2 a2 p q
    let pattern (n a : Bool) (v : Nat) : Nat := if n then (if a then v % 2 ^ (w - 1) else v) ^^^ 2 ^ (w - 1) else if a then v % 2 ^ (w - 1) else v
    p < 2 ^ w → q < 2 ^ w →
    (c 0 = true ↔ ¬un ∧ idBelow false x y = false ∧ idBelow false y x = false) ∧ (c 1 = true ↔ c 0 = false) ∧
    (c 2 = true ↔ ¬un ∧ idBelow false x y = true) ∧ (c 3 = true ↔ ¬un ∧ idBelow false y x = false) ∧
    (c 4 = true ↔ ¬un ∧ idBelow false y x = true) ∧ (c 5 = true ↔ ¬un ∧ idBelow false x y = false) ∧ (c 6 = true ↔ un) ∧
    (c 7 = true ↔ ¬un) ∧ (c 8 = true ↔ pattern n1 a1 p &&& pattern n2 a2 q ≠ 0)

/-- The value of a code of VCVT's source, modified; an integer wraps (R16, R18, R22, R77). -/
def Sys2Proof.Oblig.sourceOf (f : X96) (src : NumTy) (code : Nat) : Ideal :=
  match src with
  | .flt e m b top => idModify f.n1 f.a1 (idealOf (e, m, b, top) code)
  | .e8m0 => idModify f.n1 f.a1 (if code % 256 = 255 then .nan else .real (2 ^ ((code % 256 : Nat) - 127 : ℤ)) false)
  | .mxint8 => .nan
  | .int sg w =>
    let v := BitVec.ofNat w code
    let u := if f.a1 && sg && v.msb then -v else v
    let x := if f.n1 then -u else u
    let i : Int := if sg then x.toInt else x.toNat
    .real i (decide (i < 0))

/-- A lane of VCVT: the modified source, scaled and clamped, into the target, with the conditions (R30 to R36, R38, R155): an infinity stays
one where the conversion widens and nothing scales it. Overflow into FP64 is treated as into the other IEEE formats: the model's choice
(log entry 103). Of an E8M0 result the code alone is given (its conditions: log entries 10 and 82). -/
def Sys2Proof.Oblig.convertedLanes : Prop :=
  ∀ (f : X96) (dst src : NumTy) (mode draw code : Nat),
    let types := (List.range 12).map tyNum ++ (List.range 6).map (fun k => narrowNum (k + 1))
    let v := idClamp f.clp.toNat (idScale f.scl.toInt (sourceOf f src code))
    let wide := [fp16, bf16, fp32, fp64]
    let widening : Bool := dst = src || (src = e5m2 && wide.contains dst) || ([fp16, bf16].contains src && [fp32, fp64].contains dst) ||
      (src = fp32 && dst = fp64)
    let r := vcvtLane f dst src mode draw code
    dst ∈ types → src ∈ types → mode < 6 → code < 2 ^ numBits src →
    match dst with
    | .flt e m b top => Finishes (e, m, b, top) mode draw f.sat (widening && f.scl = 0) v r
    | .int sg w => FinishesInt sg w mode draw f.sat v r
    | .mxint8 => True
    | .e8m0 =>
      match v with
      | .nan => r.1 = 255
      | .inf _ => r.1 = if f.sat then 254 else 255
      | .real x _ => (|x| < 2 ^ (-127 : ℤ) → r.1 = 0) ∧ (2 ^ (-127 : ℤ) ≤ |x| → ∃ N : ℤ,
        let k := Int.log 2 |x|
        Picks mode draw ((k + 127 + (|x| / 2 ^ k - 1) : ℚ) : ℝ) 1 N ∧ r.1 = if 254 < N then (if f.sat then 254 else 255) else N.toNat)

/-! ### Vector arithmetic (R142 to R153) -/

/-- Every VARITH instruction, with a register or a literal as source 2, writes the function's result into the active lanes of its
destination, keeps the inactive ones, and ORs the active lanes' conditions into `vxflags`; of the rest only the sleep of the
register blocks it touches differs. -/
def Sys2Proof.Oblig.varithCompletes : Prop :=
  ∀ (s : State) (t : Strand) (f : X96) (l : Word) (mode : Nat), Issues s t → resolveMode t f.rm.toNat = some mode →
    Mapped t [f.vd, f.vs1, f.vs2, f.vs3] →
    let w := tyWidth f.ty.toNat
    let writes (fn len : Nat) (i : Instr) (src2 : Nat → Nat) : Prop :=
      let r (k : Nat) := varithLane s t fn f mode k (vlaneOf t w f.vs1 k) (src2 k) (vlaneOf t w f.vs3 k)
      formOk i = true → ∃ fl gs, VecWrites (wakeRegs s t gs) (exec i s) t len f.vd.toNat 1 fl (fun t' =>
        LanesAre t t' f w (512 / w) (fun k => (r k).1)) ∧
        ∀ b, fl.testBit b = true ↔ ∃ k < 512 / w, activeLane t f k = true ∧ (r k).2.testBit b = true
    (∀ e ∈ varithForms f, writes e.1 12 e.2 (vlaneOf t w f.vs2)) ∧
    (∀ e ∈ varithLiterals f l, writes e.1 20 e.2 (fun _ => l.toNat))

/-- What an integer lane without modifiers holds after VARITH: sums, differences, products modulo 2^w, or clamped under SAT with
overflow reported; minima, maxima, the division table, the high half of the product, all with no condition. -/
def Sys2Proof.Oblig.integerLanes : Prop :=
  ∀ (s : State) (t : Strand) (f : X96) (mode k a b c : Nat),
    let ty := f.ty.toNat
    let w := tyWidth ty
    let val (x : Nat) : Int := if ty < 4 then (BitVec.ofNat w x).toInt else (BitVec.ofNat w x).toNat
    let low (x : Int) : Nat := (BitVec.ofInt w x).toNat
    let lo : Int := if ty < 4 then -2 ^ (w - 1) else 0
    let hi : Int := if ty < 4 then 2 ^ (w - 1) - 1 else 2 ^ w - 1
    let r (fn : Nat) := varithLane s t fn f mode k a b c
    ty < 8 → noMods f = true → a < 2 ^ w → b < 2 ^ w → c < 2 ^ w →
    (∀ e ∈ [(0, val a + val b), (1, val a - val b), (2, val a * val b), (3, val a * val b + val c)],
      r e.1 = if f.sat = false ∨ lo ≤ e.2 ∧ e.2 ≤ hi then (low e.2, 0) else (if e.2 < lo then low lo else low hi, fOF)) ∧
    r 4 = (low (min (val a) (val b)), 0) ∧ r 5 = (low (max (val a) (val b)), 0) ∧
    r 6 = (if b = 0 then (2 ^ w - 1, 0) else (low ((val a).tdiv (val b)), 0)) ∧
    r 18 = (low ((val a * val b).fdiv (2 ^ w)), 0) ∧
    r 13 = (a &&& b, 0) ∧ r 14 = (a ||| b, 0) ∧ r 15 = (a ^^^ b, 0) ∧ r 16 = (low (a * 2 ^ (b % w)), 0) ∧
    r 17 = (low ((val a).fdiv (2 ^ (b % w))), 0) ∧ r 19 = (if (gx t f.rs.toNat).getLsbD k then a else b, 0)

/-- Rounding a magnitude mag × 2^e to a multiple of 2^q (R38): the answer is one of the two neighbours and is exact exactly when
the value is such a multiple; to nearest it is the nearer one, and the even one of two as near; towards zero the lower; down the
upper for a negative value alone, up for a positive one alone; round to odd gives an odd multiple. -/
def Obligations.RoundingNeighbours : Prop :=
  ∀ (mode draw mag : Nat) (neg : Bool) (e q : Nat), mode < 5 →
    let r := roundAt mode draw neg mag e false q
    let x := mag * 2 ^ e
    let n := r.1 * 2 ^ q
    (n < x + 2 ^ q ∧ x < n + 2 ^ q) ∧ (r.2 = false ↔ n = x) ∧
    (mode = 0 → 2 * n ≤ 2 * x + 2 ^ q ∧ 2 * x ≤ 2 * n + 2 ^ q ∧ (2 * n = 2 * x + 2 ^ q ∨ 2 * x = 2 * n + 2 ^ q → r.1 % 2 = 0)) ∧
    (mode = 1 → n ≤ x) ∧ (mode = 2 → if neg then x ≤ n else n ≤ x) ∧ (mode = 3 → if neg then n ≤ x else x ≤ n) ∧
    (mode = 4 → r.2 = true → r.1 % 2 = 1)

/-- VARITH traps: with the reserved rounding modes of `vxrm`, ILLEGAL with the first parcel; with an unmapped register, CLAIM with
the lowest such register; nothing is written. -/
def Sys2Proof.Oblig.varithTraps : Prop :=
  ∀ (s : State) (t : Strand) (f : X96) (l : Word), Issues s t → t.rep = none →
    ∀ e ∈ varithForms f ++ varithLiterals f l, formOk e.2 = true →
      (f.rm = 7 → 6 ≤ t.vxrm.toNat % 8 → Traps s (exec e.2 s) t 0x00 (firstParcel e.2) false) ∧
      (∀ r, (f.rm ≠ 7 ∨ t.vxrm.toNat % 8 < 6) → 8 * t.vblocks ≤ r → r ∈ (varithRegs e.1 ((x160Of e.2).isSome) f).map (·.1) →
        (∀ q ∈ (varithRegs e.1 ((x160Of e.2).isSome) f).map (·.1), q < r → q < 8 * t.vblocks) →
        Traps s (exec e.2 s) t 0x07 (BitVec.ofNat 64 r) false)

/-- VARITH writes its lanes, or traps. -/
def Obligations.VarithResults : Prop := varithCompletes ∧ varithTraps

/-! ### Moves between vector registers, GPRs and memory (R145 to R148, R163 to R166) -/

/-- VLD, VLDS, VLDM and VGATHER write what their element loads give into the register, the lanes, the registers of the group, or
the active lanes; what else differs is what translation, the L1 and waking register blocks leave: of the strand itself, no more than
its reservation. -/
def Obligations.VectorLoads : Prop :=
  ∀ (s s2 : State) (t : Strand) (f : X96) (v : BitVec 6) (rs1 rs2 : BitVec 5) (imm : BitVec 6) (w : BitVec 2) (xs : List Nat), Issues s t →
    let from' (gs : List (Nat × Nat)) (n : Nat) (exact : Bool) (eas : List Word) : Prop :=
      gatherElems (wakeRegs s t gs) t n exact eas = .ok (xs, s2)
    let loads (o : Answer) (len vd k : Nat) (p : Strand → Prop) : Prop :=
      ∃ t2, findStrand s2 t.key = some t2 ∧ t2 = { t with resv := t2.resv } ∧ VecWrites s2 o t2 len vd k 0 p
    let wb := 8 <<< w.toNat
    let ew := tyWidth f.ty.toNat
    (Mapped t [v] → from' [(v.toNat, 1)] 64 true [gx t rs1.toNat + imm.signExtend 64 * 64] →
      loads (exec (.vld v rs1 imm) s) 4 v.toNat 1 (fun t' => vGet t' v.toNat = xs.headD 0 % 2 ^ 512)) ∧
    (Mapped t [v] → from' [(v.toNat, 1)] (wb / 8) false
        ((List.range (512 / wb)).map (fun i => gx t rs1.toNat + BitVec.ofNat 64 i * gx t rs2.toNat)) →
      loads (exec (.vlds w v rs1 rs2) s) 4 v.toNat 1 (fun t' => ∀ i < 512 / wb, vlaneOf t' wb v i = xs.getD i 0 % 2 ^ wb)) ∧
    (formOk (.vldm f) = true → f.vd.toNat + 2 ^ f.aux.toNat ≤ 8 * t.vblocks →
      from' [(f.vd.toNat, 2 ^ f.aux.toNat)] 64 true ((groupAddrs t f).map (·.2)) →
      loads (exec (.vldm f) s) 12 f.vd.toNat (2 ^ f.aux.toNat) (fun t' => ∀ j < 2 ^ f.aux.toNat,
        vGet t' (f.vd.toNat + j) = if activeLane t f j
          then xs.getD (((List.range j).filter (activeLane t f)).length) 0 % 2 ^ 512 else vGet t (f.vd.toNat + j))) ∧
    (formOk (.vgather f) = true → f.vd.toNat < 8 * t.vblocks → f.vs1.toNat + indexRegs f ≤ 8 * t.vblocks →
      from' [(f.vd.toNat, 1), (f.vs1.toNat, indexRegs f)] (ew / 8) false ((indexedLanes t f).map (·.2)) →
      loads (exec (.vgather f) s) 12 f.vd.toNat 1 (fun t' =>
        LanesAre t t' f ew (512 / ew) (fun i => xs.getD (((List.range i).filter (activeLane t f)).length) 0)))

/-- VST, VSTS, VSTM and VSCATTER store the register, its lanes, the active registers of the group, or the active lanes, in
ascending order, write no register, and go on. -/
def Obligations.VectorStores : Prop :=
  ∀ (s s2 : State) (t : Strand) (f : X96) (v : BitVec 6) (rs1 rs2 : BitVec 5) (imm : BitVec 6) (w : BitVec 2), Issues s t →
    let stores (gs : List (Nat × Nat)) (n : Nat) (eas : List Word) (xs : List Nat) : Prop :=
      scatterElems (wakeRegs s t gs) t n eas xs = .ok s2
    let wb := 8 <<< w.toNat
    let ew := tyWidth f.ty.toNat
    (Mapped t [v] → stores [(v.toNat, 1)] 64 [gx t rs1.toNat + imm.signExtend 64 * 64] [vGet t v.toNat] →
      Skips s2 (exec (.vst v rs1 imm) s) 4) ∧
    (Mapped t [v] → stores [(v.toNat, 1)] (wb / 8)
        ((List.range (512 / wb)).map (fun i => gx t rs1.toNat + BitVec.ofNat 64 i * gx t rs2.toNat))
        ((List.range (512 / wb)).map (vlaneOf t wb v)) → Skips s2 (exec (.vsts w v rs1 rs2) s) 4) ∧
    (formOk (.vstm f) = true → f.vs1.toNat + 2 ^ f.aux.toNat ≤ 8 * t.vblocks → stores [(f.vs1.toNat, 2 ^ f.aux.toNat)] 64
        ((groupAddrs t f).map (·.2)) ((groupAddrs t f).map (fun e => vGet t (f.vs1.toNat + e.1))) →
      Skips s2 (exec (.vstm f) s) 12) ∧
    (formOk (.vscatter f) = true → f.vs2.toNat < 8 * t.vblocks → f.vs1.toNat + indexRegs f ≤ 8 * t.vblocks →
      stores [(f.vs1.toNat, indexRegs f), (f.vs2.toNat, 1)] (ew / 8) ((indexedLanes t f).map (·.2))
        ((indexedLanes t f).map (fun e => vlaneOf t ew f.vs2 e.1)) → Skips s2 (exec (.vscatter f) s) 12)

/-- VINS replaces one lane, VEXT reads one sign- or zero-extended, VSPLAT fills every lane from a GPR or an immediate; the lane
index counts modulo the number of lanes. Their parcels are those of the tables. -/
def Obligations.LaneMoves : Prop :=
  ∀ (s : State) (t : Strand) (v : BitVec 6) (rd rs1 rs2 imm : BitVec 5) (w : BitVec 2) (u : Bool), Issues s t → Mapped t [v] →
    let wb := 8 <<< w.toNat
    let n := 512 / wb
    let j := (gx t rs1.toNat).toNat % n
    let s1 := wakeRegs s t [(v.toNat, 1)]
    let fills (i : Instr) (new : Nat → Nat) : Prop :=
      VecWrites s1 (exec i s) t 4 v.toNat 1 0 (fun t' => ∀ k < n, vlaneOf t' wb v k = new k)
    fills (.vins w v rs1 rs2) (fun k => if k = j then (gx t rs2.toNat).toNat % 2 ^ wb else vlaneOf t wb v k) ∧
    fills (.vsplat w v rs1) (fun _ => (gx t rs1.toNat).toNat % 2 ^ wb) ∧
    fills (.vsplatImm w v imm) (fun _ => (imm.signExtend 64).toNat % 2 ^ wb) ∧
    GprWrites s1 (exec (.vext u w rd v rs1) s) t 4 rd.toNat
      (if u then BitVec.ofNat 64 (vlaneOf t wb v j) else (BitVec.ofNat wb (vlaneOf t wb v j)).signExtend 64) ∧
    decodeWhole [0#4 ++ w ++ v ++ rs1 ++ 4#3 ++ rs2 ++ 0x2B#7] = .ok (.vins w v rs1 rs2) ∧
    decodeWhole [0#3 ++ BitVec.ofBool u ++ w ++ v ++ rs1 ++ 5#3 ++ rd ++ 0x2B#7] = .ok (.vext u w rd v rs1) ∧
    decodeWhole [0#4 ++ w ++ v ++ rs1 ++ 6#3 ++ 0#5 ++ 0x2B#7] = .ok (.vsplat w v rs1) ∧
    decodeWhole [1#4 ++ w ++ v ++ 0#5 ++ 6#3 ++ imm ++ 0x2B#7] = .ok (.vsplatImm w v imm)

/-! ### Conversions (R154 to R161) -/

/-- VCVT, VUNPKMX, VTOBSI and VFROMBSI write the converted value into the active lanes of their destination group and keep the
others; VPACKMX writes its destination whole; VMXEXP gives a GPR the scale code that a packing would choose. -/
def Sys2Proof.Oblig.conversions : Prop :=
  ∀ (s : State) (t : Strand) (f : X96) (mode : Nat), Issues s t → resolveMode t f.rm.toNat = some mode →
    let ty := f.ty.toNat
    let w := tyWidth ty
    let g := group32 w
    let fits (b : BitVec 6) (k : Nat) : Prop := b.toNat + k ≤ 8 * t.vblocks
    let group (i : Instr) (vd k w n : Nat) (conv : Nat → Nat × Nat) : Prop :=
      ∃ fl gs, VecWrites (wakeRegs s t gs) (exec i s) t 12 vd k fl (fun t' => ∀ j < n,
        lane w j (vGroup t' vd k) = if activeLane t f j then (conv j).1 % 2 ^ w else lane w j (vGroup t vd k)) ∧
        ∀ b, fl.testBit b = true ↔ ∃ j < n, activeLane t f j = true ∧ (conv j).2.testBit b = true
    let src (j : Nat) : Exact := operandValue ty f.n1 f.a1 (lane w j (vGroup t f.vs1.toNat g))
    (formOk (.vcvt f) = true →
      let d := (vcvtWidths f).1
      let r := (vcvtWidths f).2
      let m := min d r
      fits f.vd (d / m) → fits f.vs1 (r / m) → group (.vcvt f) f.vd.toNat (d / m) d (512 / m) (fun j =>
        vcvtLane f (vcvtTypes f).1 (vcvtTypes f).2 mode (laneDraw s t f mode j) (lane r j (vGroup t f.vs1.toNat (r / m))))) ∧
    (formOk (.vunpkmx f) = true → fits f.vd g → fits f.vs1 1 → group (.vunpkmx f) f.vd.toNat g w 32 (fun j =>
      convertTo (tyNum ty) mode (laneDraw s t f mode j) f.sat true (exModify f.n1 f.a1 (mxValue f.aux.toNat (vGet t f.vs1.toNat) j)))) ∧
    (formOk (.vtobsi f) = true → fits f.vd 4 → fits f.vs1 g → group (.vtobsi f) f.vd.toNat 4 64 32 (fun j =>
      convertTo (.int true 64) mode (laneDraw s t f mode j) f.sat false (exScale (src j) (-(bsiExp t f))))) ∧
    (formOk (.vfrombsi f) = true → fits f.vd g → fits f.vs1 4 → group (.vfrombsi f) f.vd.toNat g w 32 (fun j =>
      convertTo (tyNum ty) mode (laneDraw s t f mode j) f.sat true
        (exInt (sint 64 (modInt true f.n1 f.a1 64 (lane 64 j (vGroup t f.vs1.toNat 4)))) (bsiExp t f)))) ∧
    (formOk (.vpackmx f) = true → fits f.vd 1 → fits f.vs1 g →
      let part := (List.range 32).map (fun j => if activeLane t f j then src j else exZero)
      let b := mxPack f.aux.toNat mode f.sat (laneDraw s t f mode) (activeLane t f) part
      ∃ gs, VecWrites (wakeRegs s t gs) (exec (.vpackmx f) s) t 12 f.vd.toNat 1 b.2 (fun t' => vGet t' f.vd.toNat = b.1 % 2 ^ 512)) ∧
    (formOk (.vmxexp f) = true → fits f.vs1 g → ∃ gs, GprWrites (wakeRegs s t gs) (exec (.vmxexp f) s) t 12 f.vd.toNat
      (BitVec.ofNat 64 (mxScaleOf f.aux.toNat ((List.range 32).map (fun j => if activeLane t f j then src j else exZero)))))

/-- VRAND: each active lane, in ascending order, takes the next draw of the strand's own sequence, as 32 bits or as an FP32 value
in [0, 1); the counter advances by the number of active lanes, and inactive lanes stay. -/
def Sys2Proof.Oblig.randomLanes : Prop :=
  ∀ (s : State) (t : Strand) (f : X96) (mode : Nat), Issues s t → resolveMode t f.rm.toNat = some mode → formOk (.vrand f) = true →
    Mapped t [f.vd] →
    let below (i : Nat) : Nat := ((List.range i).filter (activeLane t f)).length
    let c (i : Nat) : Nat := (t.draw + BitVec.ofNat 64 (below i)).toNat
    let d (i : Nat) : Nat := drawOf (runOf s t.key.run).seed 0xFFFFFFFF t.key.gls (c i % 2 ^ 32) (c i / 2 ^ 32)
    ∃ t', NextStrand (wakeRegs s t [(f.vd.toNat, 1)]) (exec (.vrand f) s) t.key t' ∧ GoesOn t t' 12 ∧
      t' = { t with v := t'.v, draw := t.draw + BitVec.ofNat 64 (below 16), pc := t'.pc, lpcount := t'.lpcount, rep := t'.rep } ∧
      (∀ r, r ≠ f.vd.toNat → tget 0 t'.v r = tget 0 t.v r) ∧
      (∀ i < 16, activeLane t f i = false → vlaneOf t' 32 f.vd i = vlaneOf t 32 f.vd i) ∧
      (∀ i < 16, activeLane t f i = true → (f.ty = 6 → vlaneOf t' 32 f.vd i = d i % 2 ^ 32) ∧
        (f.ty = 10 → vlaneOf t' 32 f.vd i = (convertTo fp32 0 0 false true (.fin false (d i / 256) (-24) false)).1 % 2 ^ 32))

/-- VCONV converts, each lane of VCVT as the rules on rounding, overflow, infinities and NaN have it, and draws random lanes. How overflow into
FP64 ends is the model's choice (log entry 103). -/
def Obligations.ConversionResults : Prop := conversions ∧ convertedLanes ∧ randomLanes

/-! ### Lanes (R172 to R177) -/

/-- VPERM moves into each active lane the lane that its index names. -/
def Obligations.LanePermutations : Prop :=
  ∀ (s : State) (t : Strand) (f : X96) (mode : Nat), Issues s t → resolveMode t f.rm.toNat = some mode →
    formOk (.vperm f) = true → Mapped t [f.vd, f.vs1, f.vs2] →
    let w := tyWidth f.ty.toNat
    let n := 512 / w
    ∃ gs, VecWrites (wakeRegs s t gs) (exec (.vperm f) s) t 12 f.vd.toNat 1 0 (fun t' =>
      LanesAre t t' f w n (fun i => vlaneOf t w f.vs1 (vlaneOf t w f.vs2 i % n)))

/-- VCMP sets, in a GPR, bit AUX + k (modulo 64) to the comparison of lane k for every active lane, and keeps the other bits;
VPOPC counts the active lanes whose mask bit is set. VIOTA gives a lane the number of mask bits below it, or its own number; VCOMPRESS
packs the selected lanes to the bottom, with zeros above; VSLIDE moves the lane at a distance, or one of the fill register. -/
def Obligations.MaskResults : Prop :=
  ∀ (s : State) (t : Strand) (f : X96) (l : Word) (mode : Nat), Issues s t → resolveMode t f.rm.toNat = some mode →
    let w := tyWidth f.ty.toNat
    let n := 512 / w
    let mask := gx t f.rs.toNat
    let compares (i : Instr) (len : Nat) (src2 : Nat → Nat) : Prop := formOk i = true → Mapped t [f.vs1, f.vs2] →
      ∃ gs v, GprWrites (wakeRegs s t gs) (exec i s) t len f.vd.toNat v ∧
        (∀ k < n, activeLane t f k = true → v.getLsbD ((f.aux.toNat + k) % 64) =
          compareLane f.ty2.toNat f.ty.toNat f.n1 f.a1 f.n2 f.a2 (vlaneOf t w f.vs1 k) (src2 k)) ∧
        (∀ b < 64, (∀ k < n, activeLane t f k = true → (f.aux.toNat + k) % 64 ≠ b) → v.getLsbD b = (gx t f.vd.toNat).getLsbD b)
    let writes (i : Instr) (p : Strand → Prop) : Prop := formOk i = true → Mapped t [f.vd, f.vs1, f.vs2] →
      ∃ gs, VecWrites (wakeRegs s t gs) (exec i s) t 12 f.vd.toNat 1 0 p
    let shift := (gx t f.rs.toNat + f.aux.signExtend 64).toInt
    let chosen := (List.range n).filter (fun i => activeLane t f i && mask.getLsbD i)
    compares (.vcmp f) 12 (vlaneOf t w f.vs2) ∧ compares (.vcmpX160 f l) 20 (fun _ => l.toNat) ∧
    (formOk (.vpopc f) = true → GprWrites s (exec (.vpopc f) s) t 12 f.vd.toNat (BitVec.ofNat 64 chosen.length)) ∧
    writes (.viota f) (fun t' => LanesAre t t' f w n (fun i =>
      if f.aux.getLsbD 0 then i else ((List.range i).filter (fun j => mask.getLsbD j)).length)) ∧
    writes (.vcompress f) (fun t' => ∀ i < n, vlaneOf t' w f.vd i = if h : i < chosen.length then vlaneOf t w f.vs1 chosen[i] else 0) ∧
    writes (.vslide f) (fun t' => LanesAre t t' f w n (fun i =>
      let j := (i : Int) + shift
      if 0 ≤ j ∧ j < n then vlaneOf t w f.vs1 j.toNat
      else if n ≤ j ∧ j < 2 * n then vlaneOf t w f.vs2 (j - n).toNat
      else if -n ≤ j ∧ j < 0 then vlaneOf t w f.vs2 (j + n).toNat else 0))

/-- Comparisons of integer lanes without modifiers (R176): equal, unequal, less, at most, greater, at least, by the signed or
unsigned value, and the test for a common one bit. -/
def Sys2Proof.Oblig.integerComparisons : Prop :=
  ∀ (ty x y : Nat), ty < 8 →
    let w := tyWidth ty
    let val (z : Nat) : Int := if ty < 4 then (BitVec.ofNat w z).toInt else (BitVec.ofNat w z).toNat
    let c (cc : Nat) : Bool := compareLane cc ty false false false false x y
    x < 2 ^ w → y < 2 ^ w →
    (c 0 = true ↔ val x = val y) ∧ (c 1 = true ↔ val x ≠ val y) ∧ (c 2 = true ↔ val x < val y) ∧ (c 3 = true ↔ val x ≤ val y) ∧
    (c 4 = true ↔ val y < val x) ∧ (c 5 = true ↔ val y ≤ val x) ∧ (c 8 = true ↔ x &&& y ≠ 0)

/-- Integer and floating-point lanes: what VARITH computes, and what VCMP compares, from the rules on values and rounding. The sign of
(+0) + (+0) under RDN is the model's choice (log entry 113), as is which special cases of the f32 functions raise inexact (log entry 84). -/
def Obligations.LaneArithmetic : Prop := integerLanes ∧ integerComparisons ∧ floatLanes ∧ specialLanes ∧ floatComparisons

/-- VRED writes the reduction of the active lanes into lane 0 and zero above it; a wrapping integer sum is the sum of the active
lanes modulo 2^w. VSCAN writes the running result into the active lanes. -/
def Obligations.ReductionResults : Prop :=
  ∀ (s : State) (t : Strand) (f : X96) (mode : Nat), Issues s t → resolveMode t f.rm.toNat = some mode →
    (f.aux = 0 → tyFloat f.ty.toNat = true → mode ≠ 5) → Mapped t [f.vd, f.vs1] →
    let ty := f.ty.toNat
    let w := tyWidth ty
    let n := 512 / w
    let op := reduceOp f.aux.toNat ty mode f.sat
    let src (i : Nat) : Nat := if activeLane t f i then vlaneOf t w f.vs1 i else reduceId f.aux.toNat ty
    (formOk (.vred f) = true →
      let r := tree op 7 ((List.range n).map src)
      ∃ gs, VecWrites (wakeRegs s t gs) (exec (.vred f) s) t 12 f.vd.toNat 1 r.2 (fun t' => vGet t' f.vd.toNat = r.1 % 2 ^ w ∧
        (ty < 8 → f.aux = 0 → f.sat = false → vGet t' f.vd.toNat =
          (((List.range n).filter (activeLane t f)).map (vlaneOf t w f.vs1)).sum % 2 ^ w))) ∧
    (formOk (.vscan f) = true → ∃ (gs : List (Nat × Nat)) (fl : Nat) (p : Nat → Nat), p 0 = scanFirst f (src 0) ∧
      (∀ i, p (i + 1) = (op (p i) (src (i + 1))).1) ∧
      VecWrites (wakeRegs s t gs) (exec (.vscan f) s) t 12 f.vd.toNat 1 fl (fun t' => LanesAre t t' f w n p) ∧
      ∀ b, fl.testBit b = true ↔ ∃ i, i + 1 < n ∧ (op (p i) (src (i + 1))).2.testBit b = true)

/-- VAMOADD on integers adds, lane by lane, to the elements at their homes; on floating-point types an ordered form posts one addition
per active lane to its step; an ordered form takes the strand's next sequence number; no register is written. That of the core's stores
exactly those to an element's own 4-byte words come before it is the model's choice (log entry 62), as is what an addition to a granule
that is gone does (log entry 68). -/
def Sys2Proof.Oblig.vectorAddition : Prop :=
  ∀ (s s2 : State) (t : Strand) (f : X96) (mode : Nat) (locs : List (List Loc)), Issues s t →
    resolveMode t f.rm.toNat = some mode → mode ≠ 5 → formOk (.vamoadd f) = true →
    f.vs2.toNat < 8 * t.vblocks → f.vs1.toNat + indexRegs f ≤ 8 * t.vblocks →
    let n := tyWidth f.ty.toNat / 8
    let ls := indexedLanes t f
    (∀ e ∈ ls, e.2.toNat % n = 0) →
    locateAll t n .amo (wakeRegs s t [(f.vs1.toNat, indexRegs f), (f.vs2.toNat, 1)]) (ls.map (·.2)) = .ok (locs, s2) →
    (∀ l ∈ locs, ∀ b ∈ l, b.1 ≠ .host) →
    let ps := vamoPosts t f mode (ls.zip locs)
    (tyInt f.ty.toNat = true →
      let w := ps.foldl (applyPost t.key.run) (atHomes s2 t.core n ps)
      Skips (if f.ord then setStrand w t.key (fun t => { t with ordSeq := t.ordSeq + 1 }) else w) (exec (.vamoadd f) s) 12) ∧
    (tyFloat f.ty.toNat = true → f.ord = true → crewPosts s2 t.key + ps.length ≤ 16384 → (runOf s2 t.key.run).heldAdds = [] →
      ∃ u t', exec (.vamoadd f) s = .next u ∧ SameBytes s2 u ∧ findStrand u t.key = some t' ∧ GoesOn t t' 12 ∧ t'.x = t.x ∧
        t'.v = t.v ∧ t'.ordSeq = t.ordSeq + 1 ∧ (t.key.run < s.runs.length → (runOf u t.key.run).adds = (runOf s2 t.key.run).adds ++ ps)) ∧
    (tyFloat f.ty.toNat = true → f.ord = false → (runOf s2 t.key.run).level = 0 → (runOf s2 t.key.run).replay = none →
      overflowed s2 t = false → ∃ u, exec (.vamoadd f) s = .next u ∧ PlainStep s u 12 ∧
        SameBytes (ps.foldl (applyPost t.key.run) (atHomes s2 t.core n ps)) u)

/-- One addition of an integer at its home (R167, R168): the element becomes the sum modulo 2^w; other bytes stay. -/
def Sys2Proof.Oblig.homeAddition : Prop :=
  ∀ (s : State) (sp : Space) (a ty mode v : Nat), ty < 8 → sp ≠ .host →
    let w := tyWidth ty
    poisoned s sp a (w / 8) = false →
    let u := addAt s sp a ty mode false (valueOf (tyNum ty) v)
    peekNat u sp a (w / 8) = (peekNat s sp a (w / 8) + v) % 2 ^ w ∧ OtherBytes s u sp a (w / 8)

/-- VAMOADD adds at the homes of its elements. -/
def Obligations.AtomicAddition : Prop := vectorAddition ∧ homeAddition

end

namespace Sys2Proof.Oblig

open Machine

/-- From s to u, one command of strand t has been added at the end of its core's matrix queue. -/
def Enqueued (s u : State) (t : Strand) (slot : Option Nat) (m : Nat) (op : MatrixOp) : Prop :=
  ∃ c, queueOf u t.core = queueOf s t.core ++ [c] ∧ c.key = t.key ∧ c.core = t.core ∧ c.order = t.issued ∧
    c.granules = t.granules ∧ c.slot = slot ∧ c.m = m ∧ c.op = op

/-- The strand has become BLOCKED at the instruction it stands at. -/
def Blocks (u : State) (t : Strand) : Prop := ∃ t', findStrand u t.key = some t' ∧ t'.life = .blocked ∧ t'.pc = t.pc ∧ t'.x = t.x

/-- Slot m of the strand's crew is cluster slot p, and the strand is its master (R103, R249). -/
def Masters (s : State) (t : Strand) (m p : Nat) : Prop :=
  crewSlot s t m = some p ∧ (slotOf s (t.core / 8) p).master = some t.key

/-- Of the strand's registers, one has been written, and it has gone on behind an X96 instruction; no byte of storage differs. -/
def RegOnly (s : State) (o : Answer) (rd : BitVec 6) (v : Word) : Prop :=
  ∃ u, o = .next u ∧ RegStep s u (rd.truncate 5) v 12 ∧ SameBytes s u

end Sys2Proof.Oblig

section

open Sys2Proof Sys2Proof.Machine Sys2Proof.Oblig

/-! ### Guards of engine instructions (R79, R84) -/

/-- An engine instruction whose guard is inactive does nothing but go on. -/
def Obligations.InactiveGuards : Prop :=
  ∀ (s : State) (t : Strand) (f : X96) (i : Instr), Issues s t → activeScalar t f = false → formOk i = true →
    i ∈ [Instr.mzero f, .mma f, .mmag f, .mdrain f, .mdrains f, .mpeek f, .mwait f, .mtld f, .mtsv f, .cpy f, .cpyred f, .cpywb f,
         .cpyq f, .cpycan f, .xreq f, .xpoll f, .xwait f, .putx f, .putxadd f, .coll f] →
    Skips s (exec i s) 12

/-! ### The matrix unit (R239 to R271) -/

/-- MZERO, MMA, MMAG, MTLD enter their core's queue and the strand goes on; MDRAIN, MDRAINS and MTSV enter it and the strand waits;
MPEEK waits without entering it; MWAIT goes on when nothing that it awaits is outstanding and no fault is pending, and waits else.
With the queue full, a command is not issued and nothing changes. No byte of storage differs. -/
def Obligations.MatrixIssue : Prop :=
  ∀ (s : State) (t : Strand) (f : X96), Issues s t → activeScalar t f = true →
    let m := f.vd.toNat
    let cl := t.core / 8
    let enters (i : Instr) (slot : Option Nat) (m : Nat) (op : MatrixOp) : Prop :=
      ∃ u, exec i s = .next u ∧ PlainStep s u 12 ∧ SameBytes s u ∧ Enqueued s u t slot m op
    let waits (i : Instr) (slot : Option Nat) (m : Nat) (op : MatrixOp) : Prop :=
      ∃ u, exec i s = .next u ∧ Blocks u t ∧ SameBytes s u ∧ Enqueued s u t slot m op
    let v3 := (gx t f.vs3.toNat).toNat
    let v2 := (gx t f.vs2.toNat).toNat
    let d := gx t f.vs1.toNat
    (queueRoom s t.core = true →
      (formOk (.mzero f) = true → ∀ p, crewSlot s t m = some p → -512 ≤ (gx t f.rs.toNat).toInt → (gx t f.rs.toNat).toInt ≤ 511 →
        ((slotOf s cl p).master = none ∨ (slotOf s cl p).master = some t.key ∨ (slotOf s cl p).opened = true) →
        ∃ u, exec (.mzero f) s = .next u ∧ PlainStep s u 12 ∧ SameBytes s u ∧ Masters u t m p ∧ (slotOf u cl p).opened = false ∧
          (slotOf u cl p).w = (slotOf s cl p).w ∧ Enqueued s u t (some p) m (.mzero (gx t f.rs.toNat).toInt)) ∧
      (∀ p k nr stride a b, Masters s t m p →
        (formOk (.mma f) = true → mmaShape f false v3 = some (k, nr, stride) →
          scratchSpan t d (127 * stride + k / 32 * mxBytes f.ty.toNat) .eread = .ok a → mmaB t f k = .ok b →
          enters (.mma f) (some p) m (.mma { fa := f.ty.toNat, fb := f.ty2.toNat, k := k, stride := stride, a := a, b := b, rows := none, tab := if f.aux.getLsbD 0 then some (f.aux.toNat / 2 % 4) else none, step := 0 })) ∧
        (∀ l s1, formOk (.mmag f) = true → mmaShape f true v3 = some (k, nr, stride) →
          scratchSpan t d ((nr - 1) * stride + k / 32 * mxBytes f.ty.toNat) .eread = .ok a → mmaB t f k = .ok b →
          readList s t (gx t f.rs.toNat) = .ok (l, s1) → (∀ r ∈ l, r = 0xFFFF ∨ r < nr) →
          enters (.mmag f) (some p) m (.mma { fa := f.ty.toNat, fb := f.ty2.toNat, k := k, stride := stride, a := a, b := b, rows := some l, tab := if f.aux.getLsbD 0 then some (f.aux.toNat / 2 % 4) else none, step := 0 }))) ∧
      (formOk (.mtld f) = true → d.toNat % 2 = 0 → ∀ off, scratchSpan t d (2 * symCount f.ty2.toNat) .eread = .ok off →
        enters (.mtld f) none 0 (.mtld (f.aux.toNat / 2 % 4) f.ty2.toNat off)) ∧
      (formOk (.mtsv f) = true → d.toNat % 16 = 0 → ∀ off, scratchSpan t d 528 .ewrite = .ok off →
        waits (.mtsv f) none 0 (.mtsv (f.aux.toNat / 2 % 4) off)) ∧
      (∀ mode p op s1, resolveMode t f.rm.toNat = some mode →
        (formOk (.mdrain f) = true → drainOp s t (.mdrain f) f mode false = .ok (p, op, s1) → waits (.mdrain f) (some p) m (.drain op)) ∧
        (formOk (.mdrains f) = true → drainOp s t (.mdrains f) f mode true = .ok (p, op, s1) → waits (.mdrains f) (some p) m (.drain op)))) ∧
    (∀ mode p op s1, resolveMode t f.rm.toNat = some mode → formOk (.mpeek f) = true → drainOp s t (.mpeek f) f mode false = .ok (p, op, s1) →
      ∃ u, exec (.mpeek f) s = .next u ∧ Blocks u t ∧ SameBytes s u ∧ queueOf u t.core = queueOf s t.core) ∧
    (∀ i mode p op s1 stride row0 n, (i = .mdrain f ∨ i = .mpeek f) → drainOp s t i f mode false = .ok (p, op, s1) →
      drainCtl f v2 = some (stride, row0, n) → Masters s t m p ∧ op.rows.length = n ∧ ∀ j < n, ∃ off, op.rows[j]? = some (row0 + j, off) ∧
        scratchSpan t (d + BitVec.ofNat 64 (j * stride)) (drainUnits f).1 .ewrite = .ok off) ∧
    (formOk (.mwait f) = true → (f.aux.getLsbD 0 = true → ∃ p, Masters s t m p) →
      let slot := if f.aux.getLsbD 0 then some m else none
      ((matrixOf s t).any (awaits slot) = true → ∃ u, exec (.mwait f) s = .next u ∧ Blocks u t ∧ SameBytes s u) ∧
      ((matrixOf s t).any (awaits slot) = false → t.faults.any (covers slot) = false → Skips s (exec (.mwait f) s) 12)) ∧
    (queueRoom s t.core = false →
      ∀ i ∈ [Instr.mzero f, .mma f, .mmag f, .mdrain f, .mdrains f, .mtld f, .mtsv f], formOk i = true → exec i s = .next s)

/-- The unit's events run the arbiter's choice when it is of their kind: MZERO empties its slot and gives it its anchor; a tile step
adds its products and moves its command on; a drain writes its rows and opens its slot; MTLD loads a table, valid when the
frequencies sum to 4,096; MTSV writes one. The refresh window is open as the cycle count says. With nothing to run, nothing changes. -/
def Sys2Proof.Oblig.unitEvents : Prop :=
  ∀ (s : State) (cl : Nat) (c : MatrixCmd), clusterOk cl = true →
    let units := [Instr.matrixTileStep cl 0, .mzeroExec cl, .drainConvert cl, .mtldExec cl, .mtsvExec cl]
    let leaves (u : State) : Prop := queueOf u c.core = (queueOf s c.core).filter (fun x => x.id ≠ c.id)
    (nextUnit s cl = none → ∀ i ∈ units, exec i s = .next s) ∧
    (∃ u, exec (.wbRefreshOpen cl) s = .next u ∧ SameBytes s u ∧
      (clusterOf u cl).refresh = ((clusterOf s cl).refresh || decide (refreshPhase s cl < 512))) ∧
    (∃ u, exec (.wbRefreshClose cl) s = .next u ∧ SameBytes s u ∧
      (clusterOf u cl).refresh = ((clusterOf s cl).refresh && decide (refreshPhase s cl < 512))) ∧
    (nextUnit s cl = some c → c.core / 8 = cl →
      (∀ a p, c.op = .mzero a → c.slot = some p → ∃ u, exec (.mzeroExec cl) s = .next u ∧ SameBytes s u ∧ leaves u ∧
        (slotOf u cl p).anchor = a ∧ (slotOf u cl p).steps = 0 ∧ (slotOf u cl p).ovf = false ∧
        (slotOf u cl p).master = (slotOf s cl p).master ∧ ∀ e, slotValue (slotOf u cl p) e = exInt 0 a) ∧
      (∀ op p rows cols bad, c.op = .mma op → c.slot = some p → (slotOf s cl p).poisoned = false → (slotOf s cl p).bad = false → bad < 2 →
        let s1 := arbTake s cl
        let nq := min 4 (op.k / 32 - 4 * op.step)
        readRows s1 c op nq (op.rows.getD (List.range 128)) = .ok rows → readB s1 cl c op nq = .ok cols →
        ∃ u, exec (.matrixTileStep cl bad) s = .next u ∧ slotOf u cl p = slotProducts (slotOf s cl p) op rows cols ∧
          (bad = 0 → SameBytes s u) ∧ ((op.k + 127) / 128 ≤ op.step + 1 → leaves u)) ∧
      (∀ op p, c.op = .drain op → c.slot = some p → (slotOf s cl p).bad = false →
        (strandOf s c.key).faults.any (covers (some c.m)) = false →
        let w := drainWrite (arbTake s cl) (runOf s c.key.run).seed (slotOf s cl p) c.core c.granules op
        ∃ u, exec (.drainConvert cl) s = .next u ∧ SameBytes w.1 u ∧ leaves u ∧ (slotOf u cl p).opened = true ∧
          ∀ t, findStrand s c.key = some t → ∃ t', findStrand u c.key = some t' ∧
            t'.vxflags = t.vxflags ||| BitVec.ofNat 64 (w.2 % 32)) ∧
      (∀ tab fmt ptr, c.op = .mtld tab fmt ptr →
        let n := symCount fmt
        let ls := scratchLocs c.core c.granules ptr (2 * n)
        let fs := (List.range n).map (fun i => leNat (((ls.map (fun l => peek s l.1 l.2)).drop (2 * i)).take 2))
        (∀ l ∈ ls, poisoned s l.1 l.2 1 = false) → ∃ u, exec (.mtldExec cl) s = .next u ∧ SameBytes s u ∧ leaves u ∧
          tget {} (clusterOf u cl).tables tab = { state := if fs.sum = 4096 then 1 else 2, fmt := fmt, freq := fs }) ∧
      (∀ tab ptr, c.op = .mtsv tab ptr →
        let ls := scratchLocs c.core c.granules ptr 528
        let t := tget {} (clusterOf s cl).tables tab
        ls.length = 528 → ls.Nodup → ∃ u, exec (.mtsvExec cl) s = .next u ∧ leaves u ∧
          ls.map (fun l => peek u l.1 l.2) = leBytes 1 t.state ++ leBytes 1 t.fmt ++ List.replicate 14 0 ++
            (List.range 256).flatMap (fun i => leBytes 2 (t.freq.getD i 0)) ∧
          ∀ sp a, (sp, a) ∉ ls → peek u sp a = peek s sp a))

/-- A tile step's products (R50, R51, R252): each element of a used row adds, block by block, the product of its row's and its
column's blocks, floored at the anchor's weight and clamped to 96 bits; elements of other rows stay; a NaN block sets the
element's NaN flag. -/
def Sys2Proof.Oblig.tileProducts : Prop :=
  (∀ (sl : SlotSt) (op : MmaOp) (rows : List (Option (List Blk))) (cols : List (List Blk)) (r j : Nat),
    rows.length = 128 → cols.length = 128 → r < 128 → j < 128 → twf 0 sl.w = true → twf false sl.n = true →
    let u := slotProducts sl op rows cols
    let e := 128 * r + j
    let out : Elem := match rows.getD r none with
      | none => (tget 0 sl.w e, tget false sl.n e, false)
      | some a => ((a.map (blkQ op.fa)).zip ((cols.getD j []).map (blkQ op.fb))).foldl
          (fun x q => blockProduct sl.anchor (mxF op.fa + mxF op.fb) q.1 q.2 x) (tget 0 sl.w e, tget false sl.n e, false)
    tget 0 u.w e = out.1 ∧ tget false u.n e = out.2.1 ∧ (out.2.2 = true → u.ovf = true) ∧ (sl.ovf = true → u.ovf = true) ∧
      u.steps = sl.steps + 1 ∧ u.anchor = sl.anchor) ∧
  (∀ (anchor f : Int) (xa xb : Nat) (qa qb : List Int) (w : Int) (n o : Bool),
    let x : Int := xa + xb - 254 + f
    let p := (qa.zip qb).foldl (fun acc q => acc + q.1 * q.2) 0
    let c : Int := if anchor ≤ x then p * 2 ^ (x - anchor).toNat else p.fdiv (2 ^ (anchor - x).toNat)
    blockProduct anchor f (some (xa, qa)) (some (xb, qb)) (w, n, o) =
      (if 2 ^ 95 ≤ w + c then (2 ^ 95 - 1, n, true) else if w + c < -2 ^ 95 then (-2 ^ 95, n, true) else (w + c, n, o)) ∧
    ∀ b, blockProduct anchor f none b (w, n, o) = (w, true, o) ∧ blockProduct anchor f b none (w, n, o) = (w, true, o))

/-- The matrix unit runs its commands, and a tile step adds the products that R50 to R52 give. -/
def Obligations.MatrixUnit : Prop := unitEvents ∧ tileProducts

/-! ### The copy engine (R280 to R294) -/

/-- CPY, CPYRED and CPYWB whose record and checks pass add one command to the engine and the strand goes on; with nothing to copy
they add none; with 16 outstanding nothing changes. CPYQ answers how many copies on its barrier are outstanding and their bytes,
CPYCAN cancels them and answers how many they were. -/
def Sys2Proof.Oblig.copyIssues : Prop :=
  ∀ (s s1 : State) (t : Strand) (f : X96) (bs : List Byte), Issues s t → activeScalar t f = true →
    let ptr := gx t f.vs1.toNat
    let bar := gx t f.vs2.toNat
    let cl := t.core / 8
    let h := shapeOf (leNat bs)
    let copies (i : Instr) (kind : Nat) : Prop := formOk i = true →
      (16 ≤ (copiesOf s t).length → exec i s = .next s) ∧
      ((copiesOf s t).length < 16 → ptr.toNat % 64 = 0 → loadAs s t ptr 64 = .ok (bs, s1) →
        (kind = 1 → tyFloat h.dty = true → orderedOnly s t = false) → recordOk s t kind h = true →
        copyChecks t kind h bar (parcelTrap cEngine s i) = none → postsAll s t kind h = false →
        (copyTotal h = 0 → Skips s1 (exec i s) 12) ∧
        (copyTotal h ≠ 0 → ∃ u c, exec i s = .next u ∧ PlainStep s u 12 ∧ SameBytes s1 u ∧
          (clusterOf u cl).copies = (clusterOf s1 cl).copies ++ [c] ∧ c.key = t.key ∧ c.record = bs ∧ c.barrier = bar ∧
          c.total = dstRow h * h.n1 * h.n2 * h.n3 ∧ c.done = 0 ∧ c.order = t.issued))
    let mine := (copiesOf s t).filter (fun c => c.barrier = bar)
    let left := (mine.map (fun c => c.total - c.done)).sum
    copies (.cpy f) 0 ∧ copies (.cpyred f) (if f.ord then 2 else 1) ∧ copies (.cpywb f) 3 ∧
    (formOk (.cpyq f) = true →
      GprWrites s (exec (.cpyq f) s) t 12 f.vd.toNat (BitVec.ofNat 64 (mine.length + min left (2 ^ 32 - 1) * 2 ^ 32))) ∧
    (formOk (.cpycan f) = true → ∃ u, exec (.cpycan f) s = .next u ∧
      RegStep s u (f.vd.truncate 5) (BitVec.ofNat 64 mine.length) 12 ∧ ∀ c ∈ copiesOf u t, c.barrier ≠ bar)

/-- The engine's work on a plain copy whose bytes translate (R287). The row that stands next is read as a whole, once, and a row's bytes
are written in aligned pieces of 32 bytes, whatever its home (both the model's choice, log entry 64); up to the bytes asked for of it are
written as the record converts them, never such a piece in part; the barrier is credited with them; no other byte differs, and the
command's progress is counted until it leaves. -/
def Sys2Proof.Oblig.copyWorks : Prop :=
  (∀ (s s1 s2 : State) (cl id bytes : Nat) (c : CopyCmd) (t : Strand) (bs : List Byte) (bad : List Bool) (dl : List Loc),
    clusterOk cl = true → (clusterOf s cl).copies.find? (fun x => x.id = id) = some c → c.kind = 0 →
    findStrand s c.key = some t →
    let h := shapeOf (leNat c.record)
    let rd := dstRow h
    let r := c.done / rd
    let pos := c.done % rd
    let at_ := (rowDst h r).toNat + pos
    let n := if bytes = 0 then rd - pos else wholePieces at_ (rd - pos) bytes
    let a := scratchAddr t.core t.granules (c.barrier.toNat % 2 ^ 60)
    let bar : List Loc := if c.barrier = 0 then [] else (List.range 16).map (fun i => (Space.spad, a + i))
    rowBytes s cl c t h r = .ok ((bs, bad), s1) → (∀ b ∈ bad, b = false) → locateEng s1 t (rowDst h r) rd .ewrite = .ok (dl, s2) →
    (dl ++ bar).Nodup → (c.barrier ≠ 0 → barrierCheck t c.barrier = none ∧ poisoned s2 .spad a 16 = false ∧ bBroken (peekNat s2 .spad a 16) = false) →
    let out := copyBytes s2 c.key h r bs
    (n = rd - pos ∨ n < rd - pos ∧ (at_ + n) % 32 = 0) ∧
    ∃ u, exec (.copyRowWrite cl id bytes) s = .next u ∧
      (∀ j l b, pos ≤ j → j < pos + n → dl[j]? = some l → out[j]? = some b → peek u l.1 l.2 = b) ∧
      (∀ j l, ¬ (pos ≤ j ∧ j < pos + n) → dl[j]? = some l → peek u l.1 l.2 = peek s2 l.1 l.2) ∧
      (c.barrier ≠ 0 → peekNat u .spad a 16 = creditNat (peekNat s2 .spad a 16) n 0) ∧
      (∀ sp a, (sp, a) ∉ dl ++ bar → peek u sp a = peek s2 sp a) ∧
      (c.total ≤ c.done + n → ∀ x ∈ (clusterOf u cl).copies, x.id ≠ id) ∧
      (c.done + n < c.total → ∃ c', (clusterOf u cl).copies.find? (fun x => x.id = id) = some c' ∧
        c' = { c with done := c.done + n, since := c'.since, row := c'.row })) ∧
  (∀ (s s1 : State) (cl : Nat) (c : CopyCmd) (t : Strand) (h : Shape) (r : Nat) (sl : List Loc),
    (∀ row, c.row = some row → rowBytes s cl c t h r = .ok (row, s)) ∧
    (c.row = none → locateEng s t (rowSrc h r) (srcRow h) .eread = .ok (sl, s1) →
      ∃ u, rowBytes s cl c t h r = .ok ((sl.map (fun l => peek s1 l.1 l.2), sl.map (fun l => poisoned s1 l.1 l.2 1)), u) ∧ SameBytes s1 u))

/-- The engine's work on a reduce-copy whose additions are neither posted nor recorded (R289): the elements of the part of the row that
is worked on take their sums at their homes, wherever an element's bytes lie, and no other byte differs, but for the barrier, which is
credited with their bytes; an integer sum without SAT is the sum modulo 2^w. What a part of a row is, is the model's choice (log entry
64). -/
def Sys2Proof.Oblig.reduceWorks : Prop :=
  ∀ (s s1 s2 : State) (cl id bytes : Nat) (c : CopyCmd) (t : Strand) (bs : List Byte) (bad : List Bool) (dl : List Loc),
    clusterOk cl = true → (clusterOf s cl).copies.find? (fun x => x.id = id) = some c → (c.kind = 1 ∨ c.kind = 2) → c.posts = false →
    findStrand s c.key = some t → reduceBlocked s cl c = false → (runOf s c.key.run).replay = none →
    let h := shapeOf (leNat c.record)
    let w := tyWidth h.dty / 8
    let r := c.done / (h.n0 * w)
    let pos := c.done % (h.n0 * w)
    let n := if bytes = 0 then h.n0 * w - pos else wholePieces ((rowDst h r).toNat + pos) (h.n0 * w - pos) bytes
    let k := (n + w - 1) / w
    let worked (i : Nat) : Prop := pos / w ≤ i ∧ i < pos / w + k
    let a := scratchAddr t.core t.granules (c.barrier.toNat % 2 ^ 60)
    let bar : List Loc := if c.barrier = 0 then [] else (List.range 16).map (fun i => (Space.spad, a + i))
    let home (i : Nat) : List Loc := (dl.drop (w * i)).take w
    let at_ (u : State) (i : Nat) : Nat := leNat ((home i).map (fun l => peek u l.1 l.2))
    let v (i : Nat) : Exact := copyValue h (leNat bs) i
    h.mxd = 0 → h.dty ∈ [2, 3, 6, 7, 10, 11] → pos % w = 0 →
    rowBytes s cl c t h r = .ok ((bs, bad), s1) → (∀ b ∈ bad, b = false) → locateEng s1 t (rowDst h r) (h.n0 * w) .ewrite = .ok (dl, s2) →
    recording s2 t = false → (∀ l ∈ dl, l.1 ≠ .host ∧ poisoned s2 l.1 l.2 1 = false) → (dl ++ bar).Nodup →
    (c.barrier ≠ 0 → barrierCheck t c.barrier = none ∧ poisoned s2 .spad a 16 = false ∧ bBroken (peekNat s2 .spad a 16) = false) →
    ∃ u, exec (.copyRowWrite cl id bytes) s = .next u ∧
      (∀ i < h.n0, worked i →
        at_ u i = addCode h.dty h.mode h.sat (at_ s2 i) (reduceValue h (v i)) % 2 ^ (8 * w) ∧
        (h.dty < 8 → h.sat = false → at_ u i = (at_ s2 i + (convertTo (tyNum h.dty) h.mode 0 false false (v i)).1) % 2 ^ (8 * w))) ∧
      (c.barrier ≠ 0 → peekNat u .spad a 16 = creditNat (peekNat s2 .spad a 16) (k * w) 0) ∧
      ∀ sp x, (∀ i < h.n0, worked i → (sp, x) ∉ home i) → (sp, x) ∉ bar → peek u sp x = peek s2 sp x

/-- Copies are issued, queried, cancelled, and done. -/
def Obligations.CopyResults : Prop := copyIssues ∧ copyWorks ∧ reduceWorks

/-! ### The transform coprocessor (R227 to R236) -/

/-- XREQ answers its pointer with ACCEPTED, BUSY or BADREQ, and an accepted request is queued, STATE 1 in its block's bytes. XPOLL
reads STATE: the queue's while the request is outstanding, else that of the block's bytes (the model's choice, log entry 37). XWAIT waits while the request is queued
or running, answers a final state after an acquire, and traps with the
cause that the transform met. -/
def Sys2Proof.Oblig.transformIssues : Prop :=
  ∀ (s s1 : State) (t : Strand) (f : X96) (bs : List Byte), Issues s t → activeScalar t f = true →
    let ptr := gx t f.rs.toNat
    let low := ptr &&& ~~~0x3F#64
    let cl := t.core / 8
    let b := xBlockOf (leNat bs)
    let rd : BitVec 5 := f.vd.truncate 5
    let word (p : Word) : List Loc := scratchLocs t.core t.granules (p.toNat % 2 ^ 60 + 4) 4
    let block (p : Word) : Word := BitVec.ofNat 64 (2 ^ 60 + p.toNat % 2 ^ 60)
    let state (s : State) : Nat := match (clusterOf s cl).xq.find? (fun q => q.key = t.key ∧ q.ptr = block low) with
      | some q => q.state
      | none => leNat ((word low).map (fun l => peek s l.1 l.2))
    (formOk (.xreq f) = true → ptr.toNat % 64 = 0 → dKind (segOf t ptr) = 1 → loadAs s t ptr 64 = .ok (bs, s1) →
      (xAccepts s t ptr b = false → RegOnly s (exec (.xreq f) s) f.vd (ptr ||| 2)) ∧
      (xAccepts s t ptr b = true → xBusy s t = true → RegOnly s (exec (.xreq f) s) f.vd (ptr ||| 1)) ∧
      (xAccepts s t ptr b = true → xBusy s t = false → ∃ u q, exec (.xreq f) s = .next u ∧ RegStep s u rd ptr 12 ∧
        (clusterOf u cl).xq = (clusterOf s cl).xq ++ [q] ∧ q.key = t.key ∧ q.ptr = block ptr ∧ q.block = bs ∧ q.state = 1 ∧
        (word ptr).map (fun l => peek u l.1 l.2) = leBytes 4 1 ∧ ∀ sp a, (sp, a) ∉ word ptr → peek u sp a = peek s sp a)) ∧
    (formOk (.xpoll f) = true → dKind (segOf t low) = 1 → loadAs s t low 64 = .ok (bs, s1) →
      RegOnly s (exec (.xpoll f) s) f.vd (BitVec.ofNat 64 (state s))) ∧
    (formOk (.xwait f) = true → dKind (segOf t low) = 1 → loadAs s t low 64 = .ok (bs, s1) →
      (state s = 1 ∨ state s = 2 → ∃ u, exec (.xwait f) s = .next u ∧ Blocks u t ∧ SameBytes s u) ∧
      (state s = 0 → RegOnly s (exec (.xwait f) s) f.vd 0) ∧
      (state s ∉ [0, 1, 2, 5] → ∃ u, exec (.xwait f) s = .next u ∧ RegStep s u rd (BitVec.ofNat 64 (state s)) 12 ∧ SameBytes s u ∧
        ∀ e ∈ (coreOf u t.core).l1, e.2.own = true) ∧
      (∀ e, state s = 5 → t.xerrors.find? (fun x => x.1 = block low) = some e →
        Traps s1 (exec (.xwait f) s) t e.2.1.toNat e.2.2 false))

/-- The unit's events: the first request starts, STATE 2 in its block's bytes; the running one leaves the queue and, where no claim waits
in the cluster (one that is granted then may zero granules: R214, R220, R221), its block's bytes hold STATE DONE, DATAFAULT or ERROR. -/
def Sys2Proof.Oblig.transformEvents : Prop :=
  ∀ (s : State) (cl : Nat) (q : XformReq) (rest : List XformReq) (t : Strand), clusterOk cl = true → (clusterOf s cl).xq = q :: rest →
    findStrand s q.key = some t → q.ptr.toNat % 64 = 0 → q.ptr.toNat % 2 ^ 60 / 12288 < t.granules.length →
    let word := scratchLocs t.core t.granules (q.ptr.toNat % 2 ^ 60 + 4) 4
    let state (u : State) (v : Nat) : Prop := word.map (fun l => peek u l.1 l.2) = leBytes 4 v
    (q.state = 1 → ∃ u, exec (.xformStart cl) s = .next u ∧ (clusterOf u cl).xq = { q with state := 2 } :: rest ∧ state u 2 ∧
      ∀ sp a, (sp, a) ∉ word → peek u sp a = peek s sp a) ∧
    (q.state = 2 → (xBlockOf (leNat q.block)).bar = 0 → ∃ u, exec (.xformComplete cl) s = .next u ∧
      (∀ x ∈ (clusterOf u cl).xq, ¬ (x.key = q.key ∧ x.ptr = q.ptr)) ∧
      ((clusterOf s cl).claimq = [] → state u 3 ∨ state u 4 ∨ state u 5))

/-- A REPACK of 1 to 128 blocks into the split layout (R25, R26, R230, R232): of every block, the element bytes stand together and
the scale bytes follow all of them; the request ends in DONE with exactly D bytes credited to its barrier; no other byte
differs. Stated where no claim waits in the cluster: an entry that no claim covered is free then, and a claim that is granted may zero
granules (R214, R220, R221). -/
def Sys2Proof.Oblig.repacks : Prop :=
  ∀ (s : State) (cl : Nat) (q : XformReq) (rest : List XformReq) (t : Strand) (so d0 d1 : Nat), clusterOk cl = true →
    (clusterOf s cl).xq = q :: rest → (clusterOf s cl).claimq = [] → q.state = 2 → q.piece = 0 → q.credited = 0 → findStrand s q.key = some t →
    q.ptr.toNat % 64 = 0 → q.ptr.toNat % 2 ^ 60 / 12288 < t.granules.length →
    let b := xBlockOf (leNat q.block)
    let n := xN b
    let e := 4 * mxBits b.fmt
    b.op = 4 → b.flags = 0 → 1 ≤ n → n ≤ 128 →
    segCheck t b.src (n * (e + 1)) .eread true false = .ok (.scratch so) →
    segCheck t b.dst (n * e) .ewrite true false = .ok (.scratch d0) →
    segCheck t (b.dst + BitVec.ofNat 64 (n * e)) n .ewrite true false = .ok (.scratch d1) →
    let src := scratchLocs t.core t.granules so (n * (e + 1))
    let into := scratchLocs t.core t.granules d0 (n * e) ++ scratchLocs t.core t.granules d1 n
    let word := scratchLocs t.core t.granules (q.ptr.toNat % 2 ^ 60 + 4) 4
    let a := scratchAddr t.core t.granules (b.bar.toNat % 2 ^ 60)
    let bar : List Loc := if b.bar = 0 then [] else (List.range 16).map (fun i => (Space.spad, a + i))
    (∀ l ∈ src, poisoned s l.1 l.2 1 = false) → (into ++ word ++ bar).Nodup →
    (b.bar ≠ 0 → barrierCheck t b.bar = none ∧ poisoned s .spad a 16 = false ∧ bBroken (peekNat s .spad a 16) = false) →
    ∃ u, exec (.xformComplete cl) s = .next u ∧ (clusterOf u cl).xq = rest.filter (fun x => ¬ (x.key = q.key ∧ x.ptr = q.ptr)) ∧
      (∀ j i from' dest, j < n → i < e → src[j * (e + 1) + i]? = some from' → into[j * e + i]? = some dest →
        peek u dest.1 dest.2 = peek s from'.1 from'.2) ∧
      (∀ j from' dest, j < n → src[j * (e + 1) + e]? = some from' → into[n * e + j]? = some dest →
        peek u dest.1 dest.2 = peek s from'.1 from'.2) ∧
      word.map (fun l => peek u l.1 l.2) = leBytes 4 3 ∧
      (b.bar ≠ 0 → peekNat u .spad a 16 = creditNat (peekNat s .spad a 16) (n * (e + 1)) 0) ∧
      ∀ sp x, (sp, x) ∉ into ++ word ++ bar → peek u sp x = peek s sp x

/-- Requests are accepted, polled and waited for, and the unit runs them. -/
def Obligations.TransformResults : Prop := transformIssues ∧ transformEvents ∧ repacks

/-! ### Supersteps (R342 to R350) and collectives (R400 to R412) -/

/-- PUTX and PUTXADD whose checks pass post one delivery with the strand's next sequence number and write nothing; STEP waits for
the strand's copies and matrix commands, then releases (the stores of its own: the model's choice, log entry 9) and arrives. With
delivery faults pending, STEP traps with the first of them and leaves the others to its next execution: the model's choice (log entry 120,
DEDUCED). -/
def Sys2Proof.Oblig.superstepIssues : Prop :=
  ∀ (s : State) (t : Strand) (f : X96) (mode src g toff : Nat), Issues s t → (runOf s t.key.run).steps = true →
    t.key.run < s.runs.length →
    let n := (gx t f.vs3.toNat).toNat
    let e := tyWidth f.ty.toNat / 8
    let p := gx t f.vs1.toNat
    let d := gx t f.vs2.toNat
    let posts (i : Instr) (add : Bool) : Prop := formOk i = true → activeScalar t f = true → resolveMode t f.rm.toNat = some mode →
      mode ≠ 5 → (putSensitive add f && orderedOnly s t) = false → 0 < n → n ≤ 196608 →
      (add = true → n % e = 0 ∧ p.toNat % e = 0 ∧ d.toNat % e = 0) → putSource t p n = .ok src → putTarget t d n = some (g, toff) →
      inLaunch s t g = true → t.putSeq < 4096 → ∃ u t', exec i s = .next u ∧ PlainStep s u 12 ∧ SameBytes s u ∧
        findStrand u t.key = some t' ∧ t'.putSeq = t.putSeq + 1 ∧ (runOf u t.key.run).postings = (runOf s t.key.run).postings ++
          [{ gls := t.key.gls, seq := t.putSeq, src := src, target := g, toff := toff, len := n, add := add, ordered := f.ord,
             ty := f.ty.toNat, mode := mode, sat := f.sat, dst := d }]
    posts (.putx f) false ∧ posts (.putxadd f) true ∧
    (∀ x rest, t.deliveries = x :: rest → ∃ u t', exec .step s = .next u ∧ findStrand u t.key = some t' ∧ t'.life = .frozen ∧
      t'.deliveries = rest ∧ ∃ q, t'.packet = some q ∧ q.cause = 0x07 ∧ q.tval = x) ∧
    (t.deliveries = [] → ∃ u, exec .step s = .next u ∧ Blocks u t ∧
      (classesDone s t 13 = true → (∀ p ∈ (coreOf u t.core).stores, p.key ≠ t.key) ∧ ∃ t', findStrand u t.key = some t' ∧ t'.arrived = true) ∧
      (classesDone s t 13 = false → SameBytes s u ∧ ∃ t', findStrand u t.key = some t' ∧ t'.arrived = t.arrived))

/-- The crossing of a launch whose strands have all arrived (R346), with any number of keyed postings: every source is read before a
delivery is written; of PUTX deliveries to one byte, the one with the highest key stays; PUTXADD deliveries of one wrapping integer type
add up in each element; no other byte differs, the postings are gone, and every arrived strand runs on behind its STEP. -/
def Sys2Proof.Oblig.crossings : Prop :=
  ∀ (s : State) (run : Nat), run < s.runs.length → (runOf s run).steps = true → allArrived s run = true →
    (runStrands s run).any (·.arrived) = true → (runOf s run).adds = [] → (∀ h ∈ s.postHolds, h.run ≠ run) →
    let ps := (runOf s run).postings
    let target (p : Posting) : Strand := strandOf s ⟨run, p.target⟩
    let source (p : Posting) : List Loc := postingLocs s run p
    let into (p : Posting) : List Loc := scratchLocs (target p).core (target p).granules p.toff p.len
    let below (p q : Posting) : Prop := p.gls < q.gls ∨ p.gls = q.gls ∧ p.seq < q.seq
    (ps.map (fun p => (p.gls, p.seq))).Nodup →
    (∀ p ∈ ps, p.ordered = true ∧ deliverable s run p = true ∧ (source p).length = (into p).length ∧ (into p).Nodup ∧
      ∀ l ∈ source p, poisoned s l.1 l.2 1 = false) →
    ((∀ p ∈ ps, p.add = false) ∨ ∃ ty < 8, ∀ p ∈ ps, p.add = true ∧ p.ty = ty ∧ p.sat = false ∧ p.len % (tyWidth ty / 8) = 0 ∧
      p.toff % (tyWidth ty / 8) = 0 ∧ ∀ l ∈ into p, poisoned s l.1 l.2 1 = false) →
    ∃ u, exec (.crossing run) s = .next u ∧ (runOf u run).postings = [] ∧
      (∀ p ∈ ps, p.add = false → ∀ (j : Nat) (a b : Loc), (source p)[j]? = some a → (into p)[j]? = some b →
        (∀ q ∈ ps, below p q → b ∉ into q) → peek u b.1 b.2 = peek s a.1 a.2) ∧
      (∀ p ∈ ps, p.add = true →
        let w := tyWidth p.ty / 8
        let value (q : Posting) (i : Nat) : Nat := leNat ((((source q).drop (w * i)).take w).map (fun l => peek s l.1 l.2))
        ∀ (i : Nat) (l : Loc), i < p.len / w → (into p)[w * i]? = some l →
          peekNat u l.1 l.2 w = (peekNat s l.1 l.2 w + (ps.map (fun q =>
            (((List.range (q.len / w)).filter (fun e => (into q)[w * e]? = some l)).map (value q)).sum)).sum) % 2 ^ (8 * w)) ∧
      (∀ sp a, (∀ p ∈ ps, (sp, a) ∉ into p) → peek u sp a = peek s sp a) ∧
      (∀ t ∈ s.strands, t.key.run = run → findStrand s t.key = some t → t.arrived = true → t.life = .blocked → t.rep = none →
        t.wait = some (4, .stepLanding) → ∃ t', findStrand u t.key = some t' ∧ t'.life = .running ∧ t'.arrived = false ∧
          t'.pc = seqPc t 4 ∧ t'.putSeq = 0 ∧ t'.ordSeq = 0)

/-- Supersteps: postings, arrival, and the crossing. Which stores the release of an arrival takes with it (log entry 9), and that one execution
of STEP takes the first pending delivery fault alone (log entry 120), are the model's choice. -/
def Obligations.SuperstepResults : Prop := superstepIssues ∧ crossings

/-- COLL whose checks pass adds one instance to those outstanding. -/
def Sys2Proof.Oblig.collIssues : Prop :=
  ∀ (s s1 : State) (t : Strand) (f : X96) (bs : List Byte) (j : Job) (mask : BitVec 256), Issues s t → activeScalar t f = true →
    formOk (.coll f) = true →
    let ptr := gx t f.vs1.toNat
    let bar := gx t f.vs2.toNat
    let r := collRecOf (leNat bs)
    let op := f.aux.toNat % 4
    let kind := f.aux.toNat / 4 % 4
    let z := collSize kind
    let pos := membersBelow mask j.rank
    (collsOf s t).length < 8 → s.colls.length < 1024 → ptr.toNat % 64 = 0 → dKind (segOf t ptr) = 1 →
    loadAs s t ptr 64 = .ok (bs, s1) → (bar = 0 ∨ barrierCheck t bar = none) → jobOf s1 t = some j → j.groups[r.group]? = some mask →
    collRecOk op kind mask j.rank r = true →
    (usesSrc op pos r.root = true → collPointer t r.src z (r.count * z) .load = none) →
    (usesDst op pos r.root = true → collPointer t r.dst z (r.count * z) .store = none) →
    collOverlap t op r bar (usesSrc op pos r.root) (usesDst op pos r.root) (r.count * z) = false →
    collOut s1 t.ctx j.id r.group r.seq = false →
    ∃ u c, exec (.coll f) s = .next u ∧ PlainStep s u 12 ∧ SameBytes s u ∧ u.colls = s.colls ++ [c] ∧ c.key = t.key ∧ c.op = op ∧
      c.kind = kind ∧ c.count = r.count ∧ c.src = r.src ∧ c.dst = r.dst ∧ c.recPtr = ptr ∧ c.barrier = bar ∧ c.group = r.group ∧
      c.seq = r.seq ∧ c.own = none ∧ c.result = none

/-- How an instance ends: completed, with DONE and its flags in the record's RESULT, once a root's data has reached every receiver;
failed, with 12, when another participant told so, when one disagrees, or when one has not issued within the timeout of the first: it has
not by then, or its issue's GTC is later. One that is complete does not fail any more. What arrives from other packages is a free value
(log entry 17). -/
def Sys2Proof.Oblig.collEnds : Prop :=
  ∀ (s : State) (id : Nat) (c : Coll) (t : Strand), s.colls.find? (fun x => x.id = id) = some c → findStrand s c.key = some t →
    let g := collGroup s c
    let rooted : Prop := c.op < 2
    let o := offOf c.recPtr + 28
    let word := scratchLocs t.core t.granules o 4
    let ends (i : Instr) (v : Nat) : Prop := c.barrier = 0 → o / 12288 < t.granules.length → word.length = 4 → word.Nodup →
      ∃ u, exec i s = .next u ∧ leNat (word.map (fun l => peek u l.1 l.2)) = v ∧ (∀ x ∈ u.colls, x.id ≠ id) ∧
        ∀ sp a, sp ≠ .host → (sp, a) ∉ word → peek u sp a = peek s sp a
    let undelivered : Prop := rooted ∧ membersBelow g.1 g.2 = c.root ∧ ∃ r ∈ otherRanks s c, Config.CollNews.delivered r ∉ collNews s c
    (∀ out fl, c.result = some (out, fl) → fl < 4 → (¬ undelivered → ends (.collComplete id) (fl + 8)) ∧
      (undelivered → exec (.collComplete id) s = .next s)) ∧
    (∀ out, c.result = some out → ¬ undelivered → ∀ cause, exec (.collFail id cause) s = .next s) ∧
    ((c.result = none ∨ undelivered) →
      (∀ cause, Config.CollNews.failed cause ∈ collNews s c → ends (.collFail id cause) 12) ∧
      ((∃ n ∈ collNews s c, noticeAgrees c n = false) → ends (.collFail id .disagree) 12) ∧
      ∀ j, s.jobs.find? (fun j => j.ctx = c.ctx && j.id = c.job) = some j → j.ctimeout ≠ 0 →
        (c.since + 1000 * j.ctimeout ≤ s.gtc →
          (∃ r ∈ otherRanks s c, ∀ n ∈ collNews s c, ∀ q a b d e h i, n = .issued q a b d e h i → q ≠ r) → (rooted ∨ collWhole s c = false) →
          ends (.collFail id .timeout) 12) ∧
        (∀ q a b d e h i, Config.CollNews.issued q a b d e h i ∈ collNews s c →
          c.since + 1000 * j.ctimeout ≤ a ∨ a + 1000 * j.ctimeout ≤ c.since → ends (.collFail id .timeout) 12))

/-- What an instance does before it ends: while another participant has not issued and no whole result is there, or one has issued too late,
nothing; a receiver of
a broadcast writes the root's bytes, as they arrived; when the group is this package alone, a sum of integers copies its source into
its destination, no lane carrying. -/
def Sys2Proof.Oblig.collComputes : Prop :=
  ∀ (s : State) (id : Nat) (c : Coll) (t : Strand), s.colls.find? (fun x => x.id = id) = some c → findStrand s c.key = some t →
    c.result = none →
    let g := collGroup s c
    let n := c.count * collSize c.kind
    (∀ own, c.own = some own → otherRanks s c ≠ [] → allIssued s c = false ∨ collLate s c = true → exec (.collInstance id) s = .next s) ∧
    (∀ own dl s2, c.own = some own → c.op < 2 → membersBelow g.1 g.2 ≠ c.root →
      (∃ r < 256, g.1.getLsbD r = true ∧ membersBelow g.1 r = c.root) → collBroken s c = false → collLate s c = false → collTold s c = true → collWhole s c = true →
      (∀ p ∈ collPieces s c, ∀ b ∈ p.2.1, b.2 = false) →
      locateEng s t c.dst n .ewrite = .ok (dl, s2) → (∀ l ∈ dl, poisoned s2 l.1 l.2 1 = false) → dl.Nodup → dl.length = n →
      ∃ u, exec (.collInstance id) s = .next u ∧
        (∀ i l p, dl[i]? = some l → (collPieces s c).find? (fun p => p.1 = i / 64 * 64) = some p →
          peek u l.1 l.2 = (p.2.1.getD (i % 64) (0, false)).1) ∧
        (∀ sp a, (sp, a) ∉ dl → peek u sp a = peek s2 sp a) ∧ ∃ x ∈ u.colls, x.id = id ∧ x.result.map (·.2) = some 0) ∧
    (∀ sl dl s1 s2, c.own = none → c.op = 3 → c.kind < 2 → g.2 < 256 → groupSize g.1 = 1 → (∀ r, g.1.getLsbD r = true ↔ r = g.2) →
      collBroken s c = false → collLate s c = false →
      locateEng s t c.src n .eread = .ok (sl, s1) → (∀ l ∈ sl, poisoned s1 l.1 l.2 1 = false) →
      let own := sl.map (fun l => peek s1 l.1 l.2)
      locateEng (collSend (wakeLocs s1 sl) c own) t c.dst n .ewrite = .ok (dl, s2) →
      (∀ l ∈ dl, poisoned s2 l.1 l.2 1 = false) → dl.Nodup → sl.length = n → dl.length = n →
      ∃ u, exec (.collInstance id) s = .next u ∧ dl.map (fun l => peek u l.1 l.2) = own ∧
        (∀ sp a, (sp, a) ∉ dl → peek u sp a = peek s2 sp a) ∧ ∃ x ∈ u.colls, x.id = id ∧ x.result = some (own, 0))

/-- COLL: its issue, what an instance computes, and how it ends. -/
def Obligations.CollectiveResults : Prop := collIssues ∧ collEnds ∧ collComputes

end

namespace Sys2Proof.Oblig

open Machine

/-- Strand k of u is FROZEN with a packet of a cause and a tval. -/
def FrozenWith (u : State) (k : StrandKey) (cause : Nat) (tval : Word) : Prop :=
  ∃ t' p, findStrand u k = some t' ∧ t'.life = .frozen ∧ t'.packet = some p ∧ p.cause = BitVec.ofNat 8 cause ∧ p.tval = tval

end Sys2Proof.Oblig

section

open Sys2Proof Sys2Proof.Machine Sys2Proof.Oblig

/-! ### What happens to strands of itself (R113 to R123, R192, R222, R256, R299, R351, R388) -/

/-- Events of a core: its oldest pending store registers at its home (R317; that it is the oldest is the model's choice, log entry 118), its
oldest packet goes to its buddy's queue (or to the die
manager when it is its own buddy: R192), and its sleeping handler wakes for the next packet (R191, R196). -/
def Sys2Proof.Oblig.coreEvents : Prop :=
  ∀ (s : State) (core : Nat), coreOk core = true →
    (∀ p rest, (coreOf s core).stores = p :: rest → ∃ u, exec (.storeRegister core) s = .next u ∧ (coreOf u core).stores = rest ∧
      peekN u .dev p.pa p.data.length = p.data ∧ OtherBytes s u .dev p.pa p.data.length) ∧
    (∀ p rest, (coreOf s core).outq = p :: rest →
      let b := core / 768 * 768 + pairtabOf s core
      (b ≠ core → pairtabOf s core < 768 → (coreOf s b).faultq.length < 16 → ∃ u, exec (.faultPacketDeliver core) s = .next u ∧
        (coreOf u core).outq = rest ∧ (coreOf u b).faultq = (coreOf s b).faultq ++ [p] ∧ SameBytes s u) ∧
      (b = core → ∃ u, exec (.faultPacketDeliver core) s = .next u ∧ (coreOf u core).outq = rest ∧
        p ∈ (dieOf u (core / 768)).escalated)) ∧
    (∀ p rest, (coreOf s core).faultq = p :: rest → (coreOf s core).hawake = false → (coreOf s core).hfrozen = false →
      ∃ u, exec (.handlerWake core) s = .next u ∧ (coreOf u core).hawake = true ∧ (coreOf u core).hpc = 0 ∧
        (coreOf u core).loaded = some p ∧ (coreOf u core).valid = true ∧ (coreOf u core).faultq = rest ∧ SameBytes s u)

/-- Events of a strand: a cancel that has reached it ends it at its boundary (R113, R140), but not while it is SAVED (the model's choice,
log entry 57); a BWAIT whose phase has passed (R298), and an MPEEK (R256), complete (what an MPEEK of a damaged slot shows are free values,
log entry 41); a reservation expires after 65,536 cycles (R123); a
replay that diverges, or whose next party has stayed away, freezes it with REPLAY and stops its launch (R388; how the 2^26 cycles are
counted and which waiting strand freezes: the model's choice, log entry 98); a deadlock found freezes its lowest strand with DEADLOCK
(R351, R352); a long claim wait is recorded (R222). -/
def Sys2Proof.Oblig.strandEvents : Prop :=
  ∀ (s : State) (k : StrandKey) (t : Strand), findStrand s k = some t →
    (t.cancelPending = false → exec (.strandCancel k) s = .next s) ∧
    (t.cancelPending = true → t.life = .saved → exec (.strandCancel k) s = .next s) ∧
    (t.cancelPending = true → (t.life = .blocked ∨ t.life = .frozen ∨ t.life = .running ∧ atBoundary t = true) →
      ∃ u t', exec (.strandCancel k) s = .next u ∧ findStrand u k = some t' ∧ t'.life = .ended) ∧
    (t.life ≠ .blocked → exec (.strandUnblock k) s = .next s) ∧
    (∀ rd ptr p, t.life = .blocked → t.saving = none → t.wait = some (4, .bwait rd ptr p) → t.rep = none → t.faults = [] →
      let b := peekNat s .spad (barrierAt t ptr) 16
      poisoned s .spad (barrierAt t ptr) 16 = false → passed b p = true → ∃ u t', exec (.strandUnblock k) s = .next u ∧ findStrand u k = some t' ∧ t'.life = .running ∧
        t'.pc = seqPc t 4 ∧ (∀ r < 32, gx t' r = if r = rd.toNat ∧ r ≠ 0 then BitVec.ofNat 64 (bStatus b + bPhase b * 2 ^ 16) else gx t r) ∧
        SameBytes s u) ∧
    (∀ m rd op p, t.life = .blocked → t.saving = none → t.wait = some (12, .peek m rd op) → crewSlot s t m = some p → zeroDone s t.core p = true →
      t.faults = [] → t.rep = none →
      let sl := peekedSlot s (slotOf s (t.core / 8) p)
      ∃ u t', exec (.mpeekSnapshot k) s = .next u ∧ findStrand u k = some t' ∧ t'.life = .running ∧ t'.pc = seqPc t 12 ∧
        gx t' rd.toNat = (if rd = 0 then 0 else BitVec.ofNat 64 sl.steps) ∧
        SameBytes (drainWrite s (runOf s k.run).seed sl t.core t.granules op).1 u) ∧
    (∀ r, t.resv = some r → ∃ u t', exec (.reservationExpiry k) s = .next u ∧ findStrand u k = some t' ∧ SameBytes s u ∧
      t' = { t with resv := if r.cycle + 65536 ≤ now s t.core then none else some r }) ∧
    (∀ i, (runOf s k.run).replay = none ∨ t.diverged ≠ some i ∧ stayedAway s t i = false → exec (.replayDiverge k i) s = .next s) ∧
    (∀ i, (t.life = .running ∨ t.life = .blocked) → (runOf s k.run).replay ≠ none → t.diverged = some i ∨ stayedAway s t i = true →
      k.run < s.runs.length → (runOf s k.run).stage ≠ .done → ∃ u, exec (.replayDiverge k i) s = .next u ∧ FrozenWith u k 0x0B (BitVec.ofNat 64 i) ∧
        (runOf u k.run).cancelled = true) ∧
    (waitsOnMessages s t = true → t.waitSince + 4096 ≤ now s t.core →
      let z := reach s k.run ((runOf s k.run).ncrew * (runOf s k.run).nstrand) [k.gls]
      (deadlocked s k.run z = false → ∃ u t', exec (.deadlockProbe k) s = .next u ∧ findStrand u k = some t' ∧
        t' = { t with waitSince := now s t.core } ∧ SameBytes s u) ∧
      (deadlocked s k.run z = true → ∀ v, findStrand s ⟨k.run, minOf z⟩ = some v →
        ∃ u, exec (.deadlockProbe k) s = .next u ∧ FrozenWith u v.key 0x08 (deadlockTval s v))) ∧
    (∀ q, (clusterOf s (t.core / 8)).claimq.find? (fun x => x.key = k) = some q → q.recorded = false → q.since + 2 ^ 26 ≤ now s t.core →
      ∃ u, exec (.claimWaitRecord k) s = .next u ∧
        (clusterOf u (t.core / 8)).claimq.find? (fun x => x.key = k) = some { q with recorded := true })

/-- Further events: the stall of a cluster's claims holds while a request has waited 65,536 cycles (R222); a holding ends after 2^20
cycles (R113, R226); the die manager resumes, ends or leaves an escalated strand (R196). -/
def Sys2Proof.Oblig.poolEvents : Prop :=
  ∀ (s : State),
    (∀ cl, clusterOk cl = true → ∃ u, exec (.claimWaitStall cl) s = .next u ∧ SameBytes s u ∧
      (clusterOf u cl).stalled = (waitingReqs s cl).any (fun q => q.since + 65536 ≤ (dieOf s (cl / 96)).cycles)) ∧
    (∀ ctx tag h, s.retained.find? (fun x => x.ctx = ctx && x.tag = tag) = some h →
      (now s h.core < h.since + 2 ^ 20 → exec (.retainExpiry ctx tag) s = .next s) ∧
      (h.since + 2 ^ 20 ≤ now s h.core → ∃ u, exec (.retainExpiry ctx tag) s = .next u ∧ ∀ x ∈ u.retained, x.key ≠ h.key)) ∧
    (∀ q t, q / 2 ^ 12 < 4 → physStrand s (q / 2 ^ 12) (q % 2 ^ 12) = some t → findStrand s t.key = some t → t.life = .frozen →
      t.escalated = true →
      let leads (act : Disposition) (p : Strand → Prop) : Prop := ∃ u t', exec (.dieManagerDisposition q act) s = .next u ∧
        findStrand u t.key = some t' ∧ p t'
      leads .resume (fun t' => t'.life = .running ∧ t'.pc = t.pc ∧ t'.x = t.x) ∧ leads .kill (fun t' => t'.life = .ended) ∧
      leads .toHost (fun t' => t' = t))

/-- What happens to cores, strands and claims of itself. That a handler context starts at address 0 (log entry 19), that DEADLOCK names the
lowest strand waited for (log entry 39), and that STORE_REGISTER takes the core's oldest pending store (log entry 118), are the model's
choice. -/
def Obligations.StrandEvents : Prop := coreEvents ∧ strandEvents ∧ poolEvents

/-! ### Pre-emption (R193, R199 to R204) -/

/-- Whether a request or withdrawal of the die manager at some slots of a core reaches slot i of core c: it is one of those named, or
holds a strand that goes with a strand there (R353). -/
def Sys2Proof.Oblig.asked (s : State) (core : Nat) (mask : BitVec 4) (c i : Nat) : Prop :=
  (c = core ∧ mask.getLsbD i = true) ∨ ∃ j t v, j < 4 ∧ mask.getLsbD j = true ∧ slotStrand s core j = some t ∧ v ∈ requestGroup s t ∧
    v.core = c ∧ v.slot = i

/-- Whether a withdrawal of the die manager reaches slot i of core c: it is one of those named, or holds a strand that goes with one in a
named slot whose request is pending and whose own save has not begun (R193; the strands that go with it are log entry 107). -/
def Sys2Proof.Oblig.freed (s : State) (core : Nat) (mask : BitVec 4) (c i : Nat) : Prop :=
  (c = core ∧ mask.getLsbD i = true) ∨ ∃ j t v, j < 4 ∧ mask.getLsbD j = true ∧ (coreOf s core).req.getLsbD j = true ∧
    (coreOf s core).savingBits.getLsbD j = false ∧ slotStrand s core j = some t ∧ v ∈ requestGroup s t ∧ v.core = c ∧ v.slot = i

/-- A request sets REQ of the slots that it reaches; a withdrawal clears those that it reaches, unless SAVING stands there. A strand whose
request is 65,536 cycles old starts, at its boundary, the save of everything, unless a cancel waits for it there (R114). -/
def Sys2Proof.Oblig.requestEvents : Prop :=
  (∀ (s : State) (core : Nat) (mask : BitVec 4), coreOk core = true → (∀ t ∈ s.strands, t.slot < 4) →
    (∃ u, exec (.preemptRequest core mask) s = .next u ∧ SameBytes s u ∧ ∀ c i, i < 4 →
      ((coreOf u c).req.getLsbD i = true ↔ (coreOf s c).req.getLsbD i = true ∨ asked s core mask c i)) ∧
    (∃ u, exec (.preemptWithdraw core mask) s = .next u ∧ SameBytes s u ∧ ∀ c i, i < 4 →
      ((coreOf u c).req.getLsbD i = true ↔ (coreOf s c).req.getLsbD i = true ∧
        ¬ (freed s core mask c i ∧ (coreOf s c).savingBits.getLsbD i = false)))) ∧
  (∀ (s : State) (k : StrandKey) (t : Strand) (c : Nat), findStrand s k = some t → t.preSince = some c →
    (now s t.core < c + 65536 ∨ t.cancelPending = true → exec (.forcedSave k) s = .next s) ∧
    (c + 65536 ≤ now s t.core → t.cancelPending = false → requested s t = true → t.saving = none → (t.life = .running ∨ t.life = .blocked) → atBoundary t = true →
      ∃ u t', exec (.forcedSave k) s = .next u ∧ findStrand u k = some t' ∧ t' = { t with saving := some (everything s t) } ∧
        (coreOf u t.core).savingBits = setBit4 (coreOf s t.core).savingBits (t.slot % 4) true ∧ Instr.saveWrite k ∈ u.due ∧ SameBytes s u))

/-- What a save writes: its size and the pc at their places in the head, and the GPRs that are neither x0 nor dead (R201). -/
def Sys2Proof.Oblig.saveImage : Prop :=
  ∀ (s : State) (t : Strand) (p : SavePlan),
    (saveHead s t p).length = 0xF8 ∧ (saveHead s t p).take 8 = leBytes 8 (saveSizeOf p) ∧
    ((saveHead s t p).drop 0x10).take 8 = leBytes 8 t.pc.toNat ∧ ((saveHead s t p).drop 0x20).take 8 = leBytes 8 t.draw.toNat ∧
    (8, saveHead s t p, none) ∈ savePieces s t p ∧
    ∀ n, 0 < n → n < 32 → t.dead.getLsbD n = false → (0x100 + 8 * n, leBytes 8 (gx t n).toNat, none) ∈ savePieces s t p

/-- A save point at which a cancel waits is the cancel's: no save goes on there (R114). A save whose area is too small is refused, and the
requests of the strands that go with it end too; one that has to wait changes nothing; a pending fault traps the strand at its save
point; one that some strand of its group is not ready for waits. Only a strand that is RUNNING or BLOCKED is saved. Which strands go
together is the model's choice (log entry 69). -/
def Sys2Proof.Oblig.saveWaiting : Prop :=
  ∀ (s : State) (k : StrandKey) (t : Strand) (live : BitVec 64 × BitVec 16 × BitVec 8 × Bool), findStrand s k = some t →
    t.saving = some live →
    let p := planNow s t live
    let g := saveGroup s t
    (t.life ≠ .running → t.life ≠ .blocked → exec (.saveWrite k) s = .next s) ∧
    (cancelFirst t = true → exec (.saveWrite k) s = .next s) ∧
    (t.life = .running ∨ t.life = .blocked → cancelFirst t = false →
      (t.saveSize < saveSizeOf p → (∀ v ∈ t :: g, (clusterOf s (v.core / 8)).claimq = []) → ∃ u, exec (.saveWrite k) s = .next u ∧
        findStrand u k = some { t with saving := none, preSince := none } ∧ (coreOf u t.core).req.getLsbD (t.slot % 4) = false ∧
        (coreOf u t.core).refused.getLsbD (t.slot % 4) = true ∧
        ∀ v ∈ g, findStrand s v.key = some v → ∃ v', findStrand u v.key = some v' ∧ v'.saving = none ∧ v'.life = v.life) ∧
      (saveSizeOf p ≤ t.saveSize →
        (saveWaits s t = true → exec (.saveWrite k) s = .next s) ∧
        (∀ f, saveWaits s t = false → earliest t.faults = some f →
          ∃ u, exec (.saveWrite k) s = .next u ∧ FrozenWith u k f.cause.toNat f.tval) ∧
        (saveWaits s t = false → t.faults = [] → g.all (saveReady s) = false → exec (.saveWrite k) s = .next s)))

/-- A save may be written: its strand is RUNNING or BLOCKED, no cancel waits there, nothing is left to wait for, and every strand of its group is
as far. -/
def Sys2Proof.Oblig.SaveGoes (s : State) (k : StrandKey) (t : Strand) (live : BitVec 64 × BitVec 16 × BitVec 8 × Bool) : Prop :=
  findStrand s k = some t ∧ t.saving = some live ∧ (t.life = .running ∨ t.life = .blocked) ∧ cancelFirst t = false ∧
  saveSizeOf (planNow s t live) ≤ t.saveSize ∧ saveWaits s t = false ∧ t.faults = [] ∧ (saveGroup s t).all (saveReady s) = true ∧
  ∀ v ∈ saveGroup s t, findStrand s v.key = some v

/-- The strands of a group are saved together or not at all (R339, R353; which strands these are, and that they go in one step, is the
model's choice, log entry 69): when the area and then CTRL of each have been written, every strand of the group is SAVED and holds
nothing; when one fails, it freezes with MACHINE and the address of the failure (0 where there is none: log entry 47), its ABORTED bit
set, and the others' requests end and none of them is SAVED. -/
def Sys2Proof.Oblig.saveGroups : Prop :=
  ∀ (s : State) (k : StrandKey) (t : Strand) (live : BitVec 64 × BitVec 16 × BitVec 8 × Bool), SaveGoes s k t live →
    let g := saveGroup s t
    let r := writeAreas (savePlans s g) s
    let fails (v : Strand) (a : Nat) : Prop := ∃ u, exec (.saveWrite k) s = .next u ∧ FrozenWith u v.key 0x0C (BitVec.ofNat 64 a) ∧
      (coreOf u v.core).aborted.getLsbD (v.slot % 4) = true ∧
      ∀ w ∈ g, w.key ≠ v.key → ∃ w', findStrand u w.key = some w' ∧ w'.saving = none ∧ w'.life ≠ .saved
    (∀ v a f, r.2.2 = some (v, a, f) → fails v a) ∧
    (∀ s2 v a f, r.2.2 = none → writeCtrls (savePlans s g) r.1 = (s2, some (v, a, f)) → fails v a) ∧
    ∀ s2, r.2.2 = none → writeCtrls (savePlans s g) r.1 = (s2, none) → (∀ v ∈ g, (clusterOf s (v.core / 8)).claimq = []) →
      ∃ u, exec (.saveWrite k) s = .next u ∧ SameBytes s2 u ∧
        ∀ v ∈ g, ∃ v', findStrand u v.key = some v' ∧ v'.life = .saved ∧ v'.vblocks = 0 ∧ v'.granules = []

/-- What the save of a strand that goes alone writes: its pieces, then its VALID word, last; the read of a stopped copy's barrier that
fails, and a failed translation or error response, abort it. -/
def Sys2Proof.Oblig.saveWrites : Prop :=
  ∀ (s : State) (k : StrandKey) (t : Strand) (live : BitVec 64 × BitVec 16 × BitVec 8 × Bool), SaveGoes s k t live → saveGroup s t = [t] →
    let p := planNow s t live
    let sr := release (wakeSaved s t p) t.core t.key
    let s1 := p.copies.foldl (fun s c => stopForSave s t c) sr
    let written := writePieces t.core t.ctx t.saveAddr (savePieces s1 t p) s1
    let aborts (a : Nat) : Prop := ∃ u, exec (.saveWrite k) s = .next u ∧
      FrozenWith u k 0x0C (BitVec.ofNat 64 a) ∧ (coreOf u t.core).aborted.getLsbD (t.slot % 4) = true
    (∀ a, badBarrier sr t p = some a → aborts a) ∧
    (∀ s2 a f, badBarrier sr t p = none → written = (s2, some (a, f)) → aborts a) ∧
    ∀ s2 s3 ls, badBarrier sr t p = none → written = (s2, none) →
      p.slots.any (fun m => (slotOf s (t.core / 8) ((crewOf s t.key).mslots.getD m 0)).bad) = false →
      ctxLocs s2 t.ctx t.saveAddr 8 .store = .ok (ls, s3) → ls.Nodup → (clusterOf s (t.core / 8)).claimq = [] →
      ∃ u t', exec (.saveWrite k) s = .next u ∧ findStrand u k = some t' ∧ t'.life = .saved ∧ t'.vblocks = 0 ∧ t'.granules = [] ∧
        ls.map (fun l => peek u l.1 l.2) = leBytes 8 (if p.forced then 3 else 1) ∧
        ∀ sp a, (sp, a) ∉ ls → peek u sp a = peek s3 sp a

/-- Pre-emption requests and saves. Which other strands a withdrawal reaches (log entry 107), which strands are saved together (log
entry 69), and the address that an aborted save gives as its tval (log entry 47) are the model's choice. -/
def Obligations.SaveEvents : Prop := requestEvents ∧ saveImage ∧ saveWaiting ∧ saveGroups ∧ saveWrites

/-! ### Windows and CSR writes from outside (R106, R134, R193, R194, R299) -/

/-- Writes of a strand's loop, ring and other CSRs change the masked fields of that register; `fltpc` moves the trapped strand's
pc (its bits [1:0] stay: the model's choice, log entry 85); a debug window reads and writes the registers of a FROZEN strand and
answers any other with an error that leaves every strand as it was (the answer's place and its record: log entry 18). -/
def Obligations.WindowEvents : Prop :=
  ∀ (s : State) (k : StrandKey) (t : Strand) (v : Word), findStrand s k = some t →
    (∀ (csr : BitVec 12) (n : Nat), csr.toNat = 0x800 + n → n < 3 → ∃ u t', exec (.loopCsrWrite k csr v) s = .next u ∧
      findStrand u k = some t' ∧ userCsr t' n = v &&& csrMask n ∧ (∀ j < 13, j ≠ n → userCsr t' j = userCsr t j) ∧ t'.pc = t.pc ∧
      t'.x = t.x) ∧
    (∀ (csr : BitVec 12) (n : Nat), csr.toNat = 0x800 + n → n = 8 ∨ n = 9 → ∃ u t', exec (.ringReconfigure k csr v) s = .next u ∧
      findStrand u k = some t' ∧ userCsr t' n = v &&& csrMask n ∧ t'.ringhead = 0 ∧ t'.ringtail = 0 ∧ t'.ringFrom = none ∧ t'.pc = t.pc) ∧
    (ringheadOk t (v &&& 0xFFFFFFFF).toNat = true → ∃ u, exec (.ringheadWrite k v) s = .next u ∧
      u = setStrand s k (fun _ => { t with ringhead := v &&& 0xFFFFFFFF })) ∧
    (∀ p s1, ringheadOk t (v &&& 0xFFFFFFFF).toNat = false → fetchParcel s t t.pc = .ok (p, s1) →
      ∃ u, exec (.ringheadWrite k v) s = .next u ∧ FrozenWith u k 0x0A (p.setWidth 64)) ∧
    (∀ core, coreOk core = true → ((coreOf s core).valid = false → exec (.fltpcWrite core v) s = .next s) ∧
      ((coreOf s core).valid = true → loadedStrand s core = some t → ∃ u t', exec (.fltpcWrite core v) s = .next u ∧
        findStrand u k = some t' ∧ t'.pc = v &&& 0x0FFFFFFFFFFFFFFF ∧ t'.x = t.x ∧ t'.life = t.life)) ∧
    (∀ q off size (d : VReg), q / 2 ^ 12 < 4 →
      (windowStrand s (q / 2 ^ 12) (q % 2 ^ 12) = none → ∃ u, exec (.debugWindowRead q off size) s = .next u ∧ u.response = none ∧
        ∃ w, exec (.debugWindowWrite q off size d) s = .next w ∧ w.response = none ∧ w.strands = s.strands) ∧
      (∀ r, windowStrand s (q / 2 ^ 12) (q % 2 ^ 12) = some t → r < 32 →
        (∃ u, exec (.debugWindowRead q (8 * r) 8) s = .next u ∧ u.response = some (BitVec.ofNat 512 (gx t r).toNat) ∧ SameBytes s u) ∧
        ∃ u t', exec (.debugWindowWrite q (8 * r) 8 d) s = .next u ∧ findStrand u k = some t' ∧
          ∀ j < 32, gx t' j = if j = r ∧ r ≠ 0 then d.setWidth 64 else gx t j))

/-! ### Launches and queues (R336 to R341, R366 to R377, R385, R387) -/

/-- The next packet of a queue is one that starts now: visible, readable, well formed, not held, and not fenced off. -/
def Sys2Proof.Oblig.Starts (s : State) (ctx q op i v : Nat) : Prop :=
  let x := queueAt s ctx q
  queueExists s ctx q = true ∧ x.stopped = false ∧ x.hold = none ∧ skipDone x x.finished.length x.next = i ∧ i ≠ x.tail ∧
  readPacket s ctx q i = some v ∧ packetBad v = false ∧ levelBad s ctx v = false ∧ v % 256 = op ∧ (packetFenced v = true → x.running = [])

/-- Packet i of a queue has started, and is under way; `hold` says whether it holds the later ones. -/
def Sys2Proof.Oblig.UnderWay (u : State) (ctx q i : Nat) (hold : Bool) : Prop :=
  i ∈ (queueAt u ctx q).running ∧ (queueAt u ctx q).next = idxAdd i 1 ∧ (hold = true → (queueAt u ctx q).hold = some i)

/-- Packets (R367, R368): LAUNCH and STAGE add a launch whose start is due, GRAPH a graph with its first node ready; LEVEL sets the
context's level and ends a replay (R385, R387), REPLAY begins one; WAIT holds its queue until the counter has reached its target; SIGNAL
writes its value; CANCEL acts on the launches it names (R377). A queue with nothing to start does not change. -/
def Sys2Proof.Oblig.packetEvents : Prop :=
  ∀ (s : State) (ctx q i v : Nat) (c : Context), contextOf s ctx = some c →
    let a := v / 2 ^ 64 % 2 ^ 64
    let launches (e : Instr) (op : Nat) (staging hold : Bool) : Prop := Starts s ctx q op i v → ∃ u r, exec e s = .next u ∧
      UnderWay u ctx q i hold ∧ u.runs = s.runs ++ [r] ∧ r.ctx = ctx ∧ r.origin = .packet q i ∧ r.staging = staging ∧ r.recAddr = a ∧
      r.stage = .queued ∧ u.due = s.due ++ [.launchStart s.runs.length]
    launches (.launchPacket ctx q) 1 false false ∧ launches (.stagePacket ctx q) 6 true true ∧
    (Starts s ctx q 2 i v → coveredBy s ctx q i .graph (v / 2 ^ 192 % 2 ^ 32) = none → ∃ u g, exec (.graphPacket ctx q) s = .next u ∧
      UnderWay u ctx q i false ∧ u.graphs = s.graphs ++ [g] ∧ g.ctx = ctx ∧ g.ready = [BitVec.ofNat 64 a] ∧ g.done = false) ∧
    (Starts s ctx q 3 i v → ∃ u c', exec (.levelPacket ctx q) s = .next u ∧ contextOf u ctx = some c' ∧ c'.level = v / 2 ^ 64 % 2 ^ 8 ∧
      (queueAt u ctx q).replay = none ∧ i ∉ (queueAt u ctx q).running ∧ SameBytes s u) ∧
    (Starts s ctx q 8 i v → ∃ u n, exec (.replayPacket ctx q) s = .next u ∧
      (queueAt u ctx q).replay = some { base := a, size := v / 2 ^ 128 % 2 ^ 64, session := n } ∧ SameBytes s u) ∧
    (Starts s ctx q 4 i v → ∃ u, exec (.waitPacket ctx q) s = .next u ∧ UnderWay u ctx q i true ∧
      ∀ sp x, sp ≠ .host ∨ (ctxRead s ctx a 8).isSome = true → peek u sp x = peek s sp x) ∧
    (∀ bs, queueExists s ctx q = true → (queueAt s ctx q).hold = some i → readPacket s ctx q i = some v → v % 256 = 4 →
      ctxRead s ctx a 8 = some bs →
      (v / 2 ^ 128 % 2 ^ 64 ≤ leNat bs → ∃ u, exec (.waitComplete ctx q) s = .next u ∧ (queueAt u ctx q).hold = none ∧ SameBytes s u) ∧
      (leNat bs < v / 2 ^ 128 % 2 ^ 64 → exec (.waitComplete ctx q) s = .next s)) ∧
    (∀ s1, Starts s ctx q 7 i v → signalWrite (putQueue s ctx q (fun x => { x with next := idxAdd i 1, running := x.running ++ [i] }))
        ctx a (v / 2 ^ 128 % 2 ^ 64) = some s1 → ∃ u, exec (.signalPacket ctx q) s = .next u ∧ SameBytes s1 u) ∧
    (queueExists s ctx q = true → reachable s ctx q i = true → readPacket s ctx q i = some v → packetBad v = false → v % 256 = 5 →
      v / 2 ^ 64 % 2 ^ 8 = 0 → ∃ u, exec (.cancelPacket ctx q i) s = .next u ∧
        ∀ n, n < s.runs.length → (runOf s n).ctx = ctx → (runOf s n).stage = .bound → (runOf s n).launchid = v / 2 ^ 96 % 2 ^ 32 →
          (runOf u n).cancelled = true) ∧
    (queueExists s ctx q = true → (queueAt s ctx q).hold = none →
      skipDone (queueAt s ctx q) (queueAt s ctx q).finished.length (queueAt s ctx q).next = (queueAt s ctx q).tail →
      ∀ e ∈ [Instr.launchPacket ctx q, .graphPacket ctx q, .levelPacket ctx q, .waitPacket ctx q, .waitComplete ctx q, .stagePacket ctx q,
             .signalPacket ctx q, .replayPacket ctx q], exec e s = .next s)

/-- The life of a launch: it starts when its record is read, taking the record's fields, or completes with MALFORMED (R373, R374); its
crews are bound, or resumed (R202, R355), one by one as armed records admit them (R337, R338, R339), or together (R340), with priority
after 2^20 cycles (R341; on die 0: the model's choice, log entry 121); and it completes when every crew has (R376). -/
def Sys2Proof.Oblig.launchEvents : Prop :=
  ∀ (s : State) (run : Nat), run < s.runs.length →
    (∀ v k, (runOf s run).stage = .queued → (runOf s run).cancelled = false → (runOf s run).staging = false →
      let s0 := dropTlbs s (runOf s run).ctx
      let r := runOf s0 run
      readRecord s0 r = some v → runCovered s0 r v = none → kernelAt s0 r.ctx (recField v 0 4) (recField v 4 2) = some k →
      recordOk2 s0 r v k = true → jobShut s0 r (recField v 12 4) = false → k.steps = false → k.ordered = true →
      ∃ u, exec (.launchStart run) s = .next u ∧ (runOf u run).stage = .passed ∧ (runOf u run).launchid = recField v 8 4 ∧
        (runOf u run).jobid = recField v 12 4 ∧ (runOf u run).ncrew = recField v 16 4 ∧ (runOf u run).nstrand = k.strands ∧
        (runOf u run).entry = k.entry ∧ ((∀ c, contextOf s (runOf s run).ctx = some c → c.level ≠ 2) →
          (queueAt s (runOf s run).ctx (runPlace s (runOf s run)).1).replay = none → SameBytes s u)) ∧
    ((runOf s run).stage = .queued → (runOf s run).cancelled = false →
      readRecord (dropTlbs s (runOf s run).ctx) (runOf s run) = none → ∃ u, exec (.launchStart run) s = .next u ∧
        (runOf u run).stage = .done) ∧
    ((runOf s run).stage ≠ .queued → exec (.launchStart run) s = .next s) ∧
    ((runOf s run).stage = .bound → (runOf s run).heldAdds = [] → crewsFinished s run = true → ∃ u, exec (.launchComplete run) s = .next u ∧ (runOf u run).stage = .done) ∧
    (crewsFinished s run = false → exec (.launchComplete run) s = .next s) ∧
    (∀ s1, gangWaits s run = true → gangFirst s run = true →
      let crews := gangCrews (gangRecords s run)
      (gangNeeds s run).all (fun c => crews.any (fun e => e.1 = c)) = true →
      gangBind s run (crews.filter (fun e => (gangNeeds s run).contains e.1)) = some s1 →
      ∃ u, exec (.gangAdmit run) s = .next u ∧ u.strands = s1.strands ∧ u.crews = s1.crews ∧ SameBytes s1 u ∧
        (run < s1.runs.length → (runOf u run).stage = .bound)) ∧
    (gangWaits s run = false → exec (.gangAdmit run) s = .next s) ∧
    ((runOf s run).stage = .gangWait → (runOf s run).since + 2 ^ 20 ≤ (dieOf s 0).cycles →
      ∃ u, exec (.gangPriority run) s = .next u ∧ (runOf u run).priority = true ∧ SameBytes s u) ∧
    (∀ (die entry : Nat) (rec : BitVec 256), die < 4 → entry < 256 →
      (bindRecOk rec = true → rec.getLsbD 56 = true → entryFree s die entry = true → ∃ u, exec (.bindRecordWrite die entry rec) s = .next u ∧
        entryOf u die entry = some { record := rec, next := (bindRecOf rec).crew0 } ∧ SameBytes s u) ∧
      ((bindRecOk rec = false ∨ entryFree s die entry = false) → exec (.bindRecordWrite die entry rec) s = .next s) ∧
      (∃ u, exec (.bindRecordWithdraw die entry) s = .next u ∧ entryOf u die entry = none ∧ SameBytes s u) ∧
      (∀ e s1, entryOf s die entry = some e →
        let b := bindRecOf e.record
        let taken (w : State) (crew : Nat) : State := setCrew w run crew (fun c => { c with boundBy := some (die, entry) })
        recGang b = false → e.next < b.crew0 + b.ncrew → recRun s b = some run →
        (runOf s run).steps = false → e.next < (runOf s run).ncrew →
        (recResume b = false → (runOf s run).cancelled = false → admitCrew s run e.next (die * 96 + b.cluster) (e.next - b.crew0) b = some s1 →
          ∃ u, exec (.bindCrew die entry) s = .next u ∧ entryOf u die entry = some { e with next := e.next + 1 } ∧
            u.strands = s1.strands ∧ u.crews = (taken s1 e.next).crews ∧ SameBytes s1 u) ∧
        (recResume b = true → resumeCrew s run e.next (die * 96 + b.cluster) b = some s1 →
          ∃ u, exec (.resume die entry) s = .next u ∧ entryOf u die entry = some { e with next := e.next + 1 } ∧
            u.strands = s1.strands ∧ u.crews = (taken s1 e.next).crews ∧ SameBytes s1 u)))

/-- Queues, launches and the slot table. Which launch records cannot be used (log entry 46), what a cancel leaves to a later event (log entry
57), and that the 2^20 cycles of a gang launch's wait are die 0's (log entry 121), are the model's choice. -/
def Obligations.LaunchEvents : Prop := packetEvents ∧ launchEvents

/-! ### Graphs (R378 to R381) -/

/-- The walker starts a node that is ready and well formed: LAUNCH and STAGE add a launch, COND and WHILE go on to the successor
that the test chooses, JOIN at the last arrival, SIGNAL after its value is written; a malformed node ends the run with MALFORMED;
a graph with nothing running and nothing ready completes. That a JOIN still short of arrivals does not keep a graph open is the
model's choice (log entry 56). -/
def Obligations.GraphEvents : Prop :=
  ∀ (s : State) (g : Nat) (a : Word), g < s.graphs.length → (graphAt s g).done = false →
    let x := graphAt s g
    (x.running = [] → x.ready = [] → ∃ u, exec (.graphComplete g) s = .next u ∧ (graphAt u g).done = true) ∧
    ((x.running ≠ [] ∨ x.ready ≠ []) → exec (.graphComplete g) s = .next s) ∧
    (∀ v, x.ending = false → x.ready = [a] → nodesRunning s < 256 → readNode s x.ctx a = some v →
      let n := nodeOf v
      (nodeOk v = true →
        (∀ e staging, (n.type = 1 ∧ e = .launchNode g a ∧ staging = false ∨ n.type = 2 ∧ e = .stageNode g a ∧ staging = true) →
          ∃ u r, exec e s = .next u ∧ u.runs = s.runs ++ [r] ∧ r.origin = .node g a ∧ r.staging = staging ∧ r.recAddr = n.arg ∧
            (graphAt u g).running = x.running ++ [(s.runs.length, n.succ0, n.succ1)] ∧ (graphAt u g).ready = [] ∧ SameBytes s u) ∧
        (∀ bs, ctxRead s x.ctx n.arg 8 = some bs →
          let next := if nodeTest n (leNat bs) then n.succ0 else n.succ1
          next ≠ 0 → (n.type = 3 → x.conds.contains a = false → ∃ u, exec (.condNode g a) s = .next u ∧ (graphAt u g).ready = [next] ∧
              a ∈ (graphAt u g).conds ∧ SameBytes s u) ∧
            (n.type = 4 → ∃ u, exec (.whileNode g a) s = .next u ∧ (graphAt u g).ready = [next] ∧ SameBytes s u)) ∧
        (n.type = 5 → x.joins = [] → n.npred = 1 → n.succ0 ≠ 0 → ∃ u, exec (.joinNode g a) s = .next u ∧
          (graphAt u g).ready = n.succ0 :: (if n.succ1 = 0 then [] else [n.succ1]) ∧ SameBytes s u) ∧
        (n.type = 5 → x.joins = [] → 1 < n.npred → x.running ≠ [] → ∃ u, exec (.joinNode g a) s = .next u ∧
          (graphAt u g).joins = [(a, 1)] ∧ (graphAt u g).ready = [] ∧ SameBytes s u) ∧
        (∀ s1, n.type = 6 → n.succ0 ≠ 0 → signalWrite (putGraph s g (fun x => { x with ready := [] })) x.ctx n.arg n.value = some s1 →
          ∃ u, exec (.signalNode g a) s = .next u ∧ SameBytes s1 u ∧
            (graphAt u g).ready = n.succ0 :: (if n.succ1 = 0 then [] else [n.succ1]))) ∧
      (nodeOk v = false → x.running ≠ [] → x.cause = none → ∀ e ∈ [Instr.launchNode g a, .stageNode g a, .condNode g a, .whileNode g a, .joinNode g a, .signalNode g a],
        ∃ u, exec e s = .next u ∧ (graphAt u g).ending = true ∧ (graphAt u g).cause = some (4, s.gtc, 6148) ∧ (graphAt u g).ready = []))

/-! ### The host (R363 to R366, R402 to R405) -/

/-- A command block of an OP is under way, and its context is there. -/
def Sys2Proof.Oblig.Commands (s : State) (op : Nat) : Prop :=
  s.cmdBusy = true ∧ s.cmdBlock % 256 = op ∧ (contextOf s (s.cmdBlock / 256 % 256)).isSome = true

/-- The command has ended with a status; nothing is under way. -/
def Sys2Proof.Oblig.Answers (u : State) (status : Nat) : Prop := u.cmdBusy = false ∧ u.cmdStatus = status

/-- Commands: CREATE sets up a context that keeps the limits and is not there yet, DESTROY frees one with nothing open, LOAD and
UNLOAD install and remove an object or answer why not, FAULTACT disposes of an escalated strand, JOBSET of one package sets its
job on every plane, one of several ends OK when the news that has arrived has every member's table within 1 s, and BADJOB when a second has
passed and one is missing, JOBCLOSE and JOBCANCEL end it; one that names no context answers BADCTX; without a command under way, nothing
happens. -/
def Sys2Proof.Oblig.commandEvents : Prop :=
  ∀ (s : State),
    let v := s.cmdBlock
    let ctx := v / 256 % 256
    let all := [(1, Instr.createContext), (2, .destroyContext), (3, .loadObject), (4, .unloadObject), (5, .faultAct), (16, .jobset),
                (17, .jobclose), (18, .jobcancel)]
    (s.cmdBusy = false → ∀ e ∈ all, exec e.2 s = .next s) ∧
    (s.cmdBusy = true → contextOf s ctx = none → ∀ e ∈ all, e.1 ≠ 1 → v % 256 = e.1 → ∃ u, exec e.2 s = .next u ∧ Answers u 2 ∧ SameBytes s u) ∧
    (s.cmdBusy = true → v % 256 = 1 → contextOf s ctx = none → contextOk (contextFrom v) = true →
      ∃ u, exec .createContext s = .next u ∧ Answers u 0 ∧ contextOf u ctx = some (contextFrom v) ∧ SameBytes s u) ∧
    (s.cmdBusy = true → v % 256 = 1 → (contextOf s ctx).isSome = true → ∃ u, exec .createContext s = .next u ∧ Answers u 2 ∧
      u.contexts = s.contexts) ∧
    (Commands s 2 → openRuns s ctx = [] → openGraphs s ctx = [] → ∃ u, exec .destroyContext s = .next u ∧ Answers u 0 ∧
      contextOf u ctx = none) ∧
    (Commands s 3 → ∀ a n, v / 2 ^ 64 % 2 ^ 64 = a → v / 2 ^ 128 % 2 ^ 64 = n → a + n ≤ Config.deviceBytes → poisoned s .dev a n = false →
      (∀ e, loadElf s ctx (peekN s .dev a n) = .error e → ∃ u, exec .loadObject s = .next u ∧ Answers u e ∧
        ∀ sp x, sp ≠ .host → peek u sp x = peek s sp x) ∧
      (∀ s1 h, loadElf s ctx (peekN s .dev a n) = .ok (s1, h) → ∃ u, exec .loadObject s = .next u ∧ Answers u 0 ∧
        u.cmdResult = h % 2 ^ 32 ∧ u.contexts = s1.contexts ∧ SameBytes s1 u)) ∧
    (Commands s 4 → ∀ c h, contextOf s ctx = some c → v / 2 ^ 64 % 2 ^ 32 = h →
      (c.objects.any (fun o => o.handle = h) = false → ∃ u, exec .unloadObject s = .next u ∧ Answers u 1 ∧ SameBytes s u) ∧
      (c.objects.any (fun o => o.handle = h) = true →
        (∀ r ∈ s.runs, r.ctx = ctx → r.stage = .done ∨ r.stage ≠ .queued ∧ r.handle ≠ h ∨
          r.stage = .queued ∧ ∀ v, readRecord s r = some v → recField v 0 4 ≠ h) → ∃ u c', exec .unloadObject s = .next u ∧
          Answers u 0 ∧ contextOf u ctx = some c' ∧ (∀ o ∈ c'.objects, o.handle ≠ h) ∧ SameBytes s u)) ∧
    (Commands s 5 → ∀ t, v / 2 ^ 64 % 2 ^ 16 < 4 → v / 2 ^ 80 % 2 ^ 16 < 3072 → v / 2 ^ 96 % 2 ^ 8 < 2 →
      physStrand s (v / 2 ^ 64 % 2 ^ 16) (v / 2 ^ 80 % 2 ^ 16) = some t → findStrand s t.key = some t → t.life = .frozen → t.escalated = true →
      ∃ u t', exec .faultAct s = .next u ∧ Answers u 0 ∧ findStrand u t.key = some t' ∧
        t'.life = (if v / 2 ^ 96 % 2 ^ 8 = 0 then .running else .ended)) ∧
    (Commands s 16 → ∀ j n a, v / 2 ^ 128 % 2 ^ 64 = a → v / 2 ^ 192 % 2 ^ 32 = n → jobNamed s ctx (v / 2 ^ 64 % 2 ^ 32) = none →
      a + n ≤ Config.deviceBytes → poisoned s .dev a n = false → jobFrom s ctx (peekN s .dev a n) = some j → j.id = v / 2 ^ 64 % 2 ^ 32 →
      setsHeld s + Config.otherSets s.steps + j.ngrp ≤ 4096 → j.npkg = 1 → upLinks s ≠ [] → ∃ u, exec .jobset s = .next u ∧ Answers u 0 ∧
        (∃ i ∈ u.jobs, i.id = j.id ∧ i.ctx = ctx ∧ i.isSet = true ∧ i.groups = j.groups) ∧ SameBytes s u ∧
        ∀ l g mask, l < 36 → j.groups[g]? = some mask → (ctx, j.id, g, portsOf j mask) ∈ (linkOf u l).sets) ∧
    (∀ job j own, Commands s 16 → v / 2 ^ 64 % 2 ^ 32 = job → jobNamed s ctx job = some j → j.isSet = false → j.since + 10 ^ 9 ≤ s.gtc →
      j.agreed.find? (fun e => e.1 = j.rank) = some (j.rank, own) → own + 10 ^ 9 ≤ s.gtc →
      let news := jobNews s j true
      ((∀ e ∈ news, e.1 ≠ j.rank ∧ ∃ g, e.2 = .same g) → (∃ r < j.npkg, r ≠ j.rank ∧ ∀ e ∈ news, e.1 ≠ r) → ∀ e ∈ [Instr.jobset, .jobsetTimeout job],
        ∃ u, exec e s = .next u ∧ Answers u 11 ∧ ∀ i ∈ u.jobs, ¬ (i.ctx = j.ctx ∧ i.id = j.id)) ∧
      (∀ lo, lo ≤ own → own < lo + 10 ^ 9 → (∀ e ∈ news, ∃ g, e.2 = .same g ∧ lo ≤ g ∧ g < lo + 10 ^ 9) →
        (∀ r < j.npkg, r = j.rank ∨ ∃ e ∈ news, e.1 = r) → ∀ e ∈ [Instr.jobset, .jobsetTimeout job],
        ∃ u, exec e s = .next u ∧ Answers u 0 ∧ ∃ i ∈ u.jobs, i.ctx = j.ctx ∧ i.id = j.id ∧ i.isSet = true)) ∧
    (∀ job j, Commands s 16 → jobNamed s ctx job = some j → s.gtc < j.since + 10 ^ 9 → exec (.jobsetTimeout job) s = .next s) ∧
    (∀ j, Commands s 17 → jobNamed s ctx (v / 2 ^ 64 % 2 ^ 32) = some j → j.isSet = true → ∃ u, exec .jobclose s = .next u ∧ Answers u 0 ∧
      (∀ i ∈ u.jobs, i.ctx = j.ctx → i.id = j.id → i.closed = true) ∧ Instr.jobComplete j.id ∈ u.due ∧ SameBytes s u) ∧
    (∀ j, Commands s 18 → jobNamed s ctx (v / 2 ^ 64 % 2 ^ 32) = some j → j.isSet = true → ∃ u, exec .jobcancel s = .next u ∧ Answers u 0 ∧
      ∀ i ∈ u.jobs, i.ctx = j.ctx → i.id = j.id → i.isSet = false)

/-- A job that is closed, with no launch left, none to start (which packets these are: log entry 97), and no other member, completes. Once STATE is READY, a doorbell moves its queue's tail
within the ring's 2^16 packets, a BAR0 write changes the register it names under its constraint, and a read-only one not, and the
host's bytes reach device memory; before, none of these has an effect. -/
def Sys2Proof.Oblig.portEvents : Prop :=
  ∀ (s : State),
    (∀ job j, s.jobs.filter (fun i => i.id = job && i.isSet) = [j] → jobNews s j false = [] → j.closed = true → jobOpenRuns s j = [] →
      jobWaits s j = false → j.npkg = 1 →
      j.rank = 0 → ∃ u, exec (.jobComplete job) s = .next u ∧ ∀ i ∈ u.jobs, i.ctx = j.ctx → i.id = j.id → i.isSet = false) ∧
    (s.status ≠ 1 → (∀ ctx q v, queueOk ctx q = true → exec (.doorbell ctx q v) s = .next s) ∧
      (∀ off v, off < 2 ^ 20 → exec (.registerWrite off v) s = .next s) ∧
      ∀ pa data bad, pa + data.length ≤ Config.deviceBytes → exec (.hostMemWrite pa data bad) s = .next s) ∧
    (∀ ctx q (v : Word), s.status = 1 → queueOk ctx q = true → queueExists s ctx q = true →
      let t := v.toNat % 2 ^ 32
      let x := queueAt s ctx q
      ∃ u, exec (.doorbell ctx q v) s = .next u ∧ SameBytes s u ∧ (queueAt u ctx q).stopped = false ∧ (queueAt u ctx q).head = x.head ∧
        (queueAt u ctx q).tail = (if Config.ringPackets < idxSub t x.tail ∨ Config.ringPackets < idxSub t x.head then x.tail else t)) ∧
    (∀ (v : Word), s.status = 1 →
      let writes (off : Nat) (ok : Bool) (get : State → Word) : Prop := ∃ u, exec (.registerWrite off v) s = .next u ∧ SameBytes s u ∧
        get u = if ok then v else get s
      writes 0x20 (v.toNat % 64 = 0) State.cmdAddr ∧ writes 0x40 (v.toNat % 4096 = 0) State.logBase ∧
      writes 0x48 (v = 0 ∨ ∃ k < 15, v.toNat = 2 ^ (k + 10)) State.logSize ∧
      writes 0x58 (v.toNat ≤ s.logTail.toNat ∧ s.logTail.toNat ≤ v.toNat + s.logSize.toNat) State.logHead ∧
      (∀ off ∈ [0x00, 0x08, 0x10, 0x18, 0x30, 0x50, 0x60], exec (.registerWrite off v) s = .next s) ∧
      (v = 1 → s.cmdBusy = false → poisoned s .host s.cmdAddr.toNat 64 = false →
        let b := peekNat s .host s.cmdAddr.toNat 64
        (cmdClean b = false → ∃ u, exec (.registerWrite 0x28 v) s = .next u ∧ Answers u 1) ∧
        (cmdClean b = true → b / 256 % 256 < 16 → ∃ u, exec (.registerWrite 0x28 v) s = .next u ∧ u.cmdBusy = true ∧ u.cmdBlock = b ∧
          u.due = s.due ++ [cmdEvent (b % 256)]))) ∧
    (∀ pa data, s.status = 1 → pa + data.length ≤ Config.deviceBytes →
      (∃ u, exec (.hostMemWrite pa data false) s = .next u ∧ peekN u .dev pa data.length = data ∧ OtherBytes s u .dev pa data.length) ∧
      (data ≠ [] → ∃ u, exec (.hostMemWrite pa data true) s = .next u ∧ poisoned u .dev pa data.length = true))

/-- The host's commands, doorbells, registers and writes. That LOAD and JOBSET take physical addresses (log entry 22), the order of a
command's checks (log entry 48), what a doorbell out of range does (log entry 49), how a finished job stands (log entry 50), and that
before STATE is READY a doorbell, a BAR0 write and a host write have no effect (log entry 60; R393 has them only after bring-up) are the
model's choice. -/
def Obligations.HostEvents : Prop := commandEvents ∧ portEvents

/-! ### The package (R180, R190, R205, R206, R335, R391 to R394) -/

/-- Corrected errors are logged alone; uncorrected ones poison data, drop an L1 line, mark a slot, trap the reader with MACHINE, or
abort the save that meets them; a failed core freezes its strands; a faulty cluster leaves service, and the other end of its
failed die-to-die link with it. -/
def Sys2Proof.Oblig.errorEvents : Prop :=
  ∀ (s : State),
    (∀ src addr, sourceOk src = true → s.logSize = 0 → ∃ u, exec (.eccCorrected src addr) s = .next u ∧ SameBytes s u ∧
      u.logLost = s.logLost + 1 ∧ u.strands = s.strands ∧ u.cores = s.cores) ∧
    (∀ sp site a, s.logSize = 0 → (site = ErrorSite.device a ∧ sp = .dev ∧ a < 1536 * 2 ^ 30 ∨ site = .host a ∧ sp = .host ∨
        (∃ core off, site = .scratchpad core off ∧ coreOk core = true ∧ off < 196608 ∧ sp = .spad ∧ a = core * 196608 + off) ∨
        (∃ cl off, site = .weights cl off ∧ clusterOk cl = true ∧ off < Config.wbufBytes ∧ sp = .wbuf ∧ a = cl * Config.wbufBytes + off)) →
      ∃ u, exec (.eccUncorrected site) s = .next u ∧ SameBytes s u ∧ poisoned u sp a 1 = true ∧
        ∀ sp' b, (sp' = sp → b / 8 ≠ a / 8) → poisoned u sp' b 1 = poisoned s sp' b 1) ∧
    (∀ core line, coreOk core = true → ∃ u, exec (.eccUncorrected (.l1Line core line)) s = .next u ∧
      ∀ e ∈ (coreOf u core).l1, e.1 / 8 ≠ line) ∧
    (∀ core line, coreOk core = true → ∃ u, exec (.eccUncorrected (.icacheLine core line)) s = .next u ∧
      ∀ l ∈ (coreOf u core).icache, l.line ≠ line) ∧
    (∀ k t site, site = ErrorSite.register k ∨ site = .saveBuffer k → findStrand s k = some t → t.saving ≠ none →
      ∃ u, exec (.eccUncorrected site) s = .next u ∧ FrozenWith u k 0x0C 0 ∧ (coreOf u t.core).aborted.getLsbD (t.slot % 4) = true) ∧
    (∀ k t, findStrand s k = some t → t.life = .running → t.saving = none → ∃ u, exec (.eccUncorrected (.register k)) s = .next u ∧
      FrozenWith u k 0x0C 0) ∧
    (∀ cl slot, clusterOk cl = true → slot < 8 → ∃ u, exec (.eccUncorrected (.slotStore cl slot)) s = .next u ∧
      (slotOf u cl slot).bad = true ∧ SameBytes s u) ∧
    (∀ core, coreOk core = true → (coreOf s core).failed = false → ∃ u, exec (.coreFailed core) s = .next u ∧ (coreOf u core).failed = true ∧
      ∀ t, findStrand s t.key = some t → t.core = core → onCore t = true → FrozenWith u t.key 0x0C 0) ∧
    (∀ cl, clusterOk cl = true → (clusterOf s cl).outOfService = false → hardFaulty s cl = true → ∃ u, exec (.hardFault cl) s = .next u ∧
      (∀ c, c = cl ∨ c ∈ failedLinks s cl → (clusterOf u c).outOfService = true) ∧ ∀ t ∈ s.strands, t.core / 8 = cl → onCore t = true → t.key.run < s.runs.length →
        (runOf s t.key.run).stage ≠ .done → (runOf u t.key.run).cancelled = true) ∧
    (∀ cl, clusterOk cl = true → hardFaulty s cl = false → exec (.hardFault cl) s = .next s)

/-- Boot makes the package READY with what firmware installs, or FAILED at the step that fails; throttling changes a die's clock within
its range; a thermal trip stops everything and raises the package's vector (the model's choice of when: log entry 78); a storage
bank without an access for 2,048 cycles goes drowsy and keeps its contents; a hinted line is asked for, and walks are served in
turn. -/
def Sys2Proof.Oblig.packageEvents : Prop :=
  ∀ (s : State),
    (∀ fw : Firmware, fw.outOfService.all clusterOk = true →
      (s.status ≠ 0 → exec (.boot fw) s = .next s) ∧
      (∀ n, s.status = 0 → fw.failed = some n → ∃ u, exec (.boot fw) s = .next u ∧ u.status = 2 ∧ (n < 3 → u = { s with status := 2 })) ∧
      (s.status = 0 → fw.failed = none → ∃ u, exec (.boot fw) s = .next u ∧ u.status = 1 ∧
        (∀ cl ∈ fw.outOfService, (clusterOf u cl).outOfService = true) ∧
        (∀ d < 4, (dieOf u d).handlerRoot = fw.handlerRoot.getD d 0 ∧ (dieOf u d).saveTable = fw.saveTable.getD d 0) ∧
        (fw.image = [] → SameBytes s u))) ∧
    (∀ die mhz, die < 4 →
      (1200 ≤ mhz → mhz ≤ 2700 → mhz % 50 = 0 → ∃ u, exec (.throttle die mhz) s = .next u ∧ (dieOf u die).mhz = mhz ∧ SameBytes s u ∧
        u.strands = s.strands) ∧
      ((mhz < 1200 ∨ 2700 < mhz ∨ mhz % 50 ≠ 0) → exec (.throttle die mhz) s = .next s)) ∧
    exec .thermalTrip s = .next { s with status := 2, vectors := 1040 :: s.vectors } ∧
    (∀ core g, coreOk core = true → now s core < tget 0 (coreOf s core).lastUse (unitNo (.granule g)) + 2048 →
      exec (.bankDrowsy core (.granule g)) s = .next s) ∧
    (∀ core g, coreOk core = true → (usedGranules s core).contains g = true →
      tget 0 (coreOf s core).lastUse (unitNo (.granule g)) + 2048 ≤ now s core → ∃ u, exec (.bankDrowsy core (.granule g)) s = .next u ∧
      PowerUnit.granule g ∈ (coreOf u core).drowsy ∧ SameBytes s u ∧ u.strands = s.strands) ∧
    (∀ core h, coreOk core = true → (coreOf s core).hints.find? (fun h => !hintWalking s core h) = some h →
      (hintMapped s core h = false → ∃ u, exec (.icacheFill core) s = .next u ∧ SameBytes s u ∧
        (dieOf u (core / 768)).walkq = (dieOf s (core / 768)).walkq ++ [{ core := core, ctx := h.ctx, line := h.line }]) ∧
      (hintMapped s core h = true → ∃ u, exec (.icacheFill core) s = .next u ∧
        (coreOf u core).hints = (coreOf s core).hints.erase h)) ∧
    (∀ core, coreOk core = true → (coreOf s core).hints = [] → exec (.icacheFill core) s = .next s) ∧
    (∀ die w rest, die < 4 → (dieOf s die).walkq = w :: rest → ∃ u, exec (.pageWalk die) s = .next u ∧
      ∀ x ∈ (dieOf u die).walkq, ¬ (x.ctx = w.ctx ∧ x.line / 2 ^ 13 = w.line / 2 ^ 13)) ∧
    (∀ die, die < 4 → (dieOf s die).walkq = [] → exec (.pageWalk die) s = .next s)

/-- Errors, faults, boot, clocks and power. When a hard fault is declared (log entry 54), what a failed core leaves (log entry 55), that
boot is one event with its outcome as argument (log entry 60), and which events raise the package's vector (log entry 78) are the
model's choice. -/
def Obligations.PackageEvents : Prop := errorEvents ∧ packageEvents

/-! ### The fabric (R395 to R400, R415, R416, R418) -/

/-- A damaged flit is answered with a nack (so is one with reserved bits: the model's choice, log entry 77), and one of another
type than the event brings has no effect. Flits of the sequence are taken in order and acknowledged, out of order ones answered
with a nack. A time flit of the master moves the GTC to the master's, forward at once or by counting half of twice the ticks that it is
ahead. -/
def Sys2Proof.Oblig.flitEvents : Prop :=
  ∀ (s : State) (j : Nat) (f : Flit), j < 36 →
    let l := linkOf s j
    let seq := f.seq.toNat % 4096
    let nack : Flit := sealFlit { hdr := 4, seq := BitVec.ofNat 16 l.recvSeq }
    let ack : Flit := sealFlit { hdr := 3, seq := BitVec.ofNat 16 l.recvSeq }
    let all := [(0, Instr.idleFlit j f), (1, .dataFlit j f), (2, .combineFlit j f), (5, .timeFlit j f), (3, .ackFlit j f), (4, .nackFlit j f)]
    (l.up = false → ∀ e ∈ all, exec e.2 s = .next s) ∧
    (l.up = true → flitFine f = false → ∀ e ∈ all, ∃ u, exec e.2 s = .next u ∧ linkOf u j = { l with out := l.out ++ [nack] }) ∧
    (l.up = true → flitFine f = true →
      (∀ e ∈ all, flitType f ≠ e.1 → exec e.2 s = .next s) ∧
      (flitType f = 0 → exec (.idleFlit j f) s = .next s) ∧
      (∀ e ∈ all, e.1 ∈ [1, 2, 5] → flitType f = e.1 → seq ≠ l.recvSeq →
        ∃ u, exec e.2 s = .next u ∧ linkOf u j = { l with out := l.out ++ [nack] }) ∧
      (∀ e ∈ all, e.1 ∈ [1, 2] → flitType f = e.1 → seq = l.recvSeq → ∃ u, exec e.2 s = .next u ∧
        linkOf u j = { l with recvSeq := (l.recvSeq + 1) % 4096, out := l.out ++ [ack], inbox := l.inbox ++ [f] }) ∧
      (flitType f = 5 → seq = l.recvSeq →
        let m := Config.flitTime f.payload
        let follows := m.1 < s.fabricAddr ∧ ∀ a, s.masterAddr = some a → m.1 ≤ a
        ∃ u, exec (.timeFlit j f) s = .next u ∧ linkOf u j = { l with recvSeq := (l.recvSeq + 1) % 4096, out := l.out ++ [ack] } ∧
          (¬ follows → u.gtc = s.gtc ∧ u.gtcSlow = s.gtcSlow ∧ u.masterAddr = s.masterAddr) ∧
          (follows → u.masterAddr = some m.1 ∧ (s.gtc ≤ m.2 → u.gtc = m.2 ∧ u.gtcSlow = 0 ∧ ∀ d < 4, m.2 ≤ (dieOf u d).gtc) ∧
            (m.2 < s.gtc → u.gtc = s.gtc ∧ u.gtcSlow = 2 * (s.gtc - m.2) + s.gtcSlow % 2)))) ∧
    (s.status ≠ 0 → ∀ a, s.gtcSlow = 2 * a →
      (Config.ticks s.steps ≤ 2 * a → (tick s).gtc = s.gtc + Config.ticks s.steps / 2) ∧
      (2 * a ≤ Config.ticks s.steps → (tick s).gtc + a = s.gtc + Config.ticks s.steps))

/-- Acknowledged flits leave the replay buffer and those that wait enter it; a nack replays from the one named, and the 16th replay
running takes the link down, as 10 ms without training does, with the package's vector raised (log entry 78). What it has not delivered
waits, where no plane is up, for one that trains. A link comes up again when its partner agrees, every 100 ms once it is
down, and sends what its buffer still holds, or, once it was down, the port sets of its package's jobs (log entry 102). -/
def Sys2Proof.Oblig.replayEvents : Prop :=
  ∀ (s : State) (j : Nat) (f : Flit), j < 36 →
    let l := linkOf s j
    let seq := f.seq.toNat % 4096
    let b := (fromSeq seq l.buffer).drop 1
    let k := 256 - b.length
    let goesDown (u : State) : Prop := (linkOf u j).up = false ∧ (linkOf u j).down = true ∧ u.vectors = 1040 :: s.vectors
    (l.up = true → flitFine f = true → flitType f = 3 →
      (holdsSeq l seq = false → ∃ u, exec (.ackFlit j f) s = .next u ∧ linkOf u j = l) ∧
      (holdsSeq l seq = true → ∃ u gs, exec (.ackFlit j f) s = .next u ∧ (linkOf u j).buffer = b ++ gs ∧ (linkOf u j).out = l.out ++ gs ∧
        (linkOf u j).waiting = l.waiting.drop k ∧ gs.map (·.payload) = (l.waiting.take k).map (·.payload) ∧
        (∀ g ∈ gs, g.crc = flitCrc g) ∧ (linkOf u j).replays = 0)) ∧
    (l.up = true → flitFine f = true → flitType f = 4 → holdsSeq l seq = true →
      (l.replays < 15 → ∃ u, exec (.nackFlit j f) s = .next u ∧
        linkOf u j = { l with buffer := fromSeq seq l.buffer, out := l.out ++ fromSeq seq l.buffer, replays := l.replays + 1 }) ∧
      (15 ≤ l.replays → ∃ u, exec (.nackFlit j f) s = .next u ∧ goesDown u)) ∧
    (l.up = true → l.waiting = [] →
      (l.buffer.length < 256 → ∃ u g, exec (.managementFlit j f) s = .next u ∧
        linkOf u j = { l with sendSeq := (l.sendSeq + 1) % 4096, buffer := l.buffer ++ [g], out := l.out ++ [g] } ∧
        g.seq = BitVec.ofNat 16 (l.sendSeq % 4096) ∧ g.payload = f.payload ∧ g.hdr &&& 0xF = 6 ∧ g.crc = flitCrc g) ∧
      (256 ≤ l.buffer.length → ∃ u g, exec (.managementFlit j f) s = .next u ∧ (linkOf u j).waiting = [g] ∧ g.payload = f.payload ∧
        (linkOf u j).buffer = l.buffer ∧ (linkOf u j).out = l.out)) ∧
    (l.up = true ∨ l.down = true ∨ s.gtc < l.since + 10 ^ 7 → exec (.linkDown j) s = .next s) ∧
    (l.up = false → l.down = false → l.since + 10 ^ 7 ≤ s.gtc → ∃ u, exec (.linkDown j) s = .next u ∧ goesDown u ∧
      (upLinks s = [] → u.parked = s.parked ++ (l.buffer ++ l.waiting).filter movable)) ∧
    (∀ p, l.up = true ∨ s.status ≠ 1 ∨ l.down = true ∧ s.gtc < l.since + 10 ^ 8 → exec (.linkRetrain j p) s = .next s) ∧
    (∀ p, l.up = false → s.status = 1 → (l.down = true → l.since + 10 ^ 8 ≤ s.gtc) → p < 256 →
      ((∀ q, otherPartner s j = some q → q = p) → ∃ u, exec (.linkRetrain j (some p)) s = .next u ∧ u.fabricAddr = p ∧
        (linkOf u j).up = true ∧ (linkOf u j).partner = some p ∧ (linkOf u j).recvSeq = l.recvSeq ∧
        (s.parked = [] → l.waiting = [] →
          (l.down = false → (linkOf u j).buffer = l.buffer ∧ (linkOf u j).out = l.out ++ l.buffer) ∧
          (l.down = true → l.buffer = [] → l.sets.length ≤ 256 → (linkOf u j).out.map (·.payload) =
            l.out.map (·.payload) ++ l.sets.map (fun e => Config.setPayload e.2.1 e.2.2.1 e.2.2.2 true)))) ∧
      (∀ q, otherPartner s j = some q → q ≠ p → ∃ u, exec (.linkRetrain j (some p)) s = .next u ∧ goesDown u ∧ u.fabricAddr = s.fabricAddr))

/-- Ethernet, on a queue pair's port: a request to write or send registered device bytes is sent with them, cut by the path
MTU, its immediate with the last packet; a READ is sent as a request; a receive buffer waits for a message; in an error state, or for a request
outside the registered regions (the model's choice, log entry 80), the ring gets an error; without rings no work is
taken; a packet that fails its check is dropped; the next of the sequence acts and is acknowledged, an earlier one acknowledged, one ahead
refused; a message fills the first receive buffer, one that finds none is sent
again; an acknowledgement completes the request whose last packet it names. A lost member ends every job that it is in. -/
def Sys2Proof.Oblig.ethernetEvents : Prop :=
  ∀ (s : State) (port qp : Nat), port < 6 → qp < 65536 →
    let x := qpAt s port qp
    let devBytes (u : State) : Prop := ∀ a, peek u .dev a = peek s .dev a
    let devBut (u : State) (pa n : Nat) : Prop := ∀ a, (a < pa ∨ pa + n ≤ a) → peek u .dev a = peek s .dev a
    (∀ w, x.rings = none → exec (.ethWorkRequest port qp w) s = .next s) ∧
    (∀ w c b n, x.port = port → x.rings = some (c, b, n) →
      (x.error = true ∨ inRegion s w.pa w.len = false → ∃ u, exec (.ethWorkRequest port qp w) s = .next u ∧ devBytes u ∧
        (qpAt u port qp).completions = x.completions ++ [{ id := w.id, ok := false }] ∧
        ∀ i < 64, peek u .host (b + 64 * (x.ended % n) + i) = Config.completionEntry w.id false 0 none i) ∧
      (x.error = false → inRegion s w.pa w.len = true → w.op ≠ .read → w.op ≠ .recv → poisoned s .dev w.pa w.len = false →
        let m := 1024 * 2 ^ (Config.pathMtu qp).val
        let data := peekN s .dev w.pa w.len
        ∃ u ps, exec (.ethWorkRequest port qp w) s = .next u ∧ devBytes u ∧ (qpAt u port qp).work = x.work ++ [w] ∧
          (qpAt u port qp).out = x.out ++ ps.map (·.packet) ∧ (qpAt u port qp).unacked = x.unacked ++ ps ∧ ps.length = max 1 ((w.len + m - 1) / m) ∧
          ∀ i e, ps[i]? = some e → e.id = w.id ∧ e.psn = (x.nextPsn + i) % 2 ^ 24 ∧
            let piece := (data.drop (m * i)).take m
            let last := decide (i + 1 = ps.length)
            let imm := if last then immOf w else none
            e.packet = if w.op = .write ∨ w.op = .writeImm then .write qp e.psn (w.remote + m * i) piece imm true
              else .send qp e.psn piece last imm true) ∧
      (x.error = false → inRegion s w.pa w.len = true → w.op = .read → readsOut x < 16 → (∀ e ∈ x.unacked, e.id ≠ w.id) →
        ∃ u, exec (.ethWorkRequest port qp w) s = .next u ∧ devBytes u ∧ (qpAt u port qp).work = x.work ++ [w] ∧
          (qpAt u port qp).out = x.out ++ [.readRequest qp x.nextPsn w.remote w.len true]) ∧
      (x.error = false → inRegion s w.pa w.len = true → w.op = .recv →
        ∃ u, exec (.ethWorkRequest port qp w) s = .next u ∧ devBytes u ∧ (qpAt u port qp).recvs = x.recvs ++ [w] ∧
          (qpAt u port qp).work = x.work ∧ (qpAt u port qp).out = x.out)) ∧
    (x.port = port → x.error = false → ∃ u, exec (.qpError port qp) s = .next u ∧ (qpAt u port qp).error = true ∧ (qpAt u port qp).work = [] ∧
      (qpAt u port qp).recvs = [] ∧ (qpAt u port qp).completions = x.completions ++ (x.work ++ x.recvs).map (fun w => { id := w.id, ok := false })) ∧
    (x.port ≠ port ∨ x.error = true → exec (.qpError port qp) s = .next s) ∧
    (∀ p, icrcOf p = false → exec (.ethernetPacketReceive port p) s = .next s) ∧
    (∀ psn pa data imm, x.port = port → x.error = false →
      let e := exec (.ethernetPacketReceive port (.write qp psn pa data imm true)) s
      (psn = x.expected → inRegion s pa data.length = false → e = .next s) ∧
      (psn = x.expected → inRegion s pa data.length = true → imm = none → ∃ u, e = .next u ∧
        peekN u .dev pa data.length = data ∧ OtherBytes s u .dev pa data.length ∧ (qpAt u port qp).expected = (psn + 1) % 2 ^ 24 ∧
        (qpAt u port qp).out = x.out ++ [.ack qp psn true] ∧ (qpAt u port qp).recvs = x.recvs ∧ (qpAt u port qp).completions = x.completions) ∧
      (∀ v, psn = x.expected → inRegion s pa data.length = true → imm = some v → x.recvs = [] → ∃ u, e = .next u ∧ SameBytes s u ∧
        (qpAt u port qp).expected = psn ∧ (qpAt u port qp).out = x.out ++ [.rnr qp psn true]) ∧
      (∀ v w rest, psn = x.expected → inRegion s pa data.length = true → imm = some v → x.recvs = w :: rest → x.filled ≤ w.len → ∃ u, e = .next u ∧
        peekN u .dev pa data.length = data ∧ devBut u pa data.length ∧ (qpAt u port qp).expected = (psn + 1) % 2 ^ 24 ∧
        (qpAt u port qp).out = x.out ++ [.ack qp psn true] ∧ (qpAt u port qp).recvs = rest ∧
        (qpAt u port qp).completions = x.completions ++ [{ id := w.id, ok := true, len := x.filled, imm := some v }]) ∧
      (psn ≠ x.expected →
        let old : Bool := decide ((x.expected + 2 ^ 24 - psn % 2 ^ 24) % 2 ^ 24 < 2 ^ 23)
        ∃ u, e = .next u ∧ SameBytes s u ∧ (qpAt u port qp).recvs = x.recvs ∧
          (qpAt u port qp).out = x.out ++ [if old then .ack qp psn true else .nak qp x.expected true])) ∧
    (∀ data last imm, x.port = port → x.error = false →
      let e := exec (.ethernetPacketReceive port (.send qp x.expected data last imm true)) s
      (x.recvs = [] → ∃ u, e = .next u ∧ SameBytes s u ∧ (qpAt u port qp).expected = x.expected ∧
        (qpAt u port qp).out = x.out ++ [.rnr qp x.expected true]) ∧
      (∀ w rest, x.recvs = w :: rest → x.filled + data.length ≤ w.len → ∃ u, e = .next u ∧
        peekN u .dev (w.pa + x.filled) data.length = data ∧ devBut u (w.pa + x.filled) data.length ∧
        (qpAt u port qp).expected = (x.expected + 1) % 2 ^ 24 ∧ (qpAt u port qp).out = x.out ++ [.ack qp x.expected true] ∧
        (qpAt u port qp).recvs = (if last then rest else x.recvs) ∧ (qpAt u port qp).filled = (if last then 0 else x.filled + data.length) ∧
        (qpAt u port qp).completions = x.completions ++
          if last then [{ id := w.id, ok := true, len := x.filled + data.length, imm := imm }] else []) ∧
      (∀ w rest, x.recvs = w :: rest → w.len < x.filled + data.length → ∃ u, e = .next u ∧ devBytes u ∧ (qpAt u port qp).error = true)) ∧
    (∀ e rest, x.port = port → x.error = false → x.unacked = e :: rest → (∀ f ∈ x.unacked, f.psn ≠ (e.psn + 2 ^ 24 - 1) % 2 ^ 24) →
      ∃ u, exec (.ethernetPacketReceive port (.rnr qp e.psn true)) s = .next u ∧ SameBytes s u ∧
        (qpAt u port qp).out = x.out ++ x.unacked.map (·.packet) ∧ (qpAt u port qp).unacked = x.unacked) ∧
    (∀ w e rest, x.port = port → x.error = false → w ∈ x.work → w.op ≠ .read → (x.work.map (·.id)).Nodup → x.unacked = e :: rest → e.id = w.id →
      (∀ f ∈ rest, f.id ≠ w.id ∧ f.psn ≠ e.psn) → ∃ u, exec (.ethernetPacketReceive port (.ack qp e.psn true)) s = .next u ∧ devBytes u ∧
        (qpAt u port qp).unacked = rest ∧ (qpAt u port qp).completions = x.completions ++ [{ id := w.id, ok := true }]) ∧
    (∀ addr, addr < 256 → ∃ u, exec (.memberUnreachable addr) s = .next u ∧
      ((∀ j ∈ s.jobs, j.isSet = true → addr ∉ j.addrs) →
        u = { s with masterAddr := if s.masterAddr = some addr then none else s.masterAddr }) ∧
      ∀ i ∈ u.jobs, i.isSet = true → addr ∈ i.addrs → i.addrs[i.rank]? = some addr)

/-- Links, Ethernet and lost members. The model's choices: what an acknowledgement names and when a link comes up (log entry 51), packets by
their meaning (52), what an unreachable member leaves (53), that no link trains before READY (60), a nack for each flit discarded (133), and
SEQ bits [15:12] not looked at (134). Payloads of time flits and port sets are free values (17). -/
def Obligations.FabricEvents : Prop := flitEvents ∧ replayEvents ∧ ethernetEvents

end

section

open Sys2Proof Sys2Proof.Machine Sys2Proof.Oblig

/-! ### Decoding, the step, and what holds of every state (R64 to R66, R75, R184, R363) -/

/-- A party whose fetch at pc reads the parcels p and ps, as many as R65 says, in state s and leaves state u. -/
def Sys2Proof.Oblig.Fetches (get : State → Word → Except Trap (Parcel × State)) (s : State) (pc : Word) (p : Parcel) (ps : List Parcel)
    (u : State) : Prop :=
  ∃ n v, get s pc = .ok (p, v) ∧ parcelCount p = .ok n ∧ fetchMore get (n - 1) v (pc + 4) = .ok (ps, u)

/-- A step runs the decoded instruction. When the turn of a step is a strand's, outside a repetition and with no cancel waiting,
and the parcels at its pc decode to an instruction, the step is that instruction's effect, after the fetch; the same for an awake
handler context. Parcels that decode to none are a malformed encoding; a fetch that fails is a fetch fault; inside a repetition the
step runs the buffered instruction with its fields staggered, or traps when a staggered field names no mapped register. The turn of an
event is that event's effect, that of an act of a unit beside the table is the act's, and a scheduled turn comes first (the order of
turns is the model's choice, log entry 24). -/
def Obligations.StepRunsDecoded : Prop :=
  ∀ (s s1 : State) (q : Turn), s.status ≠ 2 → chooseTurn (tick s) = (some q, s1) →
    (∀ r l, s.schedule = r :: l → q = r ∧ s1 = { tick s with schedule := l }) ∧
    (∀ i, q = .event i → step s = exec i s1) ∧
    (∀ a, q = .act a → step s = .next (performAct a s1)) ∧
    (∀ k t, q = .issue (.strand k) →
      let v : State := { s1 with cur := .strand k }
      findStrand v k = some t → strandReady v t = true → t.cancelPending = false → t.recapture = false →
        (∀ p ps u i, t.rep = none → Fetches (fun s a => fetchParcel s t a) v t.pc p ps u → decodeWhole (p :: ps) = .ok i →
          step s = exec i u) ∧
        (∀ p ps u e, t.rep = none → Fetches (fun s a => fetchParcel s t a) v t.pc p ps u → decodeWhole (p :: ps) = .error e →
          step s = exec (.malformedEncoding p) u) ∧
        (∀ e, t.rep = none → fetchParcel v t t.pc = .error e → step s = exec (.fetchFault (BitVec.ofNat 8 e.cause) e.tval) (noteTrap v e)) ∧
        (∀ r b i, t.rep = some r → r.body[r.idx]? = some b → passInstr v t r b.1 = .ok i → step s = exec i v) ∧
        (∀ r b e, t.rep = some r → r.body[r.idx]? = some b → passInstr v t r b.1 = .error e → step s = .next (takeTrap v k e))) ∧
    (∀ c, q = .issue (.handler c) →
      let v : State := { s1 with cur := .handler c }
      (coreOf v c).hawake = true → (coreOf v c).hfrozen = false → (coreOf v c).failed = false →
        ∀ p ps u i, Fetches (fun s a => fetchHandler s c a) v (coreOf v c).hpc p ps u → decodeWhole (p :: ps) = .ok i →
          step s = exec i u)

/-- The worked encodings of the spec: the bytes of vfma.f32 v1, v2, -v3, v4 rm=sr sat=on when x7.12, the parcel of
bbs.t x7, 12, 1b with the label 16 bytes back, and the parcel of tryacq a0, mslot, 1. The all-zero and the all-ones parcel are
illegal, as is any parcel with bits [1:0] other than 11. -/
def Obligations.DecodedWords : Prop :=
  decode [0x7F, 0x90, 0x40, 0x18, 0x03, 0xA1, 0xD0, 0x04, 0xE0, 0x61, 0x00, 0x00] =
    .ok (.vfma { vd := 1, vs1 := 2, vs2 := 3, n2 := true, vs3 := 4, ty := 10, rm := 5, sat := true, ge := true, gr := 7, gb := 12 }, []) ∧
  decodeTableWord 32 0xFEC3C80B = some (.bbs true 7 12 0x3F8) ∧
  decodeTableWord 32 0x5010050B = some (.tryacq 10 2 1 0) ∧
  decodeTableWord 32 0 = none ∧ decodeTableWord 32 0xFFFFFFFF = none ∧
  ∀ p : Parcel, p.extractLsb' 0 2 ≠ 3 → ∃ e, parcelCount p = .error e

/-- Decoding and encoding agree: the bytes of every well-formed instruction that has an encoding, whatever stands behind them,
decode to that instruction with every operand, and leave what stands behind. -/
def Obligations.DecodeEncode : Prop :=
  ∀ (i : Instr) (rest : List Byte), wellFormed i = true → encode i ≠ [] →
    decode (encodeBytes i ++ rest) = .ok (i, rest) ∧ (encode i).length ∈ [1, 3, 5]

/-- Every step keeps the canonical form of storage. -/
def Obligations.StepKeepsMemory : Prop :=
  ∀ s u : State, Memory.wf s = true → step s = .next u → Memory.wf u = true

/-- Right after reset: the reset column of the BAR0 registers and of the handler-context CSRs, the matrix arbiter at core 7 without
credit, every decoder table EMPTY, the GTC at 0, no command in any engine, and storage in its canonical form. What the spec gives no
reset value for, the sleeping handler context and the empty queues among it, is the model's choice (log entries 4 and 61). -/
def Obligations.ResetValues : Prop :=
  let s := State.reset
  (readBar s 0 = 0x00B02404 ∧ readBar s 8 = 0x00010101 ∧ ∀ o ∈ [0x10, 0x18, 0x20, 0x30, 0x40, 0x48, 0x50, 0x58, 0x60], readBar s o = 0) ∧
  (∀ ctx q, ctx < 16 → q < 64 → readBar s (doorbellOffset ctx q) = 0) ∧
  (∀ core < 3072, pairtabOf s core = core % 768 ^^^ 1 ∧ (coreOf s core).mxwt = 1 ∧ (coreOf s core).valid = false ∧
    (coreOf s core).faultq = [] ∧ (coreOf s core).hawake = false ∧
    readHandlerCsr s core 0x5C2 = some (.ok 0) ∧ readHandlerCsr s core 0x5C3 = some (.ok 0) ∧
    readHandlerCsr s core 0x5C4 = some (.ok 0) ∧ readHandlerCsr s core 0x5C5 = some (.ok 0) ∧
    readHandlerCsr s core 0x5C7 = some (.ok 0)) ∧
  (∀ cl < 384, (clusterOf s cl).arbPtr = 7 ∧ (clusterOf s cl).arbCredit = 0 ∧ (∀ k, (tget {} (clusterOf s cl).tables k).state = 0) ∧
    (clusterOf s cl).copies = [] ∧ (clusterOf s cl).xq = [] ∧ ∀ k, tget [] (clusterOf s cl).mq k = []) ∧
  s.strands = [] ∧ Memory.wf s = true

end
end

