-- ==== Sys2Proof/Laws/Tab.lean ====
section
/-! SUPPORT. Laws of sparse tables: reading after writing, and the canonical form. -/

namespace Sys2Proof.Machine

/-- Reading after a key has been bound. -/
theorem tget_tins {α : Type} (d v : α) (t : Tab α) (k j : Nat) :
    tget d (tins t k v) j = if j = k then v else tget d t j := by
  induction t with
  | nil =>
    by_cases h : j = k
    · simp [tins, tget, h]
    · have hk : ¬ k = j := fun e => h e.symm
      simp [tins, tget, h, hk]
  | cons e t ih =>
    obtain ⟨i, w⟩ := e
    rw [tins]
    by_cases hi : i = k
    · subst hi; by_cases hj : j = i <;> simp [tget, hj, eq_comm]
    · by_cases hl : k < i
      · by_cases hj : j = k
        · simp [hi, hl, tget, hj]
        · have hk : ¬ k = j := fun h => hj h.symm
          simp [hi, hl, tget, hj, hk]
      · by_cases hj : j = k
        · subst hj; simp [hi, hl, tget, ih]
        · simp [hi, hl, tget, ih, hj]

/-- Reading after a key has been removed. -/
theorem tget_tdel {α : Type} (d : α) (t : Tab α) (k j : Nat) :
    tget d (tdel t k) j = if j = k then d else tget d t j := by
  induction t with
  | nil => simp [tdel, tget]
  | cons e t ih =>
    obtain ⟨i, w⟩ := e
    simp only [tdel] at ih ⊢
    by_cases hj : j = k <;> by_cases hi : i = k <;> simp_all [tget] <;> omega

/-- Reading after writing. -/
theorem tget_tset {α : Type} [DecidableEq α] (d : α) (t : Tab α) (k j : Nat) (v : α) :
    tget d (tset d t k v) j = if j = k then v else tget d t j := by
  unfold tset
  split
  · rename_i h; rw [tget_tdel, h]
  · rw [tget_tins]

@[simp] theorem tget_tset_self {α : Type} [DecidableEq α] (d : α) (t : Tab α) (k : Nat) (v : α) :
    tget d (tset d t k v) k = v := by simp [tget_tset]

theorem tget_tset_ne {α : Type} [DecidableEq α] (d : α) (t : Tab α) {k j : Nat} (v : α) (h : j ≠ k) :
    tget d (tset d t k v) j = tget d t j := by simp [tget_tset, h]

@[simp] theorem tget_tins_self {α : Type} (d v : α) (t : Tab α) (k : Nat) : tget d (tins t k v) k = v := by
  simp [tget_tins]

theorem tget_tins_ne {α : Type} (d v : α) (t : Tab α) {k j : Nat} (h : j ≠ k) : tget d (tins t k v) j = tget d t j := by
  simp [tget_tins, h]

/-- Binding a key twice is binding it once. -/
theorem tins_tins {α : Type} (t : Tab α) (k : Nat) (v w : α) : tins (tins t k v) k w = tins t k w := by
  induction t with
  | nil => simp [tins]
  | cons e t ih =>
    obtain ⟨i, x⟩ := e
    rw [tins]
    by_cases hi : i = k
    · simp [hi, tins]
    · by_cases hl : k < i
      · simp [hi, hl, tins]
      · simp [hi, hl, tins, ih]

theorem twfFrom_mono {α : Type} [DecidableEq α] (d : α) {lo hi : Nat} (t : Tab α) (h : lo ≤ hi)
    (w : twfFrom d hi t = true) : twfFrom d lo t = true := by
  cases t with
  | nil => rfl
  | cons e t => simp_all [twfFrom]; omega

theorem twfFrom_filter {α : Type} [DecidableEq α] (d : α) (p : Nat × α → Bool) (t : Tab α) (lo : Nat)
    (w : twfFrom d lo t = true) : twfFrom d lo (t.filter p) = true := by
  induction t generalizing lo with
  | nil => rfl
  | cons e t ih =>
    simp only [twfFrom, Bool.and_eq_true, decide_eq_true_eq] at w
    rw [List.filter_cons]
    split
    · simp only [twfFrom, Bool.and_eq_true, decide_eq_true_eq]
      exact ⟨w.1, ih _ w.2⟩
    · exact twfFrom_mono d _ (by omega) (ih _ w.2)

theorem twfFrom_tins {α : Type} [DecidableEq α] (d v : α) (hv : v ≠ d) (t : Tab α) (lo k : Nat) (hk : lo ≤ k)
    (w : twfFrom d lo t = true) : twfFrom d lo (tins t k v) = true := by
  induction t generalizing lo with
  | nil => simp [tins, twfFrom, hv, hk]
  | cons e t ih =>
    simp only [twfFrom, Bool.and_eq_true, decide_eq_true_eq] at w
    simp only [tins]
    split
    · subst_vars; simp_all [twfFrom]
    · split
      · simp only [twfFrom, Bool.and_eq_true, decide_eq_true_eq]
        refine ⟨⟨hk, hv⟩, ⟨by omega, w.1.2⟩, w.2⟩
      · simp only [twfFrom, Bool.and_eq_true, decide_eq_true_eq]
        exact ⟨w.1, ih _ (by omega) w.2⟩

/-- A write keeps the canonical form. -/
theorem twf_tset {α : Type} [DecidableEq α] (d : α) (t : Tab α) (k : Nat) (v : α) (w : twf d t = true) :
    twf d (tset d t k v) = true := by
  unfold tset
  split
  · exact twfFrom_filter d _ t 0 w
  · rename_i h; exact twfFrom_tins d v h t 0 k (Nat.zero_le _) w

/-- Removing entries keeps the canonical form. -/
theorem twf_filter {α : Type} [DecidableEq α] (d : α) (p : Nat × α → Bool) (t : Tab α) (w : twf d t = true) :
    twf d (t.filter p) = true := twfFrom_filter d p t 0 w

end Sys2Proof.Machine
end

