-- ==== Sys2Proof/Laws/State.lean ====
section
/-! SUPPORT. What each update of a unit leaves of the state: one lemma per field per update, and reading a unit back. -/

namespace Sys2Proof.Machine

@[simp] theorem setStrand_crews (s : State) (k : StrandKey) (g : Strand → Strand) : (setStrand s k g).crews = s.crews := rfl
@[simp] theorem setStrand_retained (s : State) (k : StrandKey) (g : Strand → Strand) : (setStrand s k g).retained = s.retained := rfl
@[simp] theorem setStrand_postHolds (s : State) (k : StrandKey) (g : Strand → Strand) : (setStrand s k g).postHolds = s.postHolds := rfl
@[simp] theorem setStrand_cores (s : State) (k : StrandKey) (g : Strand → Strand) : (setStrand s k g).cores = s.cores := rfl
@[simp] theorem setStrand_clusters (s : State) (k : StrandKey) (g : Strand → Strand) : (setStrand s k g).clusters = s.clusters := rfl
@[simp] theorem setStrand_dies (s : State) (k : StrandKey) (g : Strand → Strand) : (setStrand s k g).dies = s.dies := rfl
@[simp] theorem setStrand_runs (s : State) (k : StrandKey) (g : Strand → Strand) : (setStrand s k g).runs = s.runs := rfl
@[simp] theorem setStrand_graphs (s : State) (k : StrandKey) (g : Strand → Strand) : (setStrand s k g).graphs = s.graphs := rfl
@[simp] theorem setStrand_contexts (s : State) (k : StrandKey) (g : Strand → Strand) : (setStrand s k g).contexts = s.contexts := rfl
@[simp] theorem setStrand_jobs (s : State) (k : StrandKey) (g : Strand → Strand) : (setStrand s k g).jobs = s.jobs := rfl
@[simp] theorem setStrand_colls (s : State) (k : StrandKey) (g : Strand → Strand) : (setStrand s k g).colls = s.colls := rfl
@[simp] theorem setStrand_links (s : State) (k : StrandKey) (g : Strand → Strand) : (setStrand s k g).links = s.links := rfl
@[simp] theorem setStrand_qps (s : State) (k : StrandKey) (g : Strand → Strand) : (setStrand s k g).qps = s.qps := rfl
@[simp] theorem setStrand_regions (s : State) (k : StrandKey) (g : Strand → Strand) : (setStrand s k g).regions = s.regions := rfl
@[simp] theorem setStrand_d2d (s : State) (k : StrandKey) (g : Strand → Strand) : (setStrand s k g).d2d = s.d2d := rfl
@[simp] theorem setStrand_shards (s : State) (k : StrandKey) (g : Strand → Strand) : (setStrand s k g).shards = s.shards := rfl
@[simp] theorem setStrand_dev (s : State) (k : StrandKey) (g : Strand → Strand) : (setStrand s k g).dev = s.dev := rfl
@[simp] theorem setStrand_host (s : State) (k : StrandKey) (g : Strand → Strand) : (setStrand s k g).host = s.host := rfl
@[simp] theorem setStrand_spad (s : State) (k : StrandKey) (g : Strand → Strand) : (setStrand s k g).spad = s.spad := rfl
@[simp] theorem setStrand_wbuf (s : State) (k : StrandKey) (g : Strand → Strand) : (setStrand s k g).wbuf = s.wbuf := rfl
@[simp] theorem setStrand_devBad (s : State) (k : StrandKey) (g : Strand → Strand) : (setStrand s k g).devBad = s.devBad := rfl
@[simp] theorem setStrand_hostBad (s : State) (k : StrandKey) (g : Strand → Strand) : (setStrand s k g).hostBad = s.hostBad := rfl
@[simp] theorem setStrand_spadBad (s : State) (k : StrandKey) (g : Strand → Strand) : (setStrand s k g).spadBad = s.spadBad := rfl
@[simp] theorem setStrand_wbufBad (s : State) (k : StrandKey) (g : Strand → Strand) : (setStrand s k g).wbufBad = s.wbufBad := rfl
@[simp] theorem setStrand_owner (s : State) (k : StrandKey) (g : Strand → Strand) : (setStrand s k g).owner = s.owner := rfl
@[simp] theorem setStrand_hostDeny (s : State) (k : StrandKey) (g : Strand → Strand) : (setStrand s k g).hostDeny = s.hostDeny := rfl
@[simp] theorem setStrand_status (s : State) (k : StrandKey) (g : Strand → Strand) : (setStrand s k g).status = s.status := rfl
@[simp] theorem setStrand_diesUp (s : State) (k : StrandKey) (g : Strand → Strand) : (setStrand s k g).diesUp = s.diesUp := rfl
@[simp] theorem setStrand_faultPend (s : State) (k : StrandKey) (g : Strand → Strand) : (setStrand s k g).faultPend = s.faultPend := rfl
@[simp] theorem setStrand_cmdAddr (s : State) (k : StrandKey) (g : Strand → Strand) : (setStrand s k g).cmdAddr = s.cmdAddr := rfl
@[simp] theorem setStrand_cmdBusy (s : State) (k : StrandKey) (g : Strand → Strand) : (setStrand s k g).cmdBusy = s.cmdBusy := rfl
@[simp] theorem setStrand_cmdBlock (s : State) (k : StrandKey) (g : Strand → Strand) : (setStrand s k g).cmdBlock = s.cmdBlock := rfl
@[simp] theorem setStrand_cmdStatus (s : State) (k : StrandKey) (g : Strand → Strand) : (setStrand s k g).cmdStatus = s.cmdStatus := rfl
@[simp] theorem setStrand_cmdResult (s : State) (k : StrandKey) (g : Strand → Strand) : (setStrand s k g).cmdResult = s.cmdResult := rfl
@[simp] theorem setStrand_logBase (s : State) (k : StrandKey) (g : Strand → Strand) : (setStrand s k g).logBase = s.logBase := rfl
@[simp] theorem setStrand_logSize (s : State) (k : StrandKey) (g : Strand → Strand) : (setStrand s k g).logSize = s.logSize := rfl
@[simp] theorem setStrand_logTail (s : State) (k : StrandKey) (g : Strand → Strand) : (setStrand s k g).logTail = s.logTail := rfl
@[simp] theorem setStrand_logHead (s : State) (k : StrandKey) (g : Strand → Strand) : (setStrand s k g).logHead = s.logHead := rfl
@[simp] theorem setStrand_logLost (s : State) (k : StrandKey) (g : Strand → Strand) : (setStrand s k g).logLost = s.logLost := rfl
@[simp] theorem setStrand_recCount (s : State) (k : StrandKey) (g : Strand → Strand) : (setStrand s k g).recCount = s.recCount := rfl
@[simp] theorem setStrand_vectors (s : State) (k : StrandKey) (g : Strand → Strand) : (setStrand s k g).vectors = s.vectors := rfl
@[simp] theorem setStrand_gtc (s : State) (k : StrandKey) (g : Strand → Strand) : (setStrand s k g).gtc = s.gtc := rfl
@[simp] theorem setStrand_gtcSlow (s : State) (k : StrandKey) (g : Strand → Strand) : (setStrand s k g).gtcSlow = s.gtcSlow := rfl
@[simp] theorem setStrand_fabricAddr (s : State) (k : StrandKey) (g : Strand → Strand) : (setStrand s k g).fabricAddr = s.fabricAddr := rfl
@[simp] theorem setStrand_masterAddr (s : State) (k : StrandKey) (g : Strand → Strand) : (setStrand s k g).masterAddr = s.masterAddr := rfl
@[simp] theorem setStrand_nextId (s : State) (k : StrandKey) (g : Strand → Strand) : (setStrand s k g).nextId = s.nextId := rfl
@[simp] theorem setStrand_nextHandle (s : State) (k : StrandKey) (g : Strand → Strand) : (setStrand s k g).nextHandle = s.nextHandle := rfl
@[simp] theorem setStrand_cur (s : State) (k : StrandKey) (g : Strand → Strand) : (setStrand s k g).cur = s.cur := rfl
@[simp] theorem setStrand_schedule (s : State) (k : StrandKey) (g : Strand → Strand) : (setStrand s k g).schedule = s.schedule := rfl
@[simp] theorem setStrand_due (s : State) (k : StrandKey) (g : Strand → Strand) : (setStrand s k g).due = s.due := rfl
@[simp] theorem setStrand_steps (s : State) (k : StrandKey) (g : Strand → Strand) : (setStrand s k g).steps = s.steps := rfl
@[simp] theorem setStrand_response (s : State) (k : StrandKey) (g : Strand → Strand) : (setStrand s k g).response = s.response := rfl

@[simp] theorem setRun_strands (s : State) (k : Nat) (g : Run → Run) : (setRun s k g).strands = s.strands := rfl
@[simp] theorem setRun_crews (s : State) (k : Nat) (g : Run → Run) : (setRun s k g).crews = s.crews := rfl
@[simp] theorem setRun_retained (s : State) (k : Nat) (g : Run → Run) : (setRun s k g).retained = s.retained := rfl
@[simp] theorem setRun_postHolds (s : State) (k : Nat) (g : Run → Run) : (setRun s k g).postHolds = s.postHolds := rfl
@[simp] theorem setRun_cores (s : State) (k : Nat) (g : Run → Run) : (setRun s k g).cores = s.cores := rfl
@[simp] theorem setRun_clusters (s : State) (k : Nat) (g : Run → Run) : (setRun s k g).clusters = s.clusters := rfl
@[simp] theorem setRun_dies (s : State) (k : Nat) (g : Run → Run) : (setRun s k g).dies = s.dies := rfl
@[simp] theorem setRun_graphs (s : State) (k : Nat) (g : Run → Run) : (setRun s k g).graphs = s.graphs := rfl
@[simp] theorem setRun_contexts (s : State) (k : Nat) (g : Run → Run) : (setRun s k g).contexts = s.contexts := rfl
@[simp] theorem setRun_jobs (s : State) (k : Nat) (g : Run → Run) : (setRun s k g).jobs = s.jobs := rfl
@[simp] theorem setRun_colls (s : State) (k : Nat) (g : Run → Run) : (setRun s k g).colls = s.colls := rfl
@[simp] theorem setRun_links (s : State) (k : Nat) (g : Run → Run) : (setRun s k g).links = s.links := rfl
@[simp] theorem setRun_qps (s : State) (k : Nat) (g : Run → Run) : (setRun s k g).qps = s.qps := rfl
@[simp] theorem setRun_regions (s : State) (k : Nat) (g : Run → Run) : (setRun s k g).regions = s.regions := rfl
@[simp] theorem setRun_d2d (s : State) (k : Nat) (g : Run → Run) : (setRun s k g).d2d = s.d2d := rfl
@[simp] theorem setRun_shards (s : State) (k : Nat) (g : Run → Run) : (setRun s k g).shards = s.shards := rfl
@[simp] theorem setRun_dev (s : State) (k : Nat) (g : Run → Run) : (setRun s k g).dev = s.dev := rfl
@[simp] theorem setRun_host (s : State) (k : Nat) (g : Run → Run) : (setRun s k g).host = s.host := rfl
@[simp] theorem setRun_spad (s : State) (k : Nat) (g : Run → Run) : (setRun s k g).spad = s.spad := rfl
@[simp] theorem setRun_wbuf (s : State) (k : Nat) (g : Run → Run) : (setRun s k g).wbuf = s.wbuf := rfl
@[simp] theorem setRun_devBad (s : State) (k : Nat) (g : Run → Run) : (setRun s k g).devBad = s.devBad := rfl
@[simp] theorem setRun_hostBad (s : State) (k : Nat) (g : Run → Run) : (setRun s k g).hostBad = s.hostBad := rfl
@[simp] theorem setRun_spadBad (s : State) (k : Nat) (g : Run → Run) : (setRun s k g).spadBad = s.spadBad := rfl
@[simp] theorem setRun_wbufBad (s : State) (k : Nat) (g : Run → Run) : (setRun s k g).wbufBad = s.wbufBad := rfl
@[simp] theorem setRun_owner (s : State) (k : Nat) (g : Run → Run) : (setRun s k g).owner = s.owner := rfl
@[simp] theorem setRun_hostDeny (s : State) (k : Nat) (g : Run → Run) : (setRun s k g).hostDeny = s.hostDeny := rfl
@[simp] theorem setRun_status (s : State) (k : Nat) (g : Run → Run) : (setRun s k g).status = s.status := rfl
@[simp] theorem setRun_diesUp (s : State) (k : Nat) (g : Run → Run) : (setRun s k g).diesUp = s.diesUp := rfl
@[simp] theorem setRun_faultPend (s : State) (k : Nat) (g : Run → Run) : (setRun s k g).faultPend = s.faultPend := rfl
@[simp] theorem setRun_cmdAddr (s : State) (k : Nat) (g : Run → Run) : (setRun s k g).cmdAddr = s.cmdAddr := rfl
@[simp] theorem setRun_cmdBusy (s : State) (k : Nat) (g : Run → Run) : (setRun s k g).cmdBusy = s.cmdBusy := rfl
@[simp] theorem setRun_cmdBlock (s : State) (k : Nat) (g : Run → Run) : (setRun s k g).cmdBlock = s.cmdBlock := rfl
@[simp] theorem setRun_cmdStatus (s : State) (k : Nat) (g : Run → Run) : (setRun s k g).cmdStatus = s.cmdStatus := rfl
@[simp] theorem setRun_cmdResult (s : State) (k : Nat) (g : Run → Run) : (setRun s k g).cmdResult = s.cmdResult := rfl
@[simp] theorem setRun_logBase (s : State) (k : Nat) (g : Run → Run) : (setRun s k g).logBase = s.logBase := rfl
@[simp] theorem setRun_logSize (s : State) (k : Nat) (g : Run → Run) : (setRun s k g).logSize = s.logSize := rfl
@[simp] theorem setRun_logTail (s : State) (k : Nat) (g : Run → Run) : (setRun s k g).logTail = s.logTail := rfl
@[simp] theorem setRun_logHead (s : State) (k : Nat) (g : Run → Run) : (setRun s k g).logHead = s.logHead := rfl
@[simp] theorem setRun_logLost (s : State) (k : Nat) (g : Run → Run) : (setRun s k g).logLost = s.logLost := rfl
@[simp] theorem setRun_recCount (s : State) (k : Nat) (g : Run → Run) : (setRun s k g).recCount = s.recCount := rfl
@[simp] theorem setRun_vectors (s : State) (k : Nat) (g : Run → Run) : (setRun s k g).vectors = s.vectors := rfl
@[simp] theorem setRun_gtc (s : State) (k : Nat) (g : Run → Run) : (setRun s k g).gtc = s.gtc := rfl
@[simp] theorem setRun_gtcSlow (s : State) (k : Nat) (g : Run → Run) : (setRun s k g).gtcSlow = s.gtcSlow := rfl
@[simp] theorem setRun_fabricAddr (s : State) (k : Nat) (g : Run → Run) : (setRun s k g).fabricAddr = s.fabricAddr := rfl
@[simp] theorem setRun_masterAddr (s : State) (k : Nat) (g : Run → Run) : (setRun s k g).masterAddr = s.masterAddr := rfl
@[simp] theorem setRun_nextId (s : State) (k : Nat) (g : Run → Run) : (setRun s k g).nextId = s.nextId := rfl
@[simp] theorem setRun_nextHandle (s : State) (k : Nat) (g : Run → Run) : (setRun s k g).nextHandle = s.nextHandle := rfl
@[simp] theorem setRun_cur (s : State) (k : Nat) (g : Run → Run) : (setRun s k g).cur = s.cur := rfl
@[simp] theorem setRun_schedule (s : State) (k : Nat) (g : Run → Run) : (setRun s k g).schedule = s.schedule := rfl
@[simp] theorem setRun_due (s : State) (k : Nat) (g : Run → Run) : (setRun s k g).due = s.due := rfl
@[simp] theorem setRun_steps (s : State) (k : Nat) (g : Run → Run) : (setRun s k g).steps = s.steps := rfl
@[simp] theorem setRun_response (s : State) (k : Nat) (g : Run → Run) : (setRun s k g).response = s.response := rfl

@[simp] theorem setCore_strands (s : State) (k : Nat) (g : Core → Core) : (setCore s k g).strands = s.strands := rfl
@[simp] theorem setCore_crews (s : State) (k : Nat) (g : Core → Core) : (setCore s k g).crews = s.crews := rfl
@[simp] theorem setCore_retained (s : State) (k : Nat) (g : Core → Core) : (setCore s k g).retained = s.retained := rfl
@[simp] theorem setCore_postHolds (s : State) (k : Nat) (g : Core → Core) : (setCore s k g).postHolds = s.postHolds := rfl
@[simp] theorem setCore_clusters (s : State) (k : Nat) (g : Core → Core) : (setCore s k g).clusters = s.clusters := rfl
@[simp] theorem setCore_dies (s : State) (k : Nat) (g : Core → Core) : (setCore s k g).dies = s.dies := rfl
@[simp] theorem setCore_runs (s : State) (k : Nat) (g : Core → Core) : (setCore s k g).runs = s.runs := rfl
@[simp] theorem setCore_graphs (s : State) (k : Nat) (g : Core → Core) : (setCore s k g).graphs = s.graphs := rfl
@[simp] theorem setCore_contexts (s : State) (k : Nat) (g : Core → Core) : (setCore s k g).contexts = s.contexts := rfl
@[simp] theorem setCore_jobs (s : State) (k : Nat) (g : Core → Core) : (setCore s k g).jobs = s.jobs := rfl
@[simp] theorem setCore_colls (s : State) (k : Nat) (g : Core → Core) : (setCore s k g).colls = s.colls := rfl
@[simp] theorem setCore_links (s : State) (k : Nat) (g : Core → Core) : (setCore s k g).links = s.links := rfl
@[simp] theorem setCore_qps (s : State) (k : Nat) (g : Core → Core) : (setCore s k g).qps = s.qps := rfl
@[simp] theorem setCore_regions (s : State) (k : Nat) (g : Core → Core) : (setCore s k g).regions = s.regions := rfl
@[simp] theorem setCore_d2d (s : State) (k : Nat) (g : Core → Core) : (setCore s k g).d2d = s.d2d := rfl
@[simp] theorem setCore_shards (s : State) (k : Nat) (g : Core → Core) : (setCore s k g).shards = s.shards := rfl
@[simp] theorem setCore_dev (s : State) (k : Nat) (g : Core → Core) : (setCore s k g).dev = s.dev := rfl
@[simp] theorem setCore_host (s : State) (k : Nat) (g : Core → Core) : (setCore s k g).host = s.host := rfl
@[simp] theorem setCore_spad (s : State) (k : Nat) (g : Core → Core) : (setCore s k g).spad = s.spad := rfl
@[simp] theorem setCore_wbuf (s : State) (k : Nat) (g : Core → Core) : (setCore s k g).wbuf = s.wbuf := rfl
@[simp] theorem setCore_devBad (s : State) (k : Nat) (g : Core → Core) : (setCore s k g).devBad = s.devBad := rfl
@[simp] theorem setCore_hostBad (s : State) (k : Nat) (g : Core → Core) : (setCore s k g).hostBad = s.hostBad := rfl
@[simp] theorem setCore_spadBad (s : State) (k : Nat) (g : Core → Core) : (setCore s k g).spadBad = s.spadBad := rfl
@[simp] theorem setCore_wbufBad (s : State) (k : Nat) (g : Core → Core) : (setCore s k g).wbufBad = s.wbufBad := rfl
@[simp] theorem setCore_owner (s : State) (k : Nat) (g : Core → Core) : (setCore s k g).owner = s.owner := rfl
@[simp] theorem setCore_hostDeny (s : State) (k : Nat) (g : Core → Core) : (setCore s k g).hostDeny = s.hostDeny := rfl
@[simp] theorem setCore_status (s : State) (k : Nat) (g : Core → Core) : (setCore s k g).status = s.status := rfl
@[simp] theorem setCore_diesUp (s : State) (k : Nat) (g : Core → Core) : (setCore s k g).diesUp = s.diesUp := rfl
@[simp] theorem setCore_faultPend (s : State) (k : Nat) (g : Core → Core) : (setCore s k g).faultPend = s.faultPend := rfl
@[simp] theorem setCore_cmdAddr (s : State) (k : Nat) (g : Core → Core) : (setCore s k g).cmdAddr = s.cmdAddr := rfl
@[simp] theorem setCore_cmdBusy (s : State) (k : Nat) (g : Core → Core) : (setCore s k g).cmdBusy = s.cmdBusy := rfl
@[simp] theorem setCore_cmdBlock (s : State) (k : Nat) (g : Core → Core) : (setCore s k g).cmdBlock = s.cmdBlock := rfl
@[simp] theorem setCore_cmdStatus (s : State) (k : Nat) (g : Core → Core) : (setCore s k g).cmdStatus = s.cmdStatus := rfl
@[simp] theorem setCore_cmdResult (s : State) (k : Nat) (g : Core → Core) : (setCore s k g).cmdResult = s.cmdResult := rfl
@[simp] theorem setCore_logBase (s : State) (k : Nat) (g : Core → Core) : (setCore s k g).logBase = s.logBase := rfl
@[simp] theorem setCore_logSize (s : State) (k : Nat) (g : Core → Core) : (setCore s k g).logSize = s.logSize := rfl
@[simp] theorem setCore_logTail (s : State) (k : Nat) (g : Core → Core) : (setCore s k g).logTail = s.logTail := rfl
@[simp] theorem setCore_logHead (s : State) (k : Nat) (g : Core → Core) : (setCore s k g).logHead = s.logHead := rfl
@[simp] theorem setCore_logLost (s : State) (k : Nat) (g : Core → Core) : (setCore s k g).logLost = s.logLost := rfl
@[simp] theorem setCore_recCount (s : State) (k : Nat) (g : Core → Core) : (setCore s k g).recCount = s.recCount := rfl
@[simp] theorem setCore_vectors (s : State) (k : Nat) (g : Core → Core) : (setCore s k g).vectors = s.vectors := rfl
@[simp] theorem setCore_gtc (s : State) (k : Nat) (g : Core → Core) : (setCore s k g).gtc = s.gtc := rfl
@[simp] theorem setCore_gtcSlow (s : State) (k : Nat) (g : Core → Core) : (setCore s k g).gtcSlow = s.gtcSlow := rfl
@[simp] theorem setCore_fabricAddr (s : State) (k : Nat) (g : Core → Core) : (setCore s k g).fabricAddr = s.fabricAddr := rfl
@[simp] theorem setCore_masterAddr (s : State) (k : Nat) (g : Core → Core) : (setCore s k g).masterAddr = s.masterAddr := rfl
@[simp] theorem setCore_nextId (s : State) (k : Nat) (g : Core → Core) : (setCore s k g).nextId = s.nextId := rfl
@[simp] theorem setCore_nextHandle (s : State) (k : Nat) (g : Core → Core) : (setCore s k g).nextHandle = s.nextHandle := rfl
@[simp] theorem setCore_cur (s : State) (k : Nat) (g : Core → Core) : (setCore s k g).cur = s.cur := rfl
@[simp] theorem setCore_schedule (s : State) (k : Nat) (g : Core → Core) : (setCore s k g).schedule = s.schedule := rfl
@[simp] theorem setCore_due (s : State) (k : Nat) (g : Core → Core) : (setCore s k g).due = s.due := rfl
@[simp] theorem setCore_steps (s : State) (k : Nat) (g : Core → Core) : (setCore s k g).steps = s.steps := rfl
@[simp] theorem setCore_response (s : State) (k : Nat) (g : Core → Core) : (setCore s k g).response = s.response := rfl

@[simp] theorem setCluster_strands (s : State) (k : Nat) (g : Cluster → Cluster) : (setCluster s k g).strands = s.strands := rfl
@[simp] theorem setCluster_crews (s : State) (k : Nat) (g : Cluster → Cluster) : (setCluster s k g).crews = s.crews := rfl
@[simp] theorem setCluster_retained (s : State) (k : Nat) (g : Cluster → Cluster) : (setCluster s k g).retained = s.retained := rfl
@[simp] theorem setCluster_postHolds (s : State) (k : Nat) (g : Cluster → Cluster) : (setCluster s k g).postHolds = s.postHolds := rfl
@[simp] theorem setCluster_cores (s : State) (k : Nat) (g : Cluster → Cluster) : (setCluster s k g).cores = s.cores := rfl
@[simp] theorem setCluster_dies (s : State) (k : Nat) (g : Cluster → Cluster) : (setCluster s k g).dies = s.dies := rfl
@[simp] theorem setCluster_runs (s : State) (k : Nat) (g : Cluster → Cluster) : (setCluster s k g).runs = s.runs := rfl
@[simp] theorem setCluster_graphs (s : State) (k : Nat) (g : Cluster → Cluster) : (setCluster s k g).graphs = s.graphs := rfl
@[simp] theorem setCluster_contexts (s : State) (k : Nat) (g : Cluster → Cluster) : (setCluster s k g).contexts = s.contexts := rfl
@[simp] theorem setCluster_jobs (s : State) (k : Nat) (g : Cluster → Cluster) : (setCluster s k g).jobs = s.jobs := rfl
@[simp] theorem setCluster_colls (s : State) (k : Nat) (g : Cluster → Cluster) : (setCluster s k g).colls = s.colls := rfl
@[simp] theorem setCluster_links (s : State) (k : Nat) (g : Cluster → Cluster) : (setCluster s k g).links = s.links := rfl
@[simp] theorem setCluster_qps (s : State) (k : Nat) (g : Cluster → Cluster) : (setCluster s k g).qps = s.qps := rfl
@[simp] theorem setCluster_regions (s : State) (k : Nat) (g : Cluster → Cluster) : (setCluster s k g).regions = s.regions := rfl
@[simp] theorem setCluster_d2d (s : State) (k : Nat) (g : Cluster → Cluster) : (setCluster s k g).d2d = s.d2d := rfl
@[simp] theorem setCluster_shards (s : State) (k : Nat) (g : Cluster → Cluster) : (setCluster s k g).shards = s.shards := rfl
@[simp] theorem setCluster_dev (s : State) (k : Nat) (g : Cluster → Cluster) : (setCluster s k g).dev = s.dev := rfl
@[simp] theorem setCluster_host (s : State) (k : Nat) (g : Cluster → Cluster) : (setCluster s k g).host = s.host := rfl
@[simp] theorem setCluster_spad (s : State) (k : Nat) (g : Cluster → Cluster) : (setCluster s k g).spad = s.spad := rfl
@[simp] theorem setCluster_wbuf (s : State) (k : Nat) (g : Cluster → Cluster) : (setCluster s k g).wbuf = s.wbuf := rfl
@[simp] theorem setCluster_devBad (s : State) (k : Nat) (g : Cluster → Cluster) : (setCluster s k g).devBad = s.devBad := rfl
@[simp] theorem setCluster_hostBad (s : State) (k : Nat) (g : Cluster → Cluster) : (setCluster s k g).hostBad = s.hostBad := rfl
@[simp] theorem setCluster_spadBad (s : State) (k : Nat) (g : Cluster → Cluster) : (setCluster s k g).spadBad = s.spadBad := rfl
@[simp] theorem setCluster_wbufBad (s : State) (k : Nat) (g : Cluster → Cluster) : (setCluster s k g).wbufBad = s.wbufBad := rfl
@[simp] theorem setCluster_owner (s : State) (k : Nat) (g : Cluster → Cluster) : (setCluster s k g).owner = s.owner := rfl
@[simp] theorem setCluster_hostDeny (s : State) (k : Nat) (g : Cluster → Cluster) : (setCluster s k g).hostDeny = s.hostDeny := rfl
@[simp] theorem setCluster_status (s : State) (k : Nat) (g : Cluster → Cluster) : (setCluster s k g).status = s.status := rfl
@[simp] theorem setCluster_diesUp (s : State) (k : Nat) (g : Cluster → Cluster) : (setCluster s k g).diesUp = s.diesUp := rfl
@[simp] theorem setCluster_faultPend (s : State) (k : Nat) (g : Cluster → Cluster) : (setCluster s k g).faultPend = s.faultPend := rfl
@[simp] theorem setCluster_cmdAddr (s : State) (k : Nat) (g : Cluster → Cluster) : (setCluster s k g).cmdAddr = s.cmdAddr := rfl
@[simp] theorem setCluster_cmdBusy (s : State) (k : Nat) (g : Cluster → Cluster) : (setCluster s k g).cmdBusy = s.cmdBusy := rfl
@[simp] theorem setCluster_cmdBlock (s : State) (k : Nat) (g : Cluster → Cluster) : (setCluster s k g).cmdBlock = s.cmdBlock := rfl
@[simp] theorem setCluster_cmdStatus (s : State) (k : Nat) (g : Cluster → Cluster) : (setCluster s k g).cmdStatus = s.cmdStatus := rfl
@[simp] theorem setCluster_cmdResult (s : State) (k : Nat) (g : Cluster → Cluster) : (setCluster s k g).cmdResult = s.cmdResult := rfl
@[simp] theorem setCluster_logBase (s : State) (k : Nat) (g : Cluster → Cluster) : (setCluster s k g).logBase = s.logBase := rfl
@[simp] theorem setCluster_logSize (s : State) (k : Nat) (g : Cluster → Cluster) : (setCluster s k g).logSize = s.logSize := rfl
@[simp] theorem setCluster_logTail (s : State) (k : Nat) (g : Cluster → Cluster) : (setCluster s k g).logTail = s.logTail := rfl
@[simp] theorem setCluster_logHead (s : State) (k : Nat) (g : Cluster → Cluster) : (setCluster s k g).logHead = s.logHead := rfl
@[simp] theorem setCluster_logLost (s : State) (k : Nat) (g : Cluster → Cluster) : (setCluster s k g).logLost = s.logLost := rfl
@[simp] theorem setCluster_recCount (s : State) (k : Nat) (g : Cluster → Cluster) : (setCluster s k g).recCount = s.recCount := rfl
@[simp] theorem setCluster_vectors (s : State) (k : Nat) (g : Cluster → Cluster) : (setCluster s k g).vectors = s.vectors := rfl
@[simp] theorem setCluster_gtc (s : State) (k : Nat) (g : Cluster → Cluster) : (setCluster s k g).gtc = s.gtc := rfl
@[simp] theorem setCluster_gtcSlow (s : State) (k : Nat) (g : Cluster → Cluster) : (setCluster s k g).gtcSlow = s.gtcSlow := rfl
@[simp] theorem setCluster_fabricAddr (s : State) (k : Nat) (g : Cluster → Cluster) : (setCluster s k g).fabricAddr = s.fabricAddr := rfl
@[simp] theorem setCluster_masterAddr (s : State) (k : Nat) (g : Cluster → Cluster) : (setCluster s k g).masterAddr = s.masterAddr := rfl
@[simp] theorem setCluster_nextId (s : State) (k : Nat) (g : Cluster → Cluster) : (setCluster s k g).nextId = s.nextId := rfl
@[simp] theorem setCluster_nextHandle (s : State) (k : Nat) (g : Cluster → Cluster) : (setCluster s k g).nextHandle = s.nextHandle := rfl
@[simp] theorem setCluster_cur (s : State) (k : Nat) (g : Cluster → Cluster) : (setCluster s k g).cur = s.cur := rfl
@[simp] theorem setCluster_schedule (s : State) (k : Nat) (g : Cluster → Cluster) : (setCluster s k g).schedule = s.schedule := rfl
@[simp] theorem setCluster_due (s : State) (k : Nat) (g : Cluster → Cluster) : (setCluster s k g).due = s.due := rfl
@[simp] theorem setCluster_steps (s : State) (k : Nat) (g : Cluster → Cluster) : (setCluster s k g).steps = s.steps := rfl
@[simp] theorem setCluster_response (s : State) (k : Nat) (g : Cluster → Cluster) : (setCluster s k g).response = s.response := rfl

@[simp] theorem setDie_strands (s : State) (k : Nat) (g : Die → Die) : (setDie s k g).strands = s.strands := rfl
@[simp] theorem setDie_crews (s : State) (k : Nat) (g : Die → Die) : (setDie s k g).crews = s.crews := rfl
@[simp] theorem setDie_retained (s : State) (k : Nat) (g : Die → Die) : (setDie s k g).retained = s.retained := rfl
@[simp] theorem setDie_postHolds (s : State) (k : Nat) (g : Die → Die) : (setDie s k g).postHolds = s.postHolds := rfl
@[simp] theorem setDie_cores (s : State) (k : Nat) (g : Die → Die) : (setDie s k g).cores = s.cores := rfl
@[simp] theorem setDie_clusters (s : State) (k : Nat) (g : Die → Die) : (setDie s k g).clusters = s.clusters := rfl
@[simp] theorem setDie_runs (s : State) (k : Nat) (g : Die → Die) : (setDie s k g).runs = s.runs := rfl
@[simp] theorem setDie_graphs (s : State) (k : Nat) (g : Die → Die) : (setDie s k g).graphs = s.graphs := rfl
@[simp] theorem setDie_contexts (s : State) (k : Nat) (g : Die → Die) : (setDie s k g).contexts = s.contexts := rfl
@[simp] theorem setDie_jobs (s : State) (k : Nat) (g : Die → Die) : (setDie s k g).jobs = s.jobs := rfl
@[simp] theorem setDie_colls (s : State) (k : Nat) (g : Die → Die) : (setDie s k g).colls = s.colls := rfl
@[simp] theorem setDie_links (s : State) (k : Nat) (g : Die → Die) : (setDie s k g).links = s.links := rfl
@[simp] theorem setDie_qps (s : State) (k : Nat) (g : Die → Die) : (setDie s k g).qps = s.qps := rfl
@[simp] theorem setDie_regions (s : State) (k : Nat) (g : Die → Die) : (setDie s k g).regions = s.regions := rfl
@[simp] theorem setDie_d2d (s : State) (k : Nat) (g : Die → Die) : (setDie s k g).d2d = s.d2d := rfl
@[simp] theorem setDie_shards (s : State) (k : Nat) (g : Die → Die) : (setDie s k g).shards = s.shards := rfl
@[simp] theorem setDie_dev (s : State) (k : Nat) (g : Die → Die) : (setDie s k g).dev = s.dev := rfl
@[simp] theorem setDie_host (s : State) (k : Nat) (g : Die → Die) : (setDie s k g).host = s.host := rfl
@[simp] theorem setDie_spad (s : State) (k : Nat) (g : Die → Die) : (setDie s k g).spad = s.spad := rfl
@[simp] theorem setDie_wbuf (s : State) (k : Nat) (g : Die → Die) : (setDie s k g).wbuf = s.wbuf := rfl
@[simp] theorem setDie_devBad (s : State) (k : Nat) (g : Die → Die) : (setDie s k g).devBad = s.devBad := rfl
@[simp] theorem setDie_hostBad (s : State) (k : Nat) (g : Die → Die) : (setDie s k g).hostBad = s.hostBad := rfl
@[simp] theorem setDie_spadBad (s : State) (k : Nat) (g : Die → Die) : (setDie s k g).spadBad = s.spadBad := rfl
@[simp] theorem setDie_wbufBad (s : State) (k : Nat) (g : Die → Die) : (setDie s k g).wbufBad = s.wbufBad := rfl
@[simp] theorem setDie_owner (s : State) (k : Nat) (g : Die → Die) : (setDie s k g).owner = s.owner := rfl
@[simp] theorem setDie_hostDeny (s : State) (k : Nat) (g : Die → Die) : (setDie s k g).hostDeny = s.hostDeny := rfl
@[simp] theorem setDie_status (s : State) (k : Nat) (g : Die → Die) : (setDie s k g).status = s.status := rfl
@[simp] theorem setDie_diesUp (s : State) (k : Nat) (g : Die → Die) : (setDie s k g).diesUp = s.diesUp := rfl
@[simp] theorem setDie_faultPend (s : State) (k : Nat) (g : Die → Die) : (setDie s k g).faultPend = s.faultPend := rfl
@[simp] theorem setDie_cmdAddr (s : State) (k : Nat) (g : Die → Die) : (setDie s k g).cmdAddr = s.cmdAddr := rfl
@[simp] theorem setDie_cmdBusy (s : State) (k : Nat) (g : Die → Die) : (setDie s k g).cmdBusy = s.cmdBusy := rfl
@[simp] theorem setDie_cmdBlock (s : State) (k : Nat) (g : Die → Die) : (setDie s k g).cmdBlock = s.cmdBlock := rfl
@[simp] theorem setDie_cmdStatus (s : State) (k : Nat) (g : Die → Die) : (setDie s k g).cmdStatus = s.cmdStatus := rfl
@[simp] theorem setDie_cmdResult (s : State) (k : Nat) (g : Die → Die) : (setDie s k g).cmdResult = s.cmdResult := rfl
@[simp] theorem setDie_logBase (s : State) (k : Nat) (g : Die → Die) : (setDie s k g).logBase = s.logBase := rfl
@[simp] theorem setDie_logSize (s : State) (k : Nat) (g : Die → Die) : (setDie s k g).logSize = s.logSize := rfl
@[simp] theorem setDie_logTail (s : State) (k : Nat) (g : Die → Die) : (setDie s k g).logTail = s.logTail := rfl
@[simp] theorem setDie_logHead (s : State) (k : Nat) (g : Die → Die) : (setDie s k g).logHead = s.logHead := rfl
@[simp] theorem setDie_logLost (s : State) (k : Nat) (g : Die → Die) : (setDie s k g).logLost = s.logLost := rfl
@[simp] theorem setDie_recCount (s : State) (k : Nat) (g : Die → Die) : (setDie s k g).recCount = s.recCount := rfl
@[simp] theorem setDie_vectors (s : State) (k : Nat) (g : Die → Die) : (setDie s k g).vectors = s.vectors := rfl
@[simp] theorem setDie_gtc (s : State) (k : Nat) (g : Die → Die) : (setDie s k g).gtc = s.gtc := rfl
@[simp] theorem setDie_gtcSlow (s : State) (k : Nat) (g : Die → Die) : (setDie s k g).gtcSlow = s.gtcSlow := rfl
@[simp] theorem setDie_fabricAddr (s : State) (k : Nat) (g : Die → Die) : (setDie s k g).fabricAddr = s.fabricAddr := rfl
@[simp] theorem setDie_masterAddr (s : State) (k : Nat) (g : Die → Die) : (setDie s k g).masterAddr = s.masterAddr := rfl
@[simp] theorem setDie_nextId (s : State) (k : Nat) (g : Die → Die) : (setDie s k g).nextId = s.nextId := rfl
@[simp] theorem setDie_nextHandle (s : State) (k : Nat) (g : Die → Die) : (setDie s k g).nextHandle = s.nextHandle := rfl
@[simp] theorem setDie_cur (s : State) (k : Nat) (g : Die → Die) : (setDie s k g).cur = s.cur := rfl
@[simp] theorem setDie_schedule (s : State) (k : Nat) (g : Die → Die) : (setDie s k g).schedule = s.schedule := rfl
@[simp] theorem setDie_due (s : State) (k : Nat) (g : Die → Die) : (setDie s k g).due = s.due := rfl
@[simp] theorem setDie_steps (s : State) (k : Nat) (g : Die → Die) : (setDie s k g).steps = s.steps := rfl
@[simp] theorem setDie_response (s : State) (k : Nat) (g : Die → Die) : (setDie s k g).response = s.response := rfl

@[simp] theorem setCrew_strands (s : State) (r c : Nat) (g : Crew → Crew) : (setCrew s r c g).strands = s.strands := rfl
@[simp] theorem setCrew_retained (s : State) (r c : Nat) (g : Crew → Crew) : (setCrew s r c g).retained = s.retained := rfl
@[simp] theorem setCrew_postHolds (s : State) (r c : Nat) (g : Crew → Crew) : (setCrew s r c g).postHolds = s.postHolds := rfl
@[simp] theorem setCrew_cores (s : State) (r c : Nat) (g : Crew → Crew) : (setCrew s r c g).cores = s.cores := rfl
@[simp] theorem setCrew_clusters (s : State) (r c : Nat) (g : Crew → Crew) : (setCrew s r c g).clusters = s.clusters := rfl
@[simp] theorem setCrew_dies (s : State) (r c : Nat) (g : Crew → Crew) : (setCrew s r c g).dies = s.dies := rfl
@[simp] theorem setCrew_runs (s : State) (r c : Nat) (g : Crew → Crew) : (setCrew s r c g).runs = s.runs := rfl
@[simp] theorem setCrew_graphs (s : State) (r c : Nat) (g : Crew → Crew) : (setCrew s r c g).graphs = s.graphs := rfl
@[simp] theorem setCrew_contexts (s : State) (r c : Nat) (g : Crew → Crew) : (setCrew s r c g).contexts = s.contexts := rfl
@[simp] theorem setCrew_jobs (s : State) (r c : Nat) (g : Crew → Crew) : (setCrew s r c g).jobs = s.jobs := rfl
@[simp] theorem setCrew_colls (s : State) (r c : Nat) (g : Crew → Crew) : (setCrew s r c g).colls = s.colls := rfl
@[simp] theorem setCrew_links (s : State) (r c : Nat) (g : Crew → Crew) : (setCrew s r c g).links = s.links := rfl
@[simp] theorem setCrew_qps (s : State) (r c : Nat) (g : Crew → Crew) : (setCrew s r c g).qps = s.qps := rfl
@[simp] theorem setCrew_regions (s : State) (r c : Nat) (g : Crew → Crew) : (setCrew s r c g).regions = s.regions := rfl
@[simp] theorem setCrew_d2d (s : State) (r c : Nat) (g : Crew → Crew) : (setCrew s r c g).d2d = s.d2d := rfl
@[simp] theorem setCrew_shards (s : State) (r c : Nat) (g : Crew → Crew) : (setCrew s r c g).shards = s.shards := rfl
@[simp] theorem setCrew_dev (s : State) (r c : Nat) (g : Crew → Crew) : (setCrew s r c g).dev = s.dev := rfl
@[simp] theorem setCrew_host (s : State) (r c : Nat) (g : Crew → Crew) : (setCrew s r c g).host = s.host := rfl
@[simp] theorem setCrew_spad (s : State) (r c : Nat) (g : Crew → Crew) : (setCrew s r c g).spad = s.spad := rfl
@[simp] theorem setCrew_wbuf (s : State) (r c : Nat) (g : Crew → Crew) : (setCrew s r c g).wbuf = s.wbuf := rfl
@[simp] theorem setCrew_devBad (s : State) (r c : Nat) (g : Crew → Crew) : (setCrew s r c g).devBad = s.devBad := rfl
@[simp] theorem setCrew_hostBad (s : State) (r c : Nat) (g : Crew → Crew) : (setCrew s r c g).hostBad = s.hostBad := rfl
@[simp] theorem setCrew_spadBad (s : State) (r c : Nat) (g : Crew → Crew) : (setCrew s r c g).spadBad = s.spadBad := rfl
@[simp] theorem setCrew_wbufBad (s : State) (r c : Nat) (g : Crew → Crew) : (setCrew s r c g).wbufBad = s.wbufBad := rfl
@[simp] theorem setCrew_owner (s : State) (r c : Nat) (g : Crew → Crew) : (setCrew s r c g).owner = s.owner := rfl
@[simp] theorem setCrew_hostDeny (s : State) (r c : Nat) (g : Crew → Crew) : (setCrew s r c g).hostDeny = s.hostDeny := rfl
@[simp] theorem setCrew_status (s : State) (r c : Nat) (g : Crew → Crew) : (setCrew s r c g).status = s.status := rfl
@[simp] theorem setCrew_diesUp (s : State) (r c : Nat) (g : Crew → Crew) : (setCrew s r c g).diesUp = s.diesUp := rfl
@[simp] theorem setCrew_faultPend (s : State) (r c : Nat) (g : Crew → Crew) : (setCrew s r c g).faultPend = s.faultPend := rfl
@[simp] theorem setCrew_cmdAddr (s : State) (r c : Nat) (g : Crew → Crew) : (setCrew s r c g).cmdAddr = s.cmdAddr := rfl
@[simp] theorem setCrew_cmdBusy (s : State) (r c : Nat) (g : Crew → Crew) : (setCrew s r c g).cmdBusy = s.cmdBusy := rfl
@[simp] theorem setCrew_cmdBlock (s : State) (r c : Nat) (g : Crew → Crew) : (setCrew s r c g).cmdBlock = s.cmdBlock := rfl
@[simp] theorem setCrew_cmdStatus (s : State) (r c : Nat) (g : Crew → Crew) : (setCrew s r c g).cmdStatus = s.cmdStatus := rfl
@[simp] theorem setCrew_cmdResult (s : State) (r c : Nat) (g : Crew → Crew) : (setCrew s r c g).cmdResult = s.cmdResult := rfl
@[simp] theorem setCrew_logBase (s : State) (r c : Nat) (g : Crew → Crew) : (setCrew s r c g).logBase = s.logBase := rfl
@[simp] theorem setCrew_logSize (s : State) (r c : Nat) (g : Crew → Crew) : (setCrew s r c g).logSize = s.logSize := rfl
@[simp] theorem setCrew_logTail (s : State) (r c : Nat) (g : Crew → Crew) : (setCrew s r c g).logTail = s.logTail := rfl
@[simp] theorem setCrew_logHead (s : State) (r c : Nat) (g : Crew → Crew) : (setCrew s r c g).logHead = s.logHead := rfl
@[simp] theorem setCrew_logLost (s : State) (r c : Nat) (g : Crew → Crew) : (setCrew s r c g).logLost = s.logLost := rfl
@[simp] theorem setCrew_recCount (s : State) (r c : Nat) (g : Crew → Crew) : (setCrew s r c g).recCount = s.recCount := rfl
@[simp] theorem setCrew_vectors (s : State) (r c : Nat) (g : Crew → Crew) : (setCrew s r c g).vectors = s.vectors := rfl
@[simp] theorem setCrew_gtc (s : State) (r c : Nat) (g : Crew → Crew) : (setCrew s r c g).gtc = s.gtc := rfl
@[simp] theorem setCrew_gtcSlow (s : State) (r c : Nat) (g : Crew → Crew) : (setCrew s r c g).gtcSlow = s.gtcSlow := rfl
@[simp] theorem setCrew_fabricAddr (s : State) (r c : Nat) (g : Crew → Crew) : (setCrew s r c g).fabricAddr = s.fabricAddr := rfl
@[simp] theorem setCrew_masterAddr (s : State) (r c : Nat) (g : Crew → Crew) : (setCrew s r c g).masterAddr = s.masterAddr := rfl
@[simp] theorem setCrew_nextId (s : State) (r c : Nat) (g : Crew → Crew) : (setCrew s r c g).nextId = s.nextId := rfl
@[simp] theorem setCrew_nextHandle (s : State) (r c : Nat) (g : Crew → Crew) : (setCrew s r c g).nextHandle = s.nextHandle := rfl
@[simp] theorem setCrew_cur (s : State) (r c : Nat) (g : Crew → Crew) : (setCrew s r c g).cur = s.cur := rfl
@[simp] theorem setCrew_schedule (s : State) (r c : Nat) (g : Crew → Crew) : (setCrew s r c g).schedule = s.schedule := rfl
@[simp] theorem setCrew_due (s : State) (r c : Nat) (g : Crew → Crew) : (setCrew s r c g).due = s.due := rfl
@[simp] theorem setCrew_steps (s : State) (r c : Nat) (g : Crew → Crew) : (setCrew s r c g).steps = s.steps := rfl
@[simp] theorem setCrew_response (s : State) (r c : Nat) (g : Crew → Crew) : (setCrew s r c g).response = s.response := rfl

@[simp] theorem setSpace_strands (s : State) (sp : Space) (t : Tab Byte) : (setSpace s sp t).strands = s.strands := by cases sp <;> rfl
@[simp] theorem setSpace_crews (s : State) (sp : Space) (t : Tab Byte) : (setSpace s sp t).crews = s.crews := by cases sp <;> rfl
@[simp] theorem setSpace_retained (s : State) (sp : Space) (t : Tab Byte) : (setSpace s sp t).retained = s.retained := by cases sp <;> rfl
@[simp] theorem setSpace_postHolds (s : State) (sp : Space) (t : Tab Byte) : (setSpace s sp t).postHolds = s.postHolds := by cases sp <;> rfl
@[simp] theorem setSpace_cores (s : State) (sp : Space) (t : Tab Byte) : (setSpace s sp t).cores = s.cores := by cases sp <;> rfl
@[simp] theorem setSpace_clusters (s : State) (sp : Space) (t : Tab Byte) : (setSpace s sp t).clusters = s.clusters := by cases sp <;> rfl
@[simp] theorem setSpace_dies (s : State) (sp : Space) (t : Tab Byte) : (setSpace s sp t).dies = s.dies := by cases sp <;> rfl
@[simp] theorem setSpace_runs (s : State) (sp : Space) (t : Tab Byte) : (setSpace s sp t).runs = s.runs := by cases sp <;> rfl
@[simp] theorem setSpace_graphs (s : State) (sp : Space) (t : Tab Byte) : (setSpace s sp t).graphs = s.graphs := by cases sp <;> rfl
@[simp] theorem setSpace_contexts (s : State) (sp : Space) (t : Tab Byte) : (setSpace s sp t).contexts = s.contexts := by cases sp <;> rfl
@[simp] theorem setSpace_jobs (s : State) (sp : Space) (t : Tab Byte) : (setSpace s sp t).jobs = s.jobs := by cases sp <;> rfl
@[simp] theorem setSpace_colls (s : State) (sp : Space) (t : Tab Byte) : (setSpace s sp t).colls = s.colls := by cases sp <;> rfl
@[simp] theorem setSpace_links (s : State) (sp : Space) (t : Tab Byte) : (setSpace s sp t).links = s.links := by cases sp <;> rfl
@[simp] theorem setSpace_qps (s : State) (sp : Space) (t : Tab Byte) : (setSpace s sp t).qps = s.qps := by cases sp <;> rfl
@[simp] theorem setSpace_regions (s : State) (sp : Space) (t : Tab Byte) : (setSpace s sp t).regions = s.regions := by cases sp <;> rfl
@[simp] theorem setSpace_d2d (s : State) (sp : Space) (t : Tab Byte) : (setSpace s sp t).d2d = s.d2d := by cases sp <;> rfl
@[simp] theorem setSpace_shards (s : State) (sp : Space) (t : Tab Byte) : (setSpace s sp t).shards = s.shards := by cases sp <;> rfl
@[simp] theorem setSpace_devBad (s : State) (sp : Space) (t : Tab Byte) : (setSpace s sp t).devBad = s.devBad := by cases sp <;> rfl
@[simp] theorem setSpace_hostBad (s : State) (sp : Space) (t : Tab Byte) : (setSpace s sp t).hostBad = s.hostBad := by cases sp <;> rfl
@[simp] theorem setSpace_spadBad (s : State) (sp : Space) (t : Tab Byte) : (setSpace s sp t).spadBad = s.spadBad := by cases sp <;> rfl
@[simp] theorem setSpace_wbufBad (s : State) (sp : Space) (t : Tab Byte) : (setSpace s sp t).wbufBad = s.wbufBad := by cases sp <;> rfl
@[simp] theorem setSpace_owner (s : State) (sp : Space) (t : Tab Byte) : (setSpace s sp t).owner = s.owner := by cases sp <;> rfl
@[simp] theorem setSpace_hostDeny (s : State) (sp : Space) (t : Tab Byte) : (setSpace s sp t).hostDeny = s.hostDeny := by cases sp <;> rfl
@[simp] theorem setSpace_status (s : State) (sp : Space) (t : Tab Byte) : (setSpace s sp t).status = s.status := by cases sp <;> rfl
@[simp] theorem setSpace_diesUp (s : State) (sp : Space) (t : Tab Byte) : (setSpace s sp t).diesUp = s.diesUp := by cases sp <;> rfl
@[simp] theorem setSpace_faultPend (s : State) (sp : Space) (t : Tab Byte) : (setSpace s sp t).faultPend = s.faultPend := by cases sp <;> rfl
@[simp] theorem setSpace_cmdAddr (s : State) (sp : Space) (t : Tab Byte) : (setSpace s sp t).cmdAddr = s.cmdAddr := by cases sp <;> rfl
@[simp] theorem setSpace_cmdBusy (s : State) (sp : Space) (t : Tab Byte) : (setSpace s sp t).cmdBusy = s.cmdBusy := by cases sp <;> rfl
@[simp] theorem setSpace_cmdBlock (s : State) (sp : Space) (t : Tab Byte) : (setSpace s sp t).cmdBlock = s.cmdBlock := by cases sp <;> rfl
@[simp] theorem setSpace_cmdStatus (s : State) (sp : Space) (t : Tab Byte) : (setSpace s sp t).cmdStatus = s.cmdStatus := by cases sp <;> rfl
@[simp] theorem setSpace_cmdResult (s : State) (sp : Space) (t : Tab Byte) : (setSpace s sp t).cmdResult = s.cmdResult := by cases sp <;> rfl
@[simp] theorem setSpace_logBase (s : State) (sp : Space) (t : Tab Byte) : (setSpace s sp t).logBase = s.logBase := by cases sp <;> rfl
@[simp] theorem setSpace_logSize (s : State) (sp : Space) (t : Tab Byte) : (setSpace s sp t).logSize = s.logSize := by cases sp <;> rfl
@[simp] theorem setSpace_logTail (s : State) (sp : Space) (t : Tab Byte) : (setSpace s sp t).logTail = s.logTail := by cases sp <;> rfl
@[simp] theorem setSpace_logHead (s : State) (sp : Space) (t : Tab Byte) : (setSpace s sp t).logHead = s.logHead := by cases sp <;> rfl
@[simp] theorem setSpace_logLost (s : State) (sp : Space) (t : Tab Byte) : (setSpace s sp t).logLost = s.logLost := by cases sp <;> rfl
@[simp] theorem setSpace_recCount (s : State) (sp : Space) (t : Tab Byte) : (setSpace s sp t).recCount = s.recCount := by cases sp <;> rfl
@[simp] theorem setSpace_vectors (s : State) (sp : Space) (t : Tab Byte) : (setSpace s sp t).vectors = s.vectors := by cases sp <;> rfl
@[simp] theorem setSpace_gtc (s : State) (sp : Space) (t : Tab Byte) : (setSpace s sp t).gtc = s.gtc := by cases sp <;> rfl
@[simp] theorem setSpace_gtcSlow (s : State) (sp : Space) (t : Tab Byte) : (setSpace s sp t).gtcSlow = s.gtcSlow := by cases sp <;> rfl
@[simp] theorem setSpace_fabricAddr (s : State) (sp : Space) (t : Tab Byte) : (setSpace s sp t).fabricAddr = s.fabricAddr := by cases sp <;> rfl
@[simp] theorem setSpace_masterAddr (s : State) (sp : Space) (t : Tab Byte) : (setSpace s sp t).masterAddr = s.masterAddr := by cases sp <;> rfl
@[simp] theorem setSpace_nextId (s : State) (sp : Space) (t : Tab Byte) : (setSpace s sp t).nextId = s.nextId := by cases sp <;> rfl
@[simp] theorem setSpace_nextHandle (s : State) (sp : Space) (t : Tab Byte) : (setSpace s sp t).nextHandle = s.nextHandle := by cases sp <;> rfl
@[simp] theorem setSpace_cur (s : State) (sp : Space) (t : Tab Byte) : (setSpace s sp t).cur = s.cur := by cases sp <;> rfl
@[simp] theorem setSpace_schedule (s : State) (sp : Space) (t : Tab Byte) : (setSpace s sp t).schedule = s.schedule := by cases sp <;> rfl
@[simp] theorem setSpace_due (s : State) (sp : Space) (t : Tab Byte) : (setSpace s sp t).due = s.due := by cases sp <;> rfl
@[simp] theorem setSpace_steps (s : State) (sp : Space) (t : Tab Byte) : (setSpace s sp t).steps = s.steps := by cases sp <;> rfl
@[simp] theorem setSpace_response (s : State) (sp : Space) (t : Tab Byte) : (setSpace s sp t).response = s.response := by cases sp <;> rfl

@[simp] theorem setBad_strands (s : State) (sp : Space) (t : Tab Bool) : (setBad s sp t).strands = s.strands := by cases sp <;> rfl
@[simp] theorem setBad_crews (s : State) (sp : Space) (t : Tab Bool) : (setBad s sp t).crews = s.crews := by cases sp <;> rfl
@[simp] theorem setBad_retained (s : State) (sp : Space) (t : Tab Bool) : (setBad s sp t).retained = s.retained := by cases sp <;> rfl
@[simp] theorem setBad_postHolds (s : State) (sp : Space) (t : Tab Bool) : (setBad s sp t).postHolds = s.postHolds := by cases sp <;> rfl
@[simp] theorem setBad_cores (s : State) (sp : Space) (t : Tab Bool) : (setBad s sp t).cores = s.cores := by cases sp <;> rfl
@[simp] theorem setBad_clusters (s : State) (sp : Space) (t : Tab Bool) : (setBad s sp t).clusters = s.clusters := by cases sp <;> rfl
@[simp] theorem setBad_dies (s : State) (sp : Space) (t : Tab Bool) : (setBad s sp t).dies = s.dies := by cases sp <;> rfl
@[simp] theorem setBad_runs (s : State) (sp : Space) (t : Tab Bool) : (setBad s sp t).runs = s.runs := by cases sp <;> rfl
@[simp] theorem setBad_graphs (s : State) (sp : Space) (t : Tab Bool) : (setBad s sp t).graphs = s.graphs := by cases sp <;> rfl
@[simp] theorem setBad_contexts (s : State) (sp : Space) (t : Tab Bool) : (setBad s sp t).contexts = s.contexts := by cases sp <;> rfl
@[simp] theorem setBad_jobs (s : State) (sp : Space) (t : Tab Bool) : (setBad s sp t).jobs = s.jobs := by cases sp <;> rfl
@[simp] theorem setBad_colls (s : State) (sp : Space) (t : Tab Bool) : (setBad s sp t).colls = s.colls := by cases sp <;> rfl
@[simp] theorem setBad_links (s : State) (sp : Space) (t : Tab Bool) : (setBad s sp t).links = s.links := by cases sp <;> rfl
@[simp] theorem setBad_qps (s : State) (sp : Space) (t : Tab Bool) : (setBad s sp t).qps = s.qps := by cases sp <;> rfl
@[simp] theorem setBad_regions (s : State) (sp : Space) (t : Tab Bool) : (setBad s sp t).regions = s.regions := by cases sp <;> rfl
@[simp] theorem setBad_d2d (s : State) (sp : Space) (t : Tab Bool) : (setBad s sp t).d2d = s.d2d := by cases sp <;> rfl
@[simp] theorem setBad_shards (s : State) (sp : Space) (t : Tab Bool) : (setBad s sp t).shards = s.shards := by cases sp <;> rfl
@[simp] theorem setBad_dev (s : State) (sp : Space) (t : Tab Bool) : (setBad s sp t).dev = s.dev := by cases sp <;> rfl
@[simp] theorem setBad_host (s : State) (sp : Space) (t : Tab Bool) : (setBad s sp t).host = s.host := by cases sp <;> rfl
@[simp] theorem setBad_spad (s : State) (sp : Space) (t : Tab Bool) : (setBad s sp t).spad = s.spad := by cases sp <;> rfl
@[simp] theorem setBad_wbuf (s : State) (sp : Space) (t : Tab Bool) : (setBad s sp t).wbuf = s.wbuf := by cases sp <;> rfl
@[simp] theorem setBad_owner (s : State) (sp : Space) (t : Tab Bool) : (setBad s sp t).owner = s.owner := by cases sp <;> rfl
@[simp] theorem setBad_hostDeny (s : State) (sp : Space) (t : Tab Bool) : (setBad s sp t).hostDeny = s.hostDeny := by cases sp <;> rfl
@[simp] theorem setBad_status (s : State) (sp : Space) (t : Tab Bool) : (setBad s sp t).status = s.status := by cases sp <;> rfl
@[simp] theorem setBad_diesUp (s : State) (sp : Space) (t : Tab Bool) : (setBad s sp t).diesUp = s.diesUp := by cases sp <;> rfl
@[simp] theorem setBad_faultPend (s : State) (sp : Space) (t : Tab Bool) : (setBad s sp t).faultPend = s.faultPend := by cases sp <;> rfl
@[simp] theorem setBad_cmdAddr (s : State) (sp : Space) (t : Tab Bool) : (setBad s sp t).cmdAddr = s.cmdAddr := by cases sp <;> rfl
@[simp] theorem setBad_cmdBusy (s : State) (sp : Space) (t : Tab Bool) : (setBad s sp t).cmdBusy = s.cmdBusy := by cases sp <;> rfl
@[simp] theorem setBad_cmdBlock (s : State) (sp : Space) (t : Tab Bool) : (setBad s sp t).cmdBlock = s.cmdBlock := by cases sp <;> rfl
@[simp] theorem setBad_cmdStatus (s : State) (sp : Space) (t : Tab Bool) : (setBad s sp t).cmdStatus = s.cmdStatus := by cases sp <;> rfl
@[simp] theorem setBad_cmdResult (s : State) (sp : Space) (t : Tab Bool) : (setBad s sp t).cmdResult = s.cmdResult := by cases sp <;> rfl
@[simp] theorem setBad_logBase (s : State) (sp : Space) (t : Tab Bool) : (setBad s sp t).logBase = s.logBase := by cases sp <;> rfl
@[simp] theorem setBad_logSize (s : State) (sp : Space) (t : Tab Bool) : (setBad s sp t).logSize = s.logSize := by cases sp <;> rfl
@[simp] theorem setBad_logTail (s : State) (sp : Space) (t : Tab Bool) : (setBad s sp t).logTail = s.logTail := by cases sp <;> rfl
@[simp] theorem setBad_logHead (s : State) (sp : Space) (t : Tab Bool) : (setBad s sp t).logHead = s.logHead := by cases sp <;> rfl
@[simp] theorem setBad_logLost (s : State) (sp : Space) (t : Tab Bool) : (setBad s sp t).logLost = s.logLost := by cases sp <;> rfl
@[simp] theorem setBad_recCount (s : State) (sp : Space) (t : Tab Bool) : (setBad s sp t).recCount = s.recCount := by cases sp <;> rfl
@[simp] theorem setBad_vectors (s : State) (sp : Space) (t : Tab Bool) : (setBad s sp t).vectors = s.vectors := by cases sp <;> rfl
@[simp] theorem setBad_gtc (s : State) (sp : Space) (t : Tab Bool) : (setBad s sp t).gtc = s.gtc := by cases sp <;> rfl
@[simp] theorem setBad_gtcSlow (s : State) (sp : Space) (t : Tab Bool) : (setBad s sp t).gtcSlow = s.gtcSlow := by cases sp <;> rfl
@[simp] theorem setBad_fabricAddr (s : State) (sp : Space) (t : Tab Bool) : (setBad s sp t).fabricAddr = s.fabricAddr := by cases sp <;> rfl
@[simp] theorem setBad_masterAddr (s : State) (sp : Space) (t : Tab Bool) : (setBad s sp t).masterAddr = s.masterAddr := by cases sp <;> rfl
@[simp] theorem setBad_nextId (s : State) (sp : Space) (t : Tab Bool) : (setBad s sp t).nextId = s.nextId := by cases sp <;> rfl
@[simp] theorem setBad_nextHandle (s : State) (sp : Space) (t : Tab Bool) : (setBad s sp t).nextHandle = s.nextHandle := by cases sp <;> rfl
@[simp] theorem setBad_cur (s : State) (sp : Space) (t : Tab Bool) : (setBad s sp t).cur = s.cur := by cases sp <;> rfl
@[simp] theorem setBad_schedule (s : State) (sp : Space) (t : Tab Bool) : (setBad s sp t).schedule = s.schedule := by cases sp <;> rfl
@[simp] theorem setBad_due (s : State) (sp : Space) (t : Tab Bool) : (setBad s sp t).due = s.due := by cases sp <;> rfl
@[simp] theorem setBad_steps (s : State) (sp : Space) (t : Tab Bool) : (setBad s sp t).steps = s.steps := by cases sp <;> rfl
@[simp] theorem setBad_response (s : State) (sp : Space) (t : Tab Bool) : (setBad s sp t).response = s.response := by cases sp <;> rfl

@[simp] theorem coreOf_setCore (s : State) (k j : Nat) (g : Core → Core) :
    coreOf (setCore s k g) j = if j = k then g (coreOf s k) else coreOf s j := tget_tins _ _ _ _ _
@[simp] theorem clusterOf_setCluster (s : State) (k j : Nat) (g : Cluster → Cluster) :
    clusterOf (setCluster s k g) j = if j = k then g (clusterOf s k) else clusterOf s j := tget_tins _ _ _ _ _
@[simp] theorem dieOf_setDie (s : State) (k j : Nat) (g : Die → Die) :
    dieOf (setDie s k g) j = if j = k then g (dieOf s k) else dieOf s j := tget_tins _ _ _ _ _

theorem setCore_setCore (s : State) (k : Nat) (f g : Core → Core) : setCore (setCore s k f) k g = setCore s k (fun c => g (f c)) := by
  simp [setCore, tins_tins]
theorem setCluster_setCluster (s : State) (k : Nat) (f g : Cluster → Cluster) :
    setCluster (setCluster s k f) k g = setCluster s k (fun c => g (f c)) := by simp [setCluster, tins_tins]
theorem setDie_setDie (s : State) (k : Nat) (f g : Die → Die) : setDie (setDie s k f) k g = setDie s k (fun c => g (f c)) := by
  simp [setDie, tins_tins]

/-- Reading a list back after one element has been changed. -/
theorem lmod_get {α : Type} (f : α → α) (l : List α) (n m : Nat) :
    (lmod f l n)[m]? = if m = n then (l[m]?).map f else l[m]? := by
  induction l generalizing n m with
  | nil => simp [lmod]
  | cons a l ih =>
    cases n with
    | zero => cases m <;> simp [lmod]
    | succ n => cases m with
      | zero => simp [lmod]
      | succ m => simp [lmod, ih]

/-- The first element that passes a test, after a change that keeps what the test sees. -/
theorem find_lmodWhere {α : Type} (p : α → Bool) (f : α → α) (hf : ∀ a, p a = true → p (f a) = true) (l : List α) :
    (lmodWhere p f l).find? p = (l.find? p).map f := by
  induction l with
  | nil => rfl
  | cons a l ih =>
    by_cases h : p a = true
    · simp [lmodWhere, h, hf a h]
    · simp [lmodWhere, h, ih]

/-- A change leaves the first element of a disjoint test where it is. -/
theorem find_lmodWhere_ne {α : Type} (p q : α → Bool) (f : α → α) (hp : ∀ a, p a = true → q a = false)
    (hf : ∀ a, p a = true → q (f a) = false) (l : List α) : (lmodWhere p f l).find? q = l.find? q := by
  induction l with
  | nil => rfl
  | cons a l ih =>
    by_cases h : p a = true
    · simp [lmodWhere, h, hp a h, hf a h]
    · by_cases hq : q a = true <;> simp [lmodWhere, h, hq, ih]

/-- Reading a strand back after a change of it. -/
theorem findStrand_setStrand (s : State) (k : StrandKey) (f : Strand → Strand) (hf : ∀ t, t.key = k → (f t).key = k) :
    findStrand (setStrand s k f) k = (findStrand s k).map f :=
  find_lmodWhere _ f (fun t h => by simpa using hf t (by simpa using h)) _

/-- A change of one strand leaves the others. -/
theorem findStrand_setStrand_ne (s : State) {k j : StrandKey} (f : Strand → Strand) (hf : ∀ t, t.key = k → (f t).key = k)
    (h : j ≠ k) : findStrand (setStrand s k f) j = findStrand s j :=
  find_lmodWhere_ne _ _ f (fun t ht => by simp_all [eq_comm]) (fun t ht => by
    have := hf t (by simpa using ht); simp_all [eq_comm]) _

/-- A found strand has the key it was sought by. -/
theorem findStrand_key {s : State} {k : StrandKey} {t : Strand} (h : findStrand s k = some t) : t.key = k := by
  simpa using List.find?_some h

theorem strandOf_eq {s : State} {k : StrandKey} {t : Strand} (h : findStrand s k = some t) : strandOf s k = t := by
  simp [strandOf, h]

theorem runOf_setRun (s : State) (r j : Nat) (f : Run → Run) (h : r < s.runs.length) :
    runOf (setRun s r f) j = if j = r then f (runOf s r) else runOf s j := by
  unfold runOf setRun
  rw [lmod_get]
  by_cases hj : j = r
  · subst hj; simp [List.getElem?_eq_getElem h]
  · simp [hj]

/-- Two changes of one strand are one change. -/
theorem setStrand_setStrand (s : State) (k : StrandKey) (f g : Strand → Strand) (hf : ∀ t, t.key = k → (f t).key = k) :
    setStrand (setStrand s k f) k g = setStrand s k (fun t => g (f t)) := by
  simp only [setStrand]
  congr 1
  induction s.strands with
  | nil => rfl
  | cons a l ih =>
    by_cases h : a.key = k
    · simp [lmodWhere, h, hf a h]
    · simp [lmodWhere, h, ih]

/-- A change of a strand depends on what it makes of that strand alone. -/
theorem setStrand_congr {s : State} {k : StrandKey} {t : Strand} (h : findStrand s k = some t) {f g : Strand → Strand}
    (e : f t = g t) : setStrand s k f = setStrand s k g := by
  simp only [setStrand]
  congr 1
  unfold findStrand at h
  generalize s.strands = l at h
  induction l with
  | nil => rfl
  | cons a l ih =>
    by_cases ha : a.key = k
    · simp_all [lmodWhere]
    · simp [lmodWhere, ha, ih (by simpa [List.find?_cons, ha] using h)]

end Sys2Proof.Machine
end

