-- ==== Sys2Proof/Laws/Memory.lean ====
section
/-! SUPPORT. Laws of storage: reading after writing, and the canonical form under every storage operation. -/

namespace Sys2Proof.Machine

/-! ### Reading after writing -/

/-- A run of bytes written reads back, and every other byte reads as before. -/
theorem tget_pokeTab (t : Tab Byte) (a j : Nat) (bs : List Byte) :
    tget 0 (pokeTab t a bs) j = if a ≤ j ∧ j < a + bs.length then bs.getD (j - a) 0 else tget 0 t j := by
  induction bs generalizing t a with
  | nil => rw [if_neg (by simp)]; rfl
  | cons b bs ih =>
    rw [pokeTab, ih, tget_tset]
    have hl : (b :: bs).length = bs.length + 1 := rfl
    by_cases h : j = a
    · subst h; rw [if_neg (by omega), if_pos rfl, if_pos (by omega)]; simp
    · by_cases h1 : a ≤ j
      · have e : j - a = (j - (a + 1)) + 1 := by omega
        by_cases h2 : j < a + 1 + bs.length
        · rw [if_pos ⟨by omega, h2⟩, if_pos (by omega), e]; rfl
        · rw [if_neg (by omega), if_neg h, if_neg (by omega)]
      · rw [if_neg (by omega), if_neg h, if_neg (by omega)]

@[simp] theorem spaceOf_setSpace (s : State) (sp sp' : Space) (t : Tab Byte) :
    spaceOf (setSpace s sp t) sp' = if sp' = sp then t else spaceOf s sp' := by
  cases sp <;> cases sp' <;> simp [spaceOf, setSpace]

@[simp] theorem spaceOf_setBad (s : State) (sp sp' : Space) (t : Tab Bool) : spaceOf (setBad s sp t) sp' = spaceOf s sp' := by
  cases sp <;> cases sp' <;> rfl

@[simp] theorem badOf_setBad (s : State) (sp sp' : Space) (t : Tab Bool) :
    badOf (setBad s sp t) sp' = if sp' = sp then t else badOf s sp' := by
  cases sp <;> cases sp' <;> simp [badOf, setBad]

@[simp] theorem badOf_setSpace (s : State) (sp sp' : Space) (t : Tab Byte) : badOf (setSpace s sp t) sp' = badOf s sp' := by
  cases sp <;> cases sp' <;> rfl

/-- What a byte reads as after bytes have been written at their home. -/
theorem peek_pokeKeep (s : State) (sp sp' : Space) (a j : Nat) (bs : List Byte) :
    peek (pokeKeep s sp a bs) sp' j =
      if sp' = sp ∧ a ≤ j ∧ j < a + bs.length then bs.getD (j - a) 0 else peek s sp' j := by
  unfold peek pokeKeep
  rw [spaceOf_setSpace]
  by_cases h : sp' = sp
  · subst h; simp only [if_true, true_and]; exact tget_pokeTab _ _ _ _
  · simp [h]

theorem peek_poke (s : State) (sp sp' : Space) (a j : Nat) (bs : List Byte) :
    peek (poke s sp a bs) sp' j =
      if sp' = sp ∧ a ≤ j ∧ j < a + bs.length then bs.getD (j - a) 0 else peek s sp' j := by
  have h := peek_pokeKeep s sp sp' a j bs
  unfold peek pokeKeep at *
  unfold poke
  rw [spaceOf_setBad, h]

/-! ### The canonical form -/

/-- The canonical form, space by space. -/
theorem Memory.wf_iff (s : State) :
    Memory.wf s = true ↔ (∀ sp, twf 0 (spaceOf s sp) = true) ∧ (∀ sp, twf false (badOf s sp) = true) ∧ twf 0 s.owner = true := by
  have all (p : Space → Bool) : spaces.all p = true ↔ ∀ sp, p sp = true :=
    ⟨fun h sp => List.all_eq_true.mp h sp (by cases sp <;> simp [spaces]), fun h => List.all_eq_true.mpr (fun sp _ => h sp)⟩
  rw [Memory.wf, Bool.and_eq_true, all]
  simp only [Bool.and_eq_true, forall_and, and_assoc]

/-- Right after reset storage has its canonical form. -/
theorem Memory.wf_reset : Memory.wf State.reset = true := rfl

@[simp] theorem Memory.wf_setStrand (s : State) (k : StrandKey) (f : Strand → Strand) : Memory.wf (setStrand s k f) = Memory.wf s := rfl
@[simp] theorem Memory.wf_setRun (s : State) (r : Nat) (f : Run → Run) : Memory.wf (setRun s r f) = Memory.wf s := rfl
@[simp] theorem Memory.wf_setCore (s : State) (k : Nat) (f : Core → Core) : Memory.wf (setCore s k f) = Memory.wf s := rfl
@[simp] theorem Memory.wf_setCluster (s : State) (c : Nat) (f : Cluster → Cluster) : Memory.wf (setCluster s c f) = Memory.wf s := rfl
@[simp] theorem Memory.wf_setDie (s : State) (d : Nat) (f : Die → Die) : Memory.wf (setDie s d f) = Memory.wf s := rfl
@[simp] theorem Memory.wf_setCrew (s : State) (r c : Nat) (f : Crew → Crew) : Memory.wf (setCrew s r c f) = Memory.wf s := rfl
@[simp] theorem Memory.wf_breakResv (s : State) (sp : Space) (a n : Nat) : Memory.wf (breakResv s sp a n) = Memory.wf s := rfl

@[simp] theorem Memory.wf_wake (s : State) (c : Nat) (u : PowerUnit) : Memory.wf (wake s c u) = Memory.wf s := rfl

@[simp] theorem Memory.wf_wakeLoc (s : State) (l : Loc) : Memory.wf (wakeLoc s l) = Memory.wf s := by
  unfold wakeLoc; split
  · exact Memory.wf_wake _ _ _
  · rfl

@[simp] theorem Memory.wf_revoke (s : State) (c w : Nat) : Memory.wf (revoke s c w) = Memory.wf s := rfl
@[simp] theorem Memory.wf_acquire (s : State) (c : Nat) : Memory.wf (acquire s c) = Memory.wf s := rfl
@[simp] theorem Memory.wf_l1Drop (s : State) (c a n : Nat) : Memory.wf (l1Drop s c a n) = Memory.wf s := rfl
@[simp] theorem Memory.wf_l1Store (s : State) (c a : Nat) (bs : List Byte) : Memory.wf (l1Store s c a bs) = Memory.wf s := rfl

theorem twf_pokeTab (t : Tab Byte) (a : Nat) (bs : List Byte) (h : twf 0 t = true) : twf 0 (pokeTab t a bs) = true := by
  induction bs generalizing t a with
  | nil => exact h
  | cons b bs ih => exact ih _ _ (twf_tset 0 t a b h)

/-- What every turn of a loop keeps, the loop keeps. -/
theorem forUpTo_keeps {β : Type} (P : β → Prop) (n : Nat) (b : β) (f : Nat → β → β) (hb : P b)
    (hf : ∀ i b, P b → P (f i b)) : P (forUpTo n b f) := by
  induction n with
  | zero => exact hb
  | succ n ih => exact hf _ _ ih

theorem foldl_keeps {α β : Type} (P : β → Prop) (l : List α) (b : β) (f : β → α → β) (hb : P b)
    (hf : ∀ b a, P b → P (f b a)) : P (l.foldl f b) := by
  induction l generalizing b with
  | nil => exact hb
  | cons a l ih => exact ih _ (hf _ _ hb)

theorem Memory.wf_setSpace {s : State} (sp : Space) {t : Tab Byte} (h : Memory.wf s = true) (ht : twf 0 t = true) :
    Memory.wf (setSpace s sp t) = true := by
  rw [Memory.wf_iff] at h ⊢
  refine ⟨fun sp' => ?_, fun sp' => by simpa using h.2.1 sp', by cases sp <;> exact h.2.2⟩
  rw [spaceOf_setSpace]; split
  · exact ht
  · exact h.1 sp'

theorem Memory.wf_setBad {s : State} (sp : Space) {t : Tab Bool} (h : Memory.wf s = true) (ht : twf false t = true) :
    Memory.wf (setBad s sp t) = true := by
  rw [Memory.wf_iff] at h ⊢
  refine ⟨fun sp' => by simpa using h.1 sp', fun sp' => ?_, by cases sp <;> exact h.2.2⟩
  rw [badOf_setBad]; split
  · exact ht
  · exact h.2.1 sp'

theorem Memory.wf_setOwnerField {s : State} (k who : Nat) (h : Memory.wf s = true) :
    Memory.wf { s with owner := tset 0 s.owner k who } = true := by
  rw [Memory.wf_iff] at h ⊢
  exact ⟨fun sp => match sp with
      | .dev => h.1 .dev
      | .host => h.1 .host
      | .spad => h.1 .spad
      | .wbuf => h.1 .wbuf,
    fun sp => match sp with
      | .dev => h.2.1 .dev
      | .host => h.2.1 .host
      | .spad => h.2.1 .spad
      | .wbuf => h.2.1 .wbuf, twf_tset 0 _ _ _ h.2.2⟩

theorem Memory.wf_pokeKeep {s : State} (sp : Space) (a : Nat) (bs : List Byte) (h : Memory.wf s = true) :
    Memory.wf (pokeKeep s sp a bs) = true :=
  Memory.wf_setSpace sp h (twf_pokeTab _ _ _ (((Memory.wf_iff s).mp h).1 sp))

theorem Memory.wf_poke {s : State} (sp : Space) (a : Nat) (bs : List Byte) (h : Memory.wf s = true) :
    Memory.wf (poke s sp a bs) = true :=
  Memory.wf_setBad sp (Memory.wf_pokeKeep sp a bs h) (twf_filter false _ _ (((Memory.wf_iff s).mp h).2.1 sp))

theorem Memory.wf_poison {s : State} (sp : Space) (a n : Nat) (h : Memory.wf s = true) : Memory.wf (poison s sp a n) = true :=
  Memory.wf_setBad sp h (forUpTo_keeps (fun t => twf false t = true) _ _ _ (((Memory.wf_iff s).mp h).2.1 sp)
    (fun _ _ ht => twf_tset false _ _ _ ht))

theorem Memory.wf_setOwner {s : State} (who a n : Nat) (h : Memory.wf s = true) : Memory.wf (setOwner s who a n) = true := by
  unfold setOwner
  split
  · exact h
  · refine forUpTo_keeps (fun s => Memory.wf s = true) _ _ _ h (fun i b hb => ?_)
    dsimp only
    split
    · exact Memory.wf_setOwnerField _ _ hb
    · rw [Memory.wf_revoke]; exact Memory.wf_setOwnerField _ _ hb

theorem Memory.wf_writeHome {s : State} (sp : Space) (a : Nat) (bs : List Byte) (h : Memory.wf s = true) :
    Memory.wf (writeHome s sp a bs) = true := by
  have h1 := Memory.wf_poke sp a bs h
  unfold writeHome; dsimp only; split
  · exact Memory.wf_setOwner _ _ _ (by rw [Memory.wf_breakResv]; exact h1)
  · rw [Memory.wf_breakResv]; exact h1

theorem Memory.wf_updateHome {s : State} (sp : Space) (a : Nat) (bs : List Byte) (h : Memory.wf s = true) :
    Memory.wf (updateHome s sp a bs) = true := by
  have h1 := Memory.wf_pokeKeep sp a bs h
  unfold updateHome; dsimp only; split
  · exact Memory.wf_setOwner _ _ _ (by rw [Memory.wf_breakResv]; exact h1)
  · rw [Memory.wf_breakResv]; exact h1

theorem Memory.wf_writeRuns {f : State → Space → Nat → List Byte → State}
    (hf : ∀ s sp a bs, Memory.wf s = true → Memory.wf (f s sp a bs) = true) (rs : List (Space × Nat × Nat)) (bs : List Byte)
    {s : State} (h : Memory.wf s = true) : Memory.wf (writeRuns f rs bs s) = true := by
  induction rs generalizing bs s with
  | nil => exact h
  | cons r rs ih => exact ih _ (hf _ _ _ _ h)

theorem Memory.wf_writeLocs {s : State} (ls : List Loc) (bs : List Byte) (h : Memory.wf s = true) :
    Memory.wf (writeLocs s ls bs) = true := Memory.wf_writeRuns (fun _ sp a bs h => Memory.wf_writeHome sp a bs h) _ _ h

theorem Memory.wf_poisonLocs {s : State} (ls : List Loc) (h : Memory.wf s = true) : Memory.wf (poisonLocs s ls) = true :=
  foldl_keeps (fun s => Memory.wf s = true) _ _ _ h (fun _ _ hb => Memory.wf_poison _ _ _ hb)

theorem Memory.wf_spoilHome {s : State} (sp : Space) (a n : Nat) (h : Memory.wf s = true) : Memory.wf (spoilHome s sp a n) = true := by
  have h1 : Memory.wf (breakResv (poison s sp a n) sp a n) = true := Memory.wf_poison sp a n h
  unfold spoilHome; dsimp only; split
  · exact Memory.wf_setOwner _ _ _ h1
  · exact h1

theorem Memory.wf_refreshWord {s : State} (core w : Nat) (h : Memory.wf s = true) : Memory.wf (refreshWord core s w) = true := by
  unfold refreshWord
  split <;> exact h

theorem Memory.wf_registerStore {s : State} (core : Nat) (p : PendStore) (h : Memory.wf s = true) :
    Memory.wf (registerStore core s p) = true := by
  unfold registerStore
  refine foldl_keeps (fun s => Memory.wf s = true) _ _ _ (Memory.wf_setOwner _ _ _ ?_) (fun _ _ hb => Memory.wf_refreshWord core _ hb)
  rw [Memory.wf_breakResv]
  exact Memory.wf_poke _ _ _ (by rw [Memory.wf_setCore]; exact h)

theorem Memory.wf_registerOne {s : State} (core : Nat) (h : Memory.wf s = true) : Memory.wf (registerOne s core) = true := by
  unfold registerOne
  split
  · exact h
  · exact Memory.wf_registerStore _ _ h

theorem Memory.wf_registerWhere {s : State} (core : Nat) (want : PendStore → Bool) (h : Memory.wf s = true) :
    Memory.wf (registerWhere s core want) = true :=
  foldl_keeps (fun s => Memory.wf s = true) _ _ _ h (fun _ _ hb => Memory.wf_registerStore core _ hb)

theorem Memory.wf_drainStores {s : State} (core : Nat) (h : Memory.wf s = true) : Memory.wf (drainStores s core) = true :=
  Memory.wf_registerWhere core _ h

theorem Memory.wf_registerAt {s : State} (core a n : Nat) (h : Memory.wf s = true) : Memory.wf (registerAt s core a n) = true :=
  Memory.wf_registerWhere core _ h

theorem Memory.wf_toHome {s : State} (core a n : Nat) (h : Memory.wf s = true) : Memory.wf (toHome s core a n) = true :=
  Memory.wf_registerAt core a n h

theorem Memory.wf_release {s : State} (core : Nat) (key : StrandKey) (h : Memory.wf s = true) :
    Memory.wf (release s core key) = true := Memory.wf_registerWhere core _ h

theorem Memory.wf_dropOwner {s : State} (w : Nat) (h : Memory.wf s = true) : Memory.wf (dropOwner s w) = true :=
  Memory.wf_setOwner 0 _ 4 h

@[simp] theorem Memory.wf_wakeRun (s : State) (r : Space × Nat × Nat) : Memory.wf (wakeRun s r) = Memory.wf s := by
  unfold wakeRun
  dsimp only
  generalize List.range _ = l
  induction l generalizing s with
  | nil => rfl
  | cons i l ih => rw [List.foldl_cons, ih, Memory.wf_wakeLoc]

theorem Memory.wf_storeRun {s : State} (core : Nat) (key : StrandKey) (sp : Space) (a : Nat) (bs : List Byte)
    (h : Memory.wf s = true) : Memory.wf (storeRun core key s sp a bs) = true := by
  unfold storeRun
  split
  · exact h
  · rw [Memory.wf_wakeRun]; exact Memory.wf_writeHome _ _ _ h

theorem Memory.wf_storeLocs {s : State} (core : Nat) (key : StrandKey) (ls : List Loc) (bs : List Byte)
    (h : Memory.wf s = true) : Memory.wf (storeLocs s core key ls bs) = true :=
  Memory.wf_writeRuns (fun _ sp a bs h => Memory.wf_storeRun core key sp a bs h) _ _ h

theorem Memory.wf_l1Line {s u : State} {core line : Nat} {ws : List Nat} (h : Memory.wf s = true)
    (e : l1Line core line ws s = some u) : Memory.wf u = true := by
  unfold l1Line at e
  split at e
  · cases e; exact h
  · dsimp only at e
    split at e
    · cases e
    · cases e; exact Memory.wf_registerWhere core _ h

theorem Memory.wf_l1Lines {core : Nat} {ws ls : List Nat} {s u : State} (h : Memory.wf s = true)
    (e : l1Lines core ws ls s = some u) : Memory.wf u = true := by
  induction ls generalizing s with
  | nil => cases e; exact h
  | cons l ls ih =>
    rw [l1Lines, Option.bind_eq_some_iff] at e
    obtain ⟨v, hv, hu⟩ := e
    exact ih (Memory.wf_l1Line h hv) hu

theorem Memory.wf_wakeLocs {s : State} (ls : List Loc) (h : Memory.wf s = true) : Memory.wf (ls.foldl wakeLoc s) = true :=
  foldl_keeps (fun s => Memory.wf s = true) _ _ _ h (fun _ _ hb => by rw [Memory.wf_wakeLoc]; exact hb)

theorem Memory.wf_loadLocs {s u : State} {core : Nat} {ls : List Loc} {bs : List Byte} (h : Memory.wf s = true)
    (e : loadLocs core s ls = some (bs, u)) : Memory.wf u = true := by
  unfold loadLocs at e
  dsimp only at e
  split at e
  · cases e
  · rename_i s1 h1
    split at e
    · cases e
    · cases e; exact Memory.wf_wakeLocs _ (Memory.wf_l1Lines h h1)

theorem Memory.wf_zeroGranule {s : State} (core g : Nat) (h : Memory.wf s = true) : Memory.wf (zeroGranule core s g) = true := by
  unfold zeroGranule
  rw [Memory.wf_iff] at h ⊢
  exact ⟨fun sp => match sp with
      | .dev => h.1 .dev
      | .host => h.1 .host
      | .spad => twf_filter 0 _ _ (h.1 .spad)
      | .wbuf => h.1 .wbuf,
    fun sp => match sp with
      | .dev => h.2.1 .dev
      | .host => h.2.1 .host
      | .spad => twf_filter false _ _ (h.2.1 .spad)
      | .wbuf => h.2.1 .wbuf, h.2.2⟩

end Sys2Proof.Machine
end

