-- ==== Sys2Proof/Laws/Regs.lean ====
section
/-! SUPPORT. Laws of GPRs and of how an instruction ends. -/

namespace Sys2Proof.Machine

theorem sx_key (t : Strand) (r : Nat) (v : Word) : (sx t r v).key = t.key := by unfold sx; split <;> rfl

theorem fallThrough_key (t : Strand) (a : Word) : (fallThrough t a).key = t.key := by unfold fallThrough; split <;> rfl

theorem fallThrough_parts (t : Strand) (a : Word) : ∃ p c, fallThrough t a = { t with pc := p, lpcount := c } := by
  unfold fallThrough; split <;> exact ⟨_, _, rfl⟩

theorem repAdvance_parts (t : Strand) (r : Rep) : ∃ p c q, repAdvance t r = { t with pc := p, lpcount := c, rep := q } := by
  unfold repAdvance
  split
  · exact ⟨_, _, _, rfl⟩
  · split
    · exact ⟨_, _, _, rfl⟩
    · obtain ⟨p, c, h⟩ := fallThrough_parts { t with rep := none } (r.base + BitVec.ofNat 64 (repEnd r))
      exact ⟨p, c, none, by rw [h]⟩

/-- Going on changes the pc, the loop count and the repetition of a strand, and nothing else. -/
theorem advance_parts (t : Strand) (n : Nat) (x : Next) :
    ∃ p c q, advance t n x = { t with pc := p, lpcount := c, rep := q } := by
  cases x <;> simp only [advance]
  · split
    · exact repAdvance_parts _ _
    · obtain ⟨p, c, h⟩ := fallThrough_parts t (t.pc + BitVec.ofNat 64 n)
      exact ⟨p, c, t.rep, h⟩
  · exact ⟨_, _, _, rfl⟩
  · obtain ⟨p, c, h⟩ := fallThrough_parts t _
    exact ⟨p, c, t.rep, h⟩
  · exact ⟨t.pc, t.lpcount, t.rep, rfl⟩

theorem advance_frame (t : Strand) (n : Nat) (x : Next) :
    advance t n x = { t with pc := (advance t n x).pc, lpcount := (advance t n x).lpcount, rep := (advance t n x).rep } := by
  obtain ⟨p, c, q, h⟩ := advance_parts t n x
  rw [h]

theorem advance_key (t : Strand) (n : Nat) (x : Next) : (advance t n x).key = t.key := by rw [advance_frame]

/-- Reading a GPR after writing one: x0 ignores the write (R99). -/
theorem gx_sx (t : Strand) (r j : Nat) (v : Word) (_hr : r < 32) (hj : j < 32) :
    gx (sx t r v) j = if j = r ∧ r ≠ 0 then v else gx t j := by
  unfold gx sx
  by_cases h0 : r = 0
  · simp [h0]
  · by_cases hj0 : j = 0
    · subst hj0; simp [h0]; omega
    · by_cases hjr : j = r
      · subst hjr; simp [h0, hj]
      · simp [h0, tget_tset, hjr, hj0, hj]
        congr 1
        by_cases hlt : j < r
        · simp [hlt]
        · simp [show ¬ (j - r = 0) by omega]

/-- A written GPR is live (R99). -/
theorem sx_dead (t : Strand) (r j : Nat) (v : Word) (_hr : r < 32) (hj : j < 32) :
    (sx t r v).dead.getLsbD j = (t.dead.getLsbD j && (j ≠ r || r = 0)) := by
  unfold sx
  by_cases h0 : r = 0
  · simp [h0]
  · simp [h0, hj]
    by_cases hlt : j < r
    · simp [hlt]; intro; omega
    · by_cases he : j = r
      · simp [he]
      · simp [hlt, he, show ¬ (j - r = 0) by omega]

/-- Every meaning that `retire` ends is a next state. -/
theorem retire_next (n : Nat) (r : Res) : ∃ u, retire n r = .next u := by cases r <;> exact ⟨_, rfl⟩

theorem runParty_next (i : Instr) (s : State) (r : Res) : ∃ u, runParty i s r = .next u := by
  unfold runParty; split
  · exact retire_next _ _
  · split
    · exact ⟨_, rfl⟩
    · exact retire_next _ _

theorem runStrand_next (i : Instr) (s : State) (f : Strand → Res) : ∃ u, runStrand i s f = .next u := by
  unfold runStrand; split
  · exact retire_next _ _
  · split
    · exact ⟨_, rfl⟩
    · split <;> exact retire_next _ _

theorem runHandler_next (i : Instr) (s : State) (f : Nat → Res) : ∃ u, runHandler i s f = .next u := by
  unfold runHandler; split
  · exact retire_next _ _
  · split
    · exact ⟨_, rfl⟩
    · exact retire_next _ _

/-- What a strand that issues a well-formed instruction of strands gets. -/
theorem runStrand_eq {i : Instr} {s : State} {k : StrandKey} {t : Strand} (f : Strand → Res) (hc : s.cur = .strand k)
    (ht : findStrand s k = some t) (hf : formOk i = true) : runStrand i s f = retire (instrLen i) (f t) := by
  simp [runStrand, hc, ht, hf]

theorem runParty_strand {i : Instr} {s : State} {k : StrandKey} {t : Strand} (r : Res) (hc : s.cur = .strand k)
    (ht : findStrand s k = some t) : runParty i s r = retire (instrLen i) r := by
  simp [runParty, hc, ht]

theorem runParty_handler {i : Instr} {s : State} {c : Nat} (r : Res) (hc : s.cur = .handler c) :
    runParty i s r = retire (instrLen i) r := by
  simp [runParty, hc]

theorem runHandler_eq {i : Instr} {s : State} {c : Nat} (f : Nat → Res) (hc : s.cur = .handler c) :
    runHandler i s f = retire (instrLen i) (f c) := by
  simp [runHandler, hc]

end Sys2Proof.Machine
end

