-- ==== Sys2Proof/Safety.lean ====
section
/-! DEFINITION. What counts as a safe run: no fault, no refusal. -/

namespace Sys2Proof

/-- k steps from a state end in a next state: no step of them faults or is refused. -/
def Safe (k : Nat) (s : Machine.State) : Prop := ∃ t, core.run k s = .next t

end Sys2Proof
end

