-- ==== Sys2Proof/Tests/Slice0.lean ====
section
/-! SUPPORT. Tests: words written out from the spec's encodings (R64 to R85, R118, R197, R198), ill-formed instructions, and single
instructions on a small state, with results from the spec's tables. -/

namespace Sys2Proof.Tests

set_option Elab.async false

open Machine

/-! ### Decoding -/

/-- The number of a list of parcels, the first lowest. -/
def word : List Nat → Nat
  | [] => 0
  | p :: t => p + 2 ^ 32 * word t

/-- The instruction of a list of parcels. -/
def dec (ps : List Nat) : Option Instr := decodeTableWord (32 * ps.length) (word ps)

theorem test_decode_lui : dec [0x123452B7] = some (.lui 5 0x12345) := by decide +kernel
theorem test_decode_auipc : dec [0x00001297] = some (.auipc 5 1) := by decide +kernel
theorem test_decode_jal : dec [0x008000EF] = some (.jal 1 4) := by decide +kernel
theorem test_decode_jalr : dec [0x00008067] = some (.jalr 0 1 0) := by decide +kernel
theorem test_decode_beq : dec [0x00208463] = some (.beq 1 2 4) := by decide +kernel
theorem test_decode_ld : dec [0x00833283] = some (.ld 5 6 8) := by decide +kernel
theorem test_decode_sd : dec [0x00533423] = some (.sd 6 5 8) := by decide +kernel
theorem test_decode_srai : dec [0x40335293] = some (.srai 5 6 3) := by decide +kernel
theorem test_decode_subw : dec [0x407302BB] = some (.subw 5 6 7) := by decide +kernel
theorem test_decode_mulhu : dec [0x027332B3] = some (.mulhu 5 6 7) := by decide +kernel
theorem test_decode_lr : dec [0x140332AF] = some (.lrD 5 6 true false) := by decide +kernel
theorem test_decode_amoadd : dec [0x007322AF] = some (.amoaddW 5 6 7 false false) := by decide +kernel
theorem test_decode_fence : dec [0x0330000F] = some (.fence 3 3) ∧ dec [0x8330000F] = some .fenceTso ∧ dec [0x0000100F] = some .fenceI := by
  decide +kernel
theorem test_decode_system : dec [0x00000073] = some .ecall ∧ dec [0x00100073] = some .ebreak := by decide +kernel
theorem test_decode_csrrw : dec [0x800312F3] = some (.csrrw 5 0x800 6) := by decide +kernel
/-- The spec's worked encodings (R75). -/
theorem test_decode_bbs : dec [0xFEC3C80B] = some (.bbs true 7 12 0x3F8) := by decide +kernel
theorem test_decode_tryacq : dec [0x5010050B] = some (.tryacq 10 2 1 0) := by decide +kernel
theorem test_decode_vfma : dec [0x1840907F, 0x04D0A103, 0x000061E0] =
    some (.vfma { vd := 1, vs1 := 2, vs2 := 3, n2 := true, vs3 := 4, ty := 10, rm := 5, sat := true, ge := true, gr := 7, gb := 12 }) := by
  decide +kernel
theorem test_decode_loop : dec [0x0033900B] = some (.loop 7 3) := by decide +kernel
theorem test_decode_repb : dec [0x1113B00B] = some (.repb 7 1 1 1) := by decide +kernel
theorem test_decode_fencex : dec [0x0220E00B] = some (.fencex 1 2) := by decide +kernel
theorem test_decode_halt : dec [0x0412E00B] = some (.halt 5 true) := by decide +kernel
theorem test_decode_sendM : dec [0x0262F00B] = some (.sendM 5 6) := by decide +kernel
theorem test_decode_bwait : dec [0x0C73728B] = some (.bwait 5 6 7) := by decide +kernel
theorem test_decode_vld : dec [0xFC33002B] = some (.vld 3 6 0x3F) := by decide +kernel
theorem test_decode_vext : dec [0x143352AB] = some (.vext true 1 5 3 6) := by decide +kernel
theorem test_decode_vsplatImm : dec [0x18306FAB] = some (.vsplatImm 2 3 0x1F) := by decide +kernel
theorem test_decode_stres : dec [0x0002807B] = some (.stres 5) ∧ dec [0x0000307B] = some .stret := by decide +kernel
theorem test_decode_cpy : dec [0x00A012FF, 6, 0] = some (.cpy { vs1 := 5, vs2 := 6 }) := by decide +kernel
theorem test_decode_mma : dec [0x08A0927F, 0x000541C6, 0] = some (.mma { vd := 1, vs1 := 5, vs2 := 6, vs3 := 7, ty := 4, ty2 := 5 }) := by
  decide +kernel
theorem test_decode_xwait : dec [0x1002937F, 0, 0x300000] = some (.xwait { vd := 5, rs := 6 }) := by decide +kernel
theorem test_decode_putxadd : dec [0x08A013FF, 0xA1C6, 0x40000] = some (.putxadd { vs1 := 5, vs2 := 6, vs3 := 7, ty := 10, ord := true }) := by
  decide +kernel
theorem test_decode_vgather : dec [0x0102117F, 0x6A000, 0x300000] = some (.vgather { vd := 4, vs1 := 8, ty := 10, ty2 := 6, rs := 6 }) := by
  decide +kernel
theorem test_decode_vcvt : dec [0x00C210FF, 0xA9000, 0] = some (.vcvt { vd := 4, vs1 := 6, ty := 9, ty2 := 10 }) := by decide +kernel
theorem test_decode_vcmp : dec [0x202291FF, 0x40002, 0] = some (.vcmp { vd := 5, vs1 := 1, vs2 := 2, ty2 := 4 }) := by decide +kernel
theorem test_decode_pchk : dec [0x0800147F, 0, 0x280000] = some (.pchk 5) := by decide +kernel
theorem test_decode_vaddX160 : dec [0x0040D07F, 0, 0, 0x7F, 0] = some (.vaddX160 { vd := 1, vs1 := 2 } 0x7F) := by decide +kernel
theorem test_decode_phint : dec [0x0000547F, 0x00430021, 0x81000000, 3, 1] = some (.phint 1 2 3 4 0x81 0x100000003) := by decide +kernel

/-- Encodings that are no instruction (R65, R68, R70, R76, R83, R84). -/
theorem test_decode_none : dec [0] = none ∧ dec [0xFFFFFFFF] = none ∧ dec [0x0000001F] = none ∧ dec [0x0000005B] = none ∧
    dec [0x0000900B] = none ∧ dec [0x0000407B] = none ∧ dec [0x0000107F, 0, 0x40000] = none ∧ dec [0x00000C7F + 0x1000, 0, 0] = none ∧
    dec [0x0040D07F, 0, 0, 0x100, 0] = none := by decide +kernel

/-! ### Ill-formed instructions, one for each check -/

theorem test_illformed_claims : wellFormed (.acq 5 4 0 0) = false ∧ wellFormed (.tryacq 5 4 0 0) = false ∧
    wellFormed (.rel 5 4 0 0) = false ∧ wellFormed (.claimq 5 4) = false := by decide
theorem test_illformed_control : wellFormed (.loop 5 0) = false ∧ wellFormed (.cancel 3) = false ∧
    wellFormed (.phint 15 2 0 0 0 0) = false := by decide
/-- VARITH: a reserved type, a second type, a blank field used, a reserved mode, an unused source, a guard field without GE, SAT on a
shift, a mode on integers, ORD, a literal above the width. -/
theorem test_illformed_varith : [Instr.vadd { ty := 12 }, .vadd { ty := 8, ty2 := 1 }, .vadd { aux := 1 }, .vadd { ty := 10, rm := 6 },
    .vadd { vs3 := 1 }, .vadd { gr := 1 }, .vshl { sat := true }, .vadd { rm := 1 }, .vadd { ord := true }, .vsqrt { ty := 0 },
    .vsqrt { ty := 10, vs2 := 1 }, .vaddX160 {} 0x100, .vaddX160 { vs2 := 1 } 0, .vmulh { ty := 10 }, .vexp2 { ty := 11 }].all
    (fun i => !wellFormed i) = true := by decide
theorem test_illformed_vconv : [Instr.vcvt { aux := 7, ty := 10 }, .vcvt { ty := 10, ty2 := 8, vd := 1 }, .vcvt { aux := 8 },
    .vpackmx { ty := 10, aux := 6 }, .vpackmx { ty := 10, vs1 := 1 }, .vmxexp { ty := 10, vd := 32 }, .vtobsi { ty := 10, vd := 2 },
    .vfrombsi { ty := 10, vs2 := 32 }, .vrand { ty := 2 }, .vunpkmx { ty := 0 }].all (fun i => !wellFormed i) = true := by decide
theorem test_illformed_vmem : [Instr.vgather { ty := 0, ty2 := 0 }, .vgather { ty := 0, ty2 := 2, vs1 := 1 }, .vscatter { ty := 0, ty2 := 2, vd := 1 },
    .vldm { aux := 4 }, .vldm { aux := 1, vd := 1 }, .vstm { vs2 := 32 }, .vamoadd { ty := 10, ty2 := 2, rm := 5 },
    .vamoadd { ty := 0, ty2 := 2 }, .vgather { ty := 2, ty2 := 2, n1 := true }].all (fun i => !wellFormed i) = true := by decide
theorem test_illformed_vlane : [Instr.vred { aux := 6 }, .vred { ty := 10, rm := 5 }, .vscan { aux := 1, sat := true }, .vperm { aux := 1 },
    .vslide { rm := 1 }, .vcmp { ty2 := 9 }, .vcmp { ty2 := 6 }, .vcmp { vd := 32 }, .viota { ty := 10 }, .vcompress { vs2 := 1 },
    .vpopc { vd := 32 }, .vcmpX160 { vs2 := 1 } 0].all (fun i => !wellFormed i) = true := by decide
theorem test_illformed_matrix : [Instr.mzero { vd := 8 }, .mma { ty := 6 }, .mma { aux := 8 }, .mma { aux := 1, ty2 := 5 }, .mma { rs := 1 },
    .mmag { vs1 := 32 }, .mdrain { aux := 3 }, .mdrain { vs3 := 1 }, .mdrains { vs3 := 32 }, .mpeek { aux := 1, ty2 := 6 }, .mwait { aux := 2 },
    .mwait { vd := 1 }, .mtld { ty2 := 5 }, .mtld { aux := 1 }, .mtsv { ty2 := 1 }].all (fun i => !wellFormed i) = true := by decide
theorem test_illformed_engines : [Instr.cpy { vd := 1 }, .cpy { ord := true }, .cpyred { vs1 := 32 }, .cpywb { aux := 1 }, .cpyq { vs1 := 1 },
    .cpycan { vs2 := 32 }, .xreq { vs1 := 1 }, .xpoll { vd := 32 }, .xwait { ord := true }, .putx { ty := 1 }, .putxadd { ty := 0 },
    .putxadd { ty := 10, rm := 5 }, .coll { aux := 10 }, .coll { aux := 12 }, .coll { ord := true }].all (fun i => !wellFormed i) = true := by decide
/-- Events that name a unit the package does not have. -/
theorem test_illformed_events : [Instr.preemptRequest 3072 0, .storeRegister 3072, .hardFault 384, .mzeroExec 384, .resume 4 0,
    .bindCrew 0 256, .pageWalk 4, .retainExpiry 16 0, .doorbell 16 0 0, .launchPacket 0 64, .linkDown 36].all (fun i => !wellFormed i) = true := by
  decide

/-! ### Single instructions -/

/-- A strand that stands at a word, and issues. -/
def at_ (nbits w : Nat) : State := { State.reset.withFetchWord nbits w with cur := .strand ⟨0, 0⟩, schedule := [] }

/-- The same with a change of the strand. -/
def set (s : State) (f : Strand → Strand) : State := setStrand s ⟨0, 0⟩ f

/-- A GPR written. -/
def x (r : Nat) (v : Word) (t : Strand) : Strand := sx t r v

/-- What a meaning makes of the strand, and of a GPR of it. -/
def after (o : Host.Outcome State Fault Refusal) : Option Strand :=
  match o with
  | .next u => findStrand u ⟨0, 0⟩
  | _ => none

def gpr (r : Nat) (o : Host.Outcome State Fault Refusal) : Option Word := (after o).map (fun t => gx t r)

/-- The state after a meaning. -/
def next (o : Host.Outcome State Fault Refusal) : State :=
  match o with
  | .next u => u
  | _ => State.reset

/-- Cause and tval of the trap that a meaning takes. -/
def trapped (o : Host.Outcome State Fault Refusal) : Option (Nat × Word) :=
  (after o).bind (fun t => if t.life = .frozen then t.packet.map (fun p => (p.cause.toNat, p.tval)) else none)

def base : State := at_ 32 0x00000013

/-- The first step after reset fetches and runs the placed word: addi x10, x0, 5. -/
theorem test_step_addi : gpr 10 (step (State.reset.withFetchWord 32 0x00500513)) = some 5 := by decide +kernel
theorem test_step_pc : (after (step (State.reset.withFetchWord 32 0x00500513))).map (·.pc) = some 0x2004 := by decide +kernel
/-- The table of R119. -/
theorem test_div_zero : gpr 5 (exec (.div 5 6 0) (set base (x 6 7))) = some 0xFFFFFFFFFFFFFFFF := by decide +kernel
theorem test_div_overflow : gpr 5 (exec (.div 5 6 7) (set base (x 6 0x8000000000000000 ∘ x 7 0xFFFFFFFFFFFFFFFF))) = some 0x8000000000000000 := by
  decide +kernel
theorem test_rem_zero : gpr 5 (exec (.rem 5 6 0) (set base (x 6 7))) = some 7 := by decide +kernel
theorem test_remuw_zero : gpr 5 (exec (.remuw 5 6 0) (set base (x 6 0x80000001))) = some 0xFFFFFFFF80000001 := by decide +kernel
theorem test_mulhsu : gpr 5 (exec (.mulhsu 5 6 6) (set base (x 6 0xFFFFFFFFFFFFFFFF))) = some 0xFFFFFFFFFFFFFFFF := by decide +kernel
theorem test_sraw_amount : gpr 5 (exec (.sraw 5 6 7) (set base (x 6 0x80000000 ∘ x 7 33))) = some 0xFFFFFFFFC0000000 := by decide +kernel
theorem test_x0_discards : gpr 0 (exec (.addi 0 0 1) base) = some 0 := by decide +kernel
/-- A call marks the registers of `deadmask` dead, and they read zero (R100). -/
theorem test_jal_marks : gpr 6 (exec (.jal 1 4) (set base (fun t => { x 6 9 t with deadmask := 0x40 }))) = some 0 := by decide +kernel
theorem test_jalr_misaligned : trapped (exec (.jalr 1 6 2) base) = some (1, 2) := by decide +kernel
theorem test_branch_segment : trapped (exec (.jalr 1 6 0) (set base (x 6 0x1000000000000000))) = some (2, 0x1000000000000000) := by decide +kernel
theorem test_ecall : trapped (exec .ecall base) = some (5, 0) := by decide +kernel
theorem test_ebreak : trapped (exec .ebreak base) = some (6, 0x2000) := by decide +kernel
theorem test_stret_priv : trapped (exec .stret base) = some (0x0D, 0x307B) := by decide +kernel
theorem test_store_load : gpr 5 (exec (.lh 5 6 1) (next (exec (.sd 6 7 0) (set base (x 6 0x1000000000002FFC ∘ x 7 0x1234F680))))) =
    some 0x34F6 := by decide +kernel
theorem test_load_limit : trapped (exec (.ld 5 6 0) (set base (x 6 0x1000000000030000))) = some (2, 0x1000000000030000) := by decide +kernel
theorem test_amomin : gpr 5 (exec (.amominW 5 6 7 false false) (next (exec (.sw 6 7 0) (set base (x 6 0x1000000000000010 ∘ x 7 0xFFFFFFFF))))) =
    some 0xFFFFFFFFFFFFFFFF := by decide +kernel
theorem test_sc_without_reservation : gpr 5 (exec (.scW 5 6 7 false false) (set base (x 6 0x1000000000000010))) = some 1 := by decide +kernel
theorem test_csr_masked : gpr 5 (exec (.csrrs 5 0x805 0) (next (exec (.csrrwi 0 0x805 31) base))) = some 7 := by decide +kernel
theorem test_loop_zero_count : trapped (exec (.loop 5 1) base) = none ∧ (after (exec (.loop 5 1) (at_ 64 0x00000013_0002900B))).map (·.pc) = some 0x2008 := by
  decide +kernel
theorem test_claimq : gpr 5 (exec (.claimq 5 1) base) = some 0x10000010 := by decide +kernel
theorem test_halt_ends : (after (exec (.halt 0 false) base)).map (·.life) = some .ended := by decide +kernel
theorem test_vsplat_vext : gpr 5 (exec (.vext false 0 5 3 6) (next (exec (.vsplatImm 0 3 0x1F) base))) = some 0xFFFFFFFFFFFFFFFF := by decide +kernel
/-- SAT clamps a sum and raises OF (R149). -/
theorem test_vadd_sat : (after (exec (.vaddX160 { vd := 1, vs1 := 3, sat := true } 1) (next (exec (.vsplat 0 3 6) (set base (x 6 0x7F)))))).map
    (fun t => (lane 8 63 (vGet t 1), t.vxflags)) = some (0x7F, 4) := by decide +kernel
theorem test_vadd_wraps : (after (exec (.vaddX160 { vd := 1, vs1 := 3 } 1) (next (exec (.vsplat 0 3 6) (set base (x 6 0x7F)))))).map
    (fun t => (lane 8 63 (vGet t 1), t.vxflags)) = some (0x80, 0) := by decide +kernel
theorem test_vpopc_none : gpr 5 (exec (.vpopc { vd := 5, ty := 2 }) (set base (x 5 9))) = some 0 := by decide +kernel
/-- An access across three granules wakes each of them (R190). -/
theorem test_wake_between : (coreOf (wakeRun (setCore base 0 (fun c => { c with drowsy := [.granule 0, .granule 1, .granule 2, .granule 3] }))
    (.spad, 8, 2 * 12288)) 0).drowsy = [.granule 3] := by decide +kernel
/-- A handler context's own store to the other half of a reserved word ends its reservation (R123). -/
theorem test_handler_store_ends : (coreOf (storeRun 0 (handlerKey 0)
    (setCore base 0 (fun c => { c with hresv := some { space := .dev, word := 8, ea := 64, width := 4, cycle := 0 } })) .dev 68 [0, 0, 0, 0]) 0).hresv = none := by
  decide +kernel

end Sys2Proof.Tests
end

