-- ==== Sys2Proof/Tests/Witness.lean ====
section
/-! SUPPORT. For each statement a concrete state and operands that meet its hypotheses, clause by clause. -/

namespace Sys2Proof.Tests

set_option Elab.async false

open Machine Oblig

/-- The strand of a small state. -/
def str (s : State) : Strand := strandOf s ⟨0, 0⟩

/-- Whether the strand issues. -/
def issues (s : State) : Bool := s.cur = .strand (str s).key && findStrand s (str s).key = some (str s)

theorem issues_iff (s : State) (h : issues s = true) : Issues s (str s) := by
  simpa [issues, Issues] using h

/-- The handler context of core 0 issues. -/
def handler : State := setCore { base with cur := .handler 0 } 0 (fun c => { c with hawake := true })

def isOk {ε α : Type} : Except ε α → Bool
  | .ok _ => true
  | .error _ => false

theorem witness_ImmediateResults : issuing base = true ∧ issuing handler = true := by decide +kernel
theorem witness_ShiftResults : issuing base = true := by decide +kernel
theorem witness_RegisterResults : issuing handler = true := by decide +kernel
theorem witness_DivisionResults : issuing (set base (x 6 7)) = true := by decide +kernel

theorem witness_BranchResults : issues base = true ∧ targetOk base 0xFFFFFFFFFFFFFFC = true ∧ targetOk handler 0x1000000000000000 = true := by
  decide +kernel
theorem witness_JumpResults : IssuesHandler handler 0 ∧ issues base = true ∧ targetOk base 0x2008 = true := ⟨rfl, by decide +kernel, by decide +kernel⟩
theorem witness_TrapEntry : issuing base = true ∧ issuing handler = true ∧ 0x04#8 ∈ [0x02#8, 0x03#8, 0x04#8] ∧
    0x05#8 ∉ [0x02#8, 0x03#8, 0x04#8] := by decide +kernel
theorem witness_TransferTraps :
    let s := set base (x 6 0x1000000000000000 ∘ x 7 0x2002)
    issues s = true ∧ 2 ^ 60 ≤ (xGet s 6).toNat ∧ (xGet s 7).toNat < 2 ^ 60 ∧ (xGet s 7).toNat % 4 ≠ 0 ∧ xGet s 6 ≠ xGet s 7 ∧ handler.cur = .handler 0 := by decide +kernel
theorem witness_HandlerOnly : issues base = true ∧ (str base).rep = none ∧ issuing handler = true ∧ (0x7B : Parcel).extractLsb' 0 7 = 0x7B := by decide +kernel

/-- Pointers into sg0, into the scratchpad across a granule's end, and at its last byte. -/
def ptrs : State := set base (x 6 0x2000 ∘ x 7 0x1000000000002FFC ∘ x 8 0x100000000002FFFF ∘ x 9 0x4000000000010000)

theorem witness_LoadResults : issuing ptrs = true ∧ curWindow ptrs 0x2000 = none ∧
    [1, 2, 4, 8].all (fun n => isOk (loadCur ptrs (xGet ptrs 6) n) && isOk (loadCur ptrs (xGet ptrs 7) n)) = true := by decide +kernel
theorem witness_ScratchLoad :
    let t := str ptrs
    let off := (gx t 7).toNat % 2 ^ 60
    let d := tget 0 t.segs 1
    issues ptrs = true ∧ writesHeld ptrs t = false ∧ dKind d = 1 ∧ dR d = true ∧ off + 8 ≤ dLimit d + 1 ∧ (off + 7) / 12288 < t.granules.length ∧
      poisoned ptrs .spad 0 196608 = false := by decide +kernel
theorem witness_StoreResults : issuing ptrs = true ∧ curWindow ptrs (xGet ptrs 9) = none ∧
    [1, 2, 4, 8].all (fun n => isOk (storeCur ptrs (xGet ptrs 9) (leBytes n 5)) && isOk (storeCur ptrs (xGet ptrs 7) (leBytes n 5))) = true := by
  decide +kernel
theorem witness_ScratchStore :
    let t := str ptrs
    let off := (gx t 8).toNat % 2 ^ 60
    let d := tget 0 t.segs 1
    issues ptrs = true ∧ writesHeld ptrs t = false ∧ dKind d = 1 ∧ dW d = true ∧ off + 1 ≤ dLimit d + 1 ∧ (off + 1 - 1) / 12288 < t.granules.length := by decide +kernel

/-- Whether an atomic reaches its home unpoisoned. -/
def reaches (s : State) (op : Atomic) (n : Nat) (rd rs1 : BitVec 5) : Bool :=
  match locateAtomic s (xGet s rs1) n with
  | .ok ((sp, a) :: _, s1) =>
    decide (atomicGate s1 op rd sp a = .go) && !poisoned s1 sp a n &&
    (match s.cur with
     | .strand k => (runOf s k.run).replay = none && (runOf s k.run).level = 0
     | .handler _ => true)
  | _ => false

theorem witness_AmoResults : [4, 8].all (fun n => reaches (set base (x 6 0x1000000000000010)) (.amo .add 1) n 5 6 &&
    reaches (set base (x 6 0x4000000000010008)) (.amo .swap 1) n 5 6) = true := by decide +kernel
theorem witness_ReservationResults :
    let s := set base (x 6 0x1000000000000010)
    let r := next (exec (.lrD 5 6 false false) s)
    reaches s .lr 4 5 6 = true ∧ reaches s .lr 8 5 6 = true ∧ reaches r (.sc 1) 8 5 6 = true ∧ resvValid r 8 (xGet s 6) = true ∧
      resvValid s 8 (xGet s 6) = false := by decide +kernel

/-- A copy outstanding. -/
def aCopy : CopyCmd :=
  { id := 1, key := ⟨0, 0⟩, order := 0, kind := 0, record := [], barrier := 0, instr := [], total := 64, done := 0, unit := 1, seq := none, posts := false }
def copying : State := setCluster base 0 (fun c => { c with copies := [aCopy] })

theorem witness_FenceResults : issuing base = true ∧ curHeld base = false ∧ classesDone base (str base) 31 = true ∧ issues copying = true ∧
    classesDone copying (str copying) 31 = false := by decide +kernel

theorem witness_CsrResults : issues base = true ∧ (readCsr base (str base) 0x800).isSome = true ∧ (readCsr base (str base) 0xC00).isSome = false ∧
    (putUserCsr (str base) 12 7).isSome = true ∧ (readCsr base (str base) 0x80C).isSome = true ∧
    (readHandlerCsr handler 0 0x5C6).isSome = true ∧ (writeHandlerCsr handler 0 0x5C6 3).isSome = true := by decide +kernel
theorem witness_CsrFields : (List.range 13).all (fun n => (putUserCsr (str base) n 0).isSome) = true := by decide +kernel
theorem witness_CsrTraps : issues base = true ∧ (str base).rep = none ∧ readCsr base (str base) 0x80D = none ∧ (readCsr base (str base) 0xC00).isNone = true ∧
    ringheadOk (str (set base (fun t => { t with ringsize := 2, ringtail := 3 }))) 0 = false := by decide +kernel

/-- Instructions behind a LOOP or REPB at pc. -/
def looping : State := set (at_ 128 (word [0, 0x0000007F + 0x1000, 0, 0])) (x 7 64)

theorem witness_LoopResults : issues looping = true ∧ (str looping).lpcount = 0 ∧ formOk (.loop 7 1) = true ∧
    isOk (scanBody (str looping) 1 looping 0x2004) = true ∧ (gx (str looping) 7).toNat ≤ 64 ∧ formOk (.repb 7 0 0 0) = true ∧
    (match captureBody (str looping) 0 1 looping 0x2004 0 with
     | .ok (some _, _) => true
     | _ => false) = true ∧ gx (str looping) 0 = 0 := by decide +kernel

/-! ### Claims, ends, messages, barriers -/

/-- A launch that declares 8 blocks, 16 granules, 2 slots and 1 entry; `crowded` has a second crew with every slot. -/
def claiming : State := setRun base 0 (fun r => { r with claims := [8, 8, 16, 16, 0, 2, 0, 1] })
def crowded : State :=
  { claiming with
    runs := claiming.runs ++ [{ runOf claiming 0 with claims := [0, 0, 0, 0, 0, 8, 0, 0] }]
    strands := claiming.strands ++ [{ str claiming with key := ⟨1, 0⟩, slot := 1, vblocks := 0, granules := [] }]
    crews := claiming.crews ++ [{ run := 1, crew := 0, cluster := 0, mslots := List.range 8 }] }

theorem witness_ClaimResults : issues claiming = true ∧ outcome claiming (str claiming) 2 1 = 0 ∧ outcome claiming (str claiming) 0 1 = 3 ∧
    issues crowded = true ∧ outcome crowded (str crowded) 2 1 = 1 ∧ outcome claiming (str claiming) 3 0 = 0 ∧
    (usedSlots claiming 0).length + 2 ≤ 8 ∧ (findCrew claiming 0 0).isSome = true ∧
    formOk (.tryacq 5 2 1 0) = true ∧ formOk (.acq 5 2 1 0) = true ∧ formOk (.claimq 5 3) = true := by decide +kernel
/-- A posting of the strand's first 64 scratch bytes. -/
def aPosting : Posting :=
  { gls := 0, seq := 0, src := 0, target := 0, toff := 0, len := 64, add := false, ordered := true, ty := 0, mode := 0, sat := false, dst := 0 }
/-- A crew with two slots. -/
def slottedBase : State := setCrew base 0 0 (fun c => { c with mslots := [0, 1] })
theorem witness_ReleaseResults : issues base = true ∧ formOk (.rel 5 1 16 0) = true ∧ heldBy base (str base) 1 < 17 ∧ 16 ≤ heldBy base (str base) 1 ∧
    relBusy base (str base) 1 16 = false ∧ relPosted base (str base) 16 = false ∧ (clusterOf base 0).claimq = [] ∧ (str base).rep = none ∧
    relPosted (setRun base 0 (fun r => { r with postings := [aPosting] })) (str base) 16 = true ∧
    relBusy (next (exec (.mzero {}) slottedBase)) (str (next (exec (.mzero {}) slottedBase))) 2 2 = true := by decide +kernel
theorem witness_HaltResults : issues (set base (x 5 9)) = true ∧ classesDone base (str base) 29 = true ∧ gx (str (set base (x 5 9))) 5 ≠ 0 ∧
    base.retained = [] ∧ classesDone copying (str copying) 29 = false ∧ (str base).rep = none := by decide +kernel
/-- Two launches that one graph started. -/
def inGraph : State :=
  let s := setRun base 0 (fun r => { r with origin := .node 0 5 })
  { s with
    runs := s.runs ++ [{ runOf s 0 with origin := .node 0 6 }]
    strands := s.strands ++ [{ str s with key := ⟨1, 0⟩, slot := 1, vblocks := 0, granules := [] }]
    graphs := [{ ctx := 0, q := 0, idx := 0, gid := 0, counter := 0, tag := 0, irq := false }] }
theorem witness_CancelResults_graph : issues inGraph = true ∧ formOk (.cancel 2) = true ∧ (runOf inGraph 0).origin = .node 0 5 ∧
    (runOf inGraph 1).origin = .node 0 6 ∧ (runOf inGraph 0).stage ≠ .done ∧ (runOf inGraph 1).stage ≠ .done ∧
    (strandOf inGraph ⟨1, 0⟩).life ≠ .ended ∧ inGraph.graphs.all (fun g => !g.done) = true := by decide +kernel
theorem witness_CancelResults : issues base = true ∧ formOk (.cancel 2) = true ∧ (str base).key.run < base.runs.length ∧
    (runOf base 0).stage ≠ .done := by decide +kernel

/-- A launch of two strands, the second with a ring of two entries at the last 32 bytes of its first granule. -/
def two : State :=
  let s := setRun base 0 (fun r => { r with nstrand := 2 })
  { s with strands := [str s, { str s with key := ⟨0, 1⟩, slot := 1, ringbase := 0x2FE0, ringsize := 2 }] }
def second (s : State) : Strand := strandOf s ⟨0, 1⟩
def full : State := setStrand two ⟨0, 1⟩ (fun t => { t with ringtail := 2 })
def multiRing : State := setStrand two ⟨0, 1⟩ (fun t => { t with ringsize := 0x80000002 })

def isHere (v : Receiver) (t : Strand) : Bool :=
  match v with
  | .here u => u = t
  | _ => false

theorem witness_SendResults : issues (set two (x 5 1)) = true ∧ (runOf two 0).replay = none ∧ (runOf two 0).level = 0 ∧
    overflowed two (str two) = false ∧ overflowed full (str full) = false ∧ overflowed multiRing (str multiRing) = false ∧ [two, full, multiRing].all (fun s => isHere (receiver s (str s) 1) (second s) && countOk (ringCount (second s)) && ringGranted (second s)) = true ∧
    writesHeld two (str two) = false ∧ ringMulti (second two) = false ∧ ringMulti (second multiRing) = true ∧ (second two).ringFrom = none ∧
    ringUsed (second two) ≠ ringCount (second two) ∧ ringUsed (second full) = ringCount (second full) ∧
    sendGate two (str two) false 1 = .go ∧ sendGate multiRing (str multiRing) true 1 = .go ∧
    sendGate (setRun two 0 (fun r => { r with level := 2 })) (str two) false 1 = .go := by decide +kernel
theorem witness_ReceiveResults :
    let s := { two with cur := .strand ⟨0, 1⟩ }
    s.cur = .strand (second s).key ∧ findStrand s ⟨0, 1⟩ = some (second s) ∧ countOk (ringCount (second s)) = true ∧ ringGranted (second s) = true ∧
    ringUsed (second two) = 0 ∧ ringUsed (second full) ≠ 0 := by decide +kernel

/-- x6 points to a barrier in the last granule, which expects 4 and stands in phase 1. -/
def barred : State := next (exec (.barrive 6 8) (next (exec (.binit 6 7) (set base (x 6 0x100000000002FFF0 ∘ x 7 4 ∘ x 8 4)))))

theorem witness_BarrierResults : issues barred = true ∧ barrierCheck (str barred) (gx (str barred) 6) = none ∧ writesHeld barred (str barred) = false ∧
    (let b := peekNat barred .spad (scratchAddr 0 (str barred).granules 0x2FFF0) 16
     b < 2 ^ 128 ∧ bBroken b = false ∧ bPhase b = 1 ∧ bExpected b = 4 ∧ passed b 0 = true ∧ passed b 1 = false) ∧
    poisoned barred .spad (scratchAddr 0 (str barred).granules 0x2FFF0) 16 = false ∧ (str barred).faults = [] := by decide +kernel

def asked : State := setCore base 0 (fun c => { c with req := 1 })
theorem witness_HintResults : issues base = true ∧ issues asked = true ∧ formOk (.phint 0 16 0 0 0xFF 0xFFFFFFFFFFFFFFFF) = true ∧
    (coreOf base 0).req.getLsbD 0 = false ∧ (coreOf asked 0).req.getLsbD 0 = true := by decide +kernel

/-- A strand frozen by an EBREAK, with its packet at the handler of core 0. -/
def frozen : State :=
  let s := next (exec .ebreak base)
  setCore { s with cur := .handler 0 } 0 (fun c => { c with hawake := true, faultq := c.outq, outq := [] })
theorem witness_DispositionResults : IssuesHandler frozen 0 ∧ physStrand frozen 0 ((xGet frozen 5).toNat % 2 ^ 12) = some (str frozen) ∧
    findStrand frozen (str frozen).key = some (str frozen) ∧ (str frozen).life = .frozen ∧ holdsPacket frozen 0 (str frozen).key = true ∧
    (coreOf frozen 0).valid = false ∧ (coreOf frozen 0).faultq ≠ [] ∧ (coreOf handler 0).faultq = [] :=
  ⟨rfl, by decide +kernel⟩

/-! ### Vectors -/

theorem witness_RoundingNeighbours : (0 : Nat) < 5 ∧ (4 : Nat) < 5 := by decide
theorem witness_VarithResults : issues base = true ∧ resolveMode (str base) 7 = some 0 ∧ (∀ v ∈ [(63 : BitVec 6), 0], v.toNat < 8 * (str base).vblocks) ∧
    (varithForms { ty := 2 }).any (fun e => formOk e.2) = true ∧ (varithLiterals { ty := 2 } 5).any (fun e => formOk e.2) = true ∧
    (let u := set base (fun t => { t with vblocks := 1, vxrm := 6 })
     issues u = true ∧ 6 ≤ (str u).vxrm.toNat % 8 ∧ 8 * (str u).vblocks ≤ 8 ∧ formOk (.vadd { vd := 8, ty := 10, rm := 7 }) = true) := by decide +kernel

def vecs : State := set base (x 6 0x1000000000000040 ∘ x 7 4)
theorem witness_VectorLoads : issues vecs = true ∧
    isOk (gatherElems (wakeRegs vecs (str vecs) [(3, 1)]) (str vecs) 64 true [gx (str vecs) 6 + (0x3F : BitVec 6).signExtend 64 * 64]) = true ∧
    isOk (gatherElems vecs (str vecs) 4 false ((List.range 16).map (fun i => gx (str vecs) 6 + BitVec.ofNat 64 i * gx (str vecs) 7))) = true ∧
    formOk (.vldm { vd := 56, rs := 6, aux := 3 }) = true ∧
    isOk (gatherElems vecs (str vecs) 64 true ((groupAddrs (str vecs) { vd := 56, rs := 6, aux := 3 }).map (·.2))) = true ∧
    formOk (.vgather { vd := 4, vs1 := 8, ty := 10, ty2 := 6, rs := 6 }) = true ∧
    isOk (gatherElems vecs (str vecs) 4 false ((indexedLanes (str vecs) { vd := 4, vs1 := 8, ty := 10, ty2 := 6, rs := 6 }).map (·.2))) = true := by
  decide +kernel
theorem witness_VectorStores : issues vecs = true ∧
    isOk (scatterElems vecs (str vecs) 64 [gx (str vecs) 6] [5]) = true ∧
    isOk (scatterElems vecs (str vecs) 1 [gx (str vecs) 6, gx (str vecs) 6] [5, 6]) = true ∧
    formOk (.vstm { vs1 := 56, rs := 6, aux := 3 }) = true ∧
    isOk (scatterElems vecs (str vecs) 64 ((groupAddrs (str vecs) { vs1 := 56, rs := 6, aux := 3 }).map (·.2)) (List.replicate 8 0)) = true ∧
    formOk (.vscatter { vs1 := 8, vs2 := 4, ty := 10, ty2 := 6, rs := 6 }) = true ∧
    isOk (scatterElems vecs (str vecs) 4 ((indexedLanes (str vecs) { vs1 := 8, vs2 := 4, ty := 10, ty2 := 6, rs := 6 }).map (·.2)) (List.replicate 16 0)) = true := by
  decide +kernel
theorem witness_LaneMoves : issues base = true ∧ Mapped (str base) [63] := ⟨by decide +kernel, by unfold Mapped; decide +kernel⟩
theorem witness_ConversionResults : issues base = true ∧ resolveMode (str base) 0 = some 0 ∧ 60 + 4 ≤ 8 * (str base).vblocks ∧
    [Instr.vcvt { vd := 60, vs1 := 56, ty := 11, ty2 := 9 }, .vunpkmx { vd := 62, ty := 10 }, .vtobsi { vd := 60, ty := 10, vs1 := 2 },
     .vfrombsi { vd := 62, ty := 10, vs1 := 60 }, .vpackmx { ty := 10, vs1 := 62 }, .vmxexp { ty := 10, vs1 := 62 }, .vrand { vd := 63, ty := 6 },
     .vrand { ty := 10 }].all formOk = true := by decide +kernel
theorem witness_LanePermutations : issues base = true ∧ formOk (.vperm { vd := 63 }) = true := by decide +kernel
theorem witness_MaskResults : issues base = true ∧ [Instr.vcmp { vs1 := 63, ty2 := 8 }, .vcmpX160 {} 255, .vpopc { vd := 31 },
    .vslide { vs1 := 63 }, .viota { aux := 1 }, .vcompress {}].all formOk = true ∧ Mapped (str base) [63] :=
  ⟨by decide +kernel, by decide +kernel, by unfold Mapped; decide +kernel⟩
theorem witness_LaneArithmetic : (7 : Nat) < 8 ∧ noMods {} = true ∧ 2 ^ 64 - 1 < 2 ^ tyWidth 7 ∧ 255 < 2 ^ tyWidth 0 ∧ 2 ^ 64 - 1 < 2 ^ tyWidth 11 ∧
    0xFFFF < 2 ^ tyWidth 8 := by decide
/-- Operands of each kind that the clauses on floating-point lanes name: NaN, infinities, zeros, a negative value, an even and an odd power of
two, a whole number, one of magnitude 16. -/
theorem witness_LaneArithmetic_operands :
    [(0x7FC00001, Ideal.nan), (0x7F800000, .inf false), (0xFF800000, .inf true), (0x80000000, .real 0 true), (0, .real 0 false),
     (0xBF800000, .real (-1) true), (0x40800000, .real 4 false), (0x40000000, .real 2 false), (0x40400000, .real 3 false),
     (0xC1800000, .real (-16) true), (1, .real (1 / 2 ^ 149) false)].all
      (fun e => decide (e.1 < 2 ^ 32) && decide (idModify false false (idealOf (formatOf 10) e.1) = e.2)) = true := by decide +kernel
theorem witness_ConversionResults_lanes :
    let types := (List.range 12).map tyNum ++ (List.range 6).map (fun k => narrowNum (k + 1))
    [fp16, bf16, fp32, fp64, e5m2, e4m3, e3m2, e2m3, e2m1, .e8m0, .int true 8, .int false 64].all (fun t => types.contains t) = true ∧
    sourceOf { n1 := true } (.int true 8) 128 = .real (-128) true ∧ sourceOf {} .e8m0 255 = .nan ∧ sourceOf {} .e8m0 127 = .real 1 false ∧
    255 < 2 ^ numBits .e8m0 := by decide +kernel
theorem witness_ReductionResults : issues base = true ∧ resolveMode (str base) 0 = some 0 ∧ [Instr.vred { vs1 := 63 }, .vscan { vd := 63, ty := 10 }].all formOk = true := by
  decide +kernel
theorem witness_AtomicAddition :
    let f : X96 := { vs1 := 8, vs2 := 4, ty := 2, ty2 := 6, rs := 6 }
    let g : X96 := { f with ty := 10, ord := true }
    issues vecs = true ∧ formOk (.vamoadd f) = true ∧ formOk (.vamoadd g) = true ∧ formOk (.vamoadd { g with ord := false }) = true ∧
    (∀ e ∈ indexedLanes (str vecs) f, e.2.toNat % 4 = 0) ∧
    isOk (locateAll (str vecs) 4 .amo vecs ((indexedLanes (str vecs) f).map (·.2))) = true ∧ overflowed vecs (str vecs) = false ∧
    poisoned vecs .spad 0 4 = false ∧ (runOf vecs 0).heldAdds = [] ∧ crewPosts vecs ⟨0, 0⟩ + 16 ≤ 16384 := by decide +kernel

/-! ### Engines -/

theorem witness_InactiveGuards : issues base = true ∧ activeScalar (str base) { ge := true, gr := 0, gb := 63 } = false ∧
    formOk (.mzero { ge := true, gr := 0, gb := 63 }) = true := by decide +kernel

/-- A crew with two slots, the first mastered by the strand, and pointers for the matrix unit. -/
def slotted : State :=
  setSlot (setCrew (set base (x 5 511 ∘ x 6 0x1000000000000000 ∘ x 7 32 ∘ x 8 0x1000000000001000 ∘ x 9 0x00800020 ∘ x 10 0x1000000000008000 ∘
    x 11 0x00007F0000000000 ∘ x 12 0xFFFFFFFFFFFFFE00)) 0 0 (fun c => { c with mslots := [0, 1] })) 0 0 (fun v => { v with master := some ⟨0, 0⟩ })

def okWith {ε α : Type} (r : Except ε α) (p : α → Bool) : Bool :=
  match r with
  | .ok a => p a
  | .error _ => false

theorem witness_MatrixIssue :
    let t := str slotted
    let f : X96 := { vs1 := 6, vs2 := 8, vs3 := 7, ty := 4, ty2 := 4 }
    let g : X96 := { f with vs3 := 9, rs := 10 }
    let d : X96 := { vs1 := 6, vs2 := 11, ty := 10 }
    issues slotted = true ∧ activeScalar t f = true ∧ queueRoom slotted 0 = true ∧ crewSlot slotted t 0 = some 0 ∧ crewSlot slotted t 1 = some 1 ∧
    (gx t 5).toInt = 511 ∧ (gx t 12).toInt = -512 ∧ (slotOf slotted 0 0).master = some t.key ∧ (slotOf slotted 0 1).master = none ∧
    [Instr.mzero { rs := 5 }, .mma f, .mmag g, .mtld { vs1 := 6, ty2 := 4 }, .mtsv { vs1 := 6 }, .mdrain d, .mdrains { d with vs3 := 10 }, .mpeek d,
     .mwait {}, .mwait { aux := 1 }].all formOk = true ∧
    mmaShape f false 32 = some (32, 0, 17) ∧ mmaShape g true 0x00800020 = some (32, 128, 17) ∧
    okWith (scratchSpan t (gx t 6) (127 * 17 + 17) .eread) (· = 0) = true ∧ okWith (mmaB t f 32) (· = 4096) = true ∧
    okWith (readList slotted t (gx t 10)) (fun r => r.1.all (· = 0)) = true ∧ okWith (scratchSpan t (gx t 6) (2 * symCount 4) .eread) (· = 0) = true ∧
    okWith (scratchSpan t (gx t 6) 528 .ewrite) (· = 0) = true ∧ isOk (drainOp slotted t (.mdrain d) d 0 false) = true ∧
    isOk (drainOp slotted t (.mdrains { d with vs3 := 10 }) { d with vs3 := 10 } 0 true) = true ∧ drainCtl d 0x7F0000000000 = some (512, 0, 128) ∧
    (matrixOf slotted t).any (awaits none) = false ∧ (str slotted).faults = [] := by decide +kernel

/-- The state after a command has entered the queue; and with a full queue. -/
def queued (i : Instr) : State := next (exec i slotted)
def fullQueue : State :=
  setQueue (queued (.mzero {})) 0 (fun q => q ++ List.replicate 7 (q.headD { id := 0, key := ⟨0, 0⟩, order := 0, core := 0, granules := [], slot := none, m := 0, op := .mzero 0 }))

theorem witness_MatrixIssue_waits : (matrixOf (queued (.mzero {})) (str (queued (.mzero {})))).any (awaits (some 0)) = true ∧
    queueRoom fullQueue 0 = false ∧ issues fullQueue = true := by decide +kernel

theorem witness_MatrixUnit : nextUnit base 0 = none ∧ clusterOk 383 = true ∧
    [Instr.mzero { rs := 5 }, .mma { vs1 := 6, vs2 := 8, vs3 := 7, ty := 4, ty2 := 4 }, .mtld { vs1 := 6, ty2 := 4 }, .mtsv { vs1 := 6 },
     .mdrain { vs1 := 6, vs2 := 11, ty := 10 }].all (fun i => (nextUnit (queued i) 0).any (fun c => c.core / 8 = 0)) = true ∧
    (slotOf slotted 0 0).poisoned = false ∧ (slotOf slotted 0 0).bad = false ∧
    twf 0 (slotOf slotted 0 0).w = true ∧ twf false (slotOf slotted 0 0).n = true ∧
    scratchLocs 0 (str slotted).granules 0 528 = (List.range 528).map (fun i => (Space.spad, i)) ∧ slotted.spadBad = [] ∧
    (match nextUnit (queued (.mma { vs1 := 6, vs2 := 8, vs3 := 7, ty := 4, ty2 := 4 })) 0 with
     | some c =>
       match c.op with
       | .mma op => isOk (readRows (queued (.mzero {})) c op 1 [0, 127]) && isOk (readBlocks slotted c op.fb op.b 128)
       | _ => false
     | none => false) = true := by decide +kernel

/-- A copy record of 64 bytes, from the scratchpad to itself 4 KiB further, at sg1 offset 0. -/
def rec64 : Nat := (0x1000000000002000 + 0x1000000000003000 * 2 ^ 64) + (64 + 2 ^ 16 + 2 ^ 32 + 2 ^ 48) * 2 ^ 128 + 4 * 2 ^ 496 + 4 * 2 ^ 500
def recorded (n : Nat) : State := poke (set base (x 6 0x1000000000000000 ∘ x 7 0x1000000000000100)) .spad 0 (leBytes 64 n)
def copyState : State := next (exec (.cpy { vs1 := 6 }) (recorded rec64))

theorem witness_CopyResults :
    let s := recorded rec64
    let t := str s
    let h := shapeOf rec64
    issues s = true ∧ activeScalar t {} = true ∧ [Instr.cpy { vs1 := 6 }, .cpyred { vs1 := 6 }, .cpyred { ord := true }, .cpywb {}, .cpyq { vd := 31 }, .cpycan {}].all formOk = true ∧
    (copiesOf s t).length < 16 ∧ okWith (loadAs s t (gx t 6) 64) (fun r => leNat r.1 = rec64) = true ∧ recordOk s t 0 h = true ∧
    recordOk s t 1 { h with dty := 6 } = true ∧ recordOk s t 2 { h with dty := 6 } = true ∧
    recordOk (setRun s 0 (fun r => { r with staging := true })) t 3 { h with dst := 0x2000000000000000 } = true ∧
    copyChecks t 0 h (gx t 7) { cause := 0 } = none ∧ copyChecks t 0 h 0 { cause := 0 } = none ∧ postsAll s t 0 h = false ∧ copyTotal h = 64 ∧
    copyTotal { h with n3 := 0 } = 0 ∧
    (match (clusterOf copyState 0).copies with
     | [c] => c.row.isNone && okWith (rowBytes copyState 0 c (str copyState) h 0) (fun r => r.1.2.all (fun b => !b)) &&
         okWith (rowBytes copyState 0 { c with row := some (List.replicate 64 0, List.replicate 64 false) } (str copyState) h 0)
           (fun r => decide (r.1.1.length = 64)) && c.kind = 0 && c.barrier = 0 && isOk (locateEng copyState t (rowSrc h 0) (srcRow h) .eread) &&
         okWith (locateEng copyState t (rowDst h 0) 64 .ewrite) (fun r => decide r.1.Nodup)
     | _ => false) = true := by decide +kernel

/-- The same copy with a barrier at sg1 offset 0x100, and a reduce-copy of 16 n32 beside it; and its row's homes. -/
def creditState : State := next (exec (.cpy { vs1 := 6, vs2 := 7 }) (recorded rec64))
def redRec : Nat := (0x1000000000002000 + 0x1000000000003000 * 2 ^ 64) + (16 + 2 ^ 16 + 2 ^ 32 + 2 ^ 48) * 2 ^ 128 + 6 * 2 ^ 496 + 6 * 2 ^ 500
def reduceState : State := next (exec (.cpyred { vs1 := 6, vs2 := 7 }) (recorded redRec))
def redHomes : List Loc := (List.range 16).map (fun i => (Space.spad, 0x3000 + 4 * i))

theorem witness_CopyResults_credit :
    [creditState, reduceState].all (fun s => match (clusterOf s 0).copies with
      | [c] => c.barrier = 0x1000000000000100 && (barrierCheck (str s) c.barrier).isNone && !poisoned s .spad (scratchAddr 0 (str s).granules 0x100) 16 &&
          !bBroken (peekNat s .spad (scratchAddr 0 (str s).granules 0x100) 16)
      | _ => false) = true ∧
    (match (clusterOf reduceState 0).copies with
     | [c] =>
       let h := shapeOf (leNat c.record)
       c.kind = 1 && !c.posts && !reduceBlocked reduceState 0 c && (runOf reduceState 0).replay.isNone && !recording reduceState (str reduceState) &&
       okWith (rowBytes reduceState 0 c (str reduceState) h 0) (fun r => r.1.2.all (fun b => !b) &&
         okWith (locateEng r.2 (str reduceState) (rowDst h 0) 64 .ewrite) (fun d =>
           decide (d.1 = redHomes.flatMap (fun l => (List.range 4).map (fun j => (l.1, l.2 + j)))) &&
           decide (d.1 ++ (List.range 16).map (fun i => (Space.spad, 0x100 + i))).Nodup))
     | _ => false) = true ∧ redHomes.all (fun l => !poisoned reduceState l.1 l.2 4) = true := by decide +kernel

/-- A TABLE request (OP 2) at sg1 offset 0. -/
def block2 : Nat := 2 + 0x1000000000001000 * 2 ^ 128 + 0x1000000000002000 * 2 ^ 192
def transforming : State := next (exec (.xreq { vd := 5, rs := 6 }) (setCrew (recorded block2) 0 0 (fun c => { c with xq := 1 })))

theorem witness_TransformResults :
    let s := recorded block2
    let t := str s
    issues s = true ∧ (gx t 6).toNat % 64 = 0 ∧ dKind (segOf t (gx t 6)) = 1 ∧ okWith (loadAs s t (gx t 6) 64) (fun r => leNat r.1 = block2) = true ∧
    xAccepts s t (gx t 6) (xBlockOf block2) = true ∧ xAccepts s t (gx t 6) (xBlockOf (block2 + 1)) = false ∧ xBusy s t = false ∧
    xState s t (gx t 6) = 0 ∧ xState transforming (str transforming) (gx t 6) = 1 ∧
    (clusterOf transforming 0).xq.map (·.state) = [1] ∧ (clusterOf (next (exec (.xformStart 0) transforming)) 0).xq.map (·.state) = [2] ∧
    [Instr.xreq { vd := 31, rs := 6 }, .xpoll { vd := 5, rs := 6 }, .xwait { vd := 5, rs := 6 }].all formOk = true := by decide +kernel

/-- A strand whose cluster's transform entries are all another crew's, and blocks in a final state and in STATE ERROR. -/
def busyXform : State :=
  let s := setCrew (recorded block2) 0 0 (fun c => { c with xq := 0 })
  { s with
    runs := s.runs ++ [{ runOf s 0 with claims := [0, 0, 0, 0, 0, 0, 0, 4] }]
    strands := s.strands ++ [{ str s with key := ⟨1, 0⟩, slot := 1, vblocks := 0, granules := [] }]
    crews := s.crews ++ [{ run := 1, crew := 0, cluster := 0, xq := 4 }] }
def finished (v : Nat) : State :=
  set (recorded (block2 + v * 2 ^ 32)) (fun t => { t with xerrors := [(0x1000000000000000, 0x04, 5)] })
/-- A running REPACK (OP 4) of 2 MXFP8 blocks with a barrier at sg1 offset 0x100. -/
def block4 : Nat := 4 + 0x1000000000000100 * 2 ^ 64 + 0x1000000000001000 * 2 ^ 128 + 0x1000000000002000 * 2 ^ 192 + 2 * 2 ^ 384
def repacking : State := next (exec (.xformStart 0) (next (exec (.xreq { vd := 5, rs := 6 }) (setCrew (recorded block4) 0 0 (fun c => { c with xq := 1 })))))

theorem witness_TransformResults_ends : xBusy busyXform (str busyXform) = true ∧ xAccepts busyXform (str busyXform) (gx (str busyXform) 6) (xBlockOf block2) = true ∧
    issues busyXform = true ∧ xState (finished 3) (str (finished 3)) (gx (str (finished 3)) 6) = 3 ∧ xState (finished 5) (str (finished 5)) (gx (str (finished 5)) 6) = 5 ∧
    (str (finished 5)).xerrors.find? (fun x => x.1 = (gx (str (finished 5)) 6 &&& ~~~0x3F#64)) = some (0x1000000000000000, 0x04, 5) ∧
    (clusterOf repacking 0).claimq = [] ∧ (match (clusterOf repacking 0).xq with
     | [q] =>
       let b := xBlockOf (leNat q.block)
       let t := str repacking
       let e := 4 * mxBits b.fmt
       q.state = 2 && q.piece = 0 && q.credited = 0 && b.op = 4 && b.flags = 0 && xN b = 2 &&
         (match segCheck t b.src (2 * (e + 1)) .eread true false, segCheck t b.dst (2 * e) .ewrite true false,
                segCheck t (b.dst + BitVec.ofNat 64 (2 * e)) 2 .ewrite true false with
          | .ok (.scratch 0x1000), .ok (.scratch 0x2000), .ok (.scratch d1) =>
            decide (scratchLocs t.core t.granules 0x2000 (2 * e) ++ scratchLocs t.core t.granules d1 2 ++ scratchLocs t.core t.granules 4 4 ++
              (List.range 16).map (fun i => (Space.spad, 0x100 + i))).Nodup
          | _, _, _ => false) &&
         (barrierCheck t b.bar).isNone && !poisoned repacking .spad (scratchAddr 0 t.granules 0x100) 16 && !bBroken (peekNat repacking .spad (scratchAddr 0 t.granules 0x100) 16)
     | _ => false) = true := by decide +kernel

/-- A launch that steps, with a peer window in sg3, and one that has posted and arrived. -/
def stepping : State :=
  setRun (set base (fun t => { x 6 0x1000000000000000 (x 7 0x3000000000001000 (x 8 64 t)) with segs := tins t.segs 3 (descOf 0 (2 ^ 48) kPeer true true false 0) })) 0
    (fun r => { r with steps := true })
def arrived : State := next (exec .step (next (exec (.putx { vs1 := 6, vs2 := 7, vs3 := 8, ord := true }) stepping)))

theorem witness_SuperstepResults :
    let t := str stepping
    issues stepping = true ∧ (runOf stepping 0).steps = true ∧ t.key.run < stepping.runs.length ∧
    formOk (.putx { vs1 := 6, vs2 := 7, vs3 := 8, ord := true }) = true ∧ formOk (.putxadd { vs1 := 6, vs2 := 7, vs3 := 8, ty := 2 }) = true ∧
    (gx t 8).toNat ≤ 196608 ∧ okWith (putSource t (gx t 6) 64) (· = 0) = true ∧ putTarget t (gx t 7) 64 = some (0, 4096) ∧ inLaunch stepping t 0 = true ∧
    t.putSeq < 4096 ∧ t.deliveries = [] ∧ classesDone stepping t 13 = true ∧
    allArrived arrived 0 = true ∧ (runStrands arrived 0).any (·.arrived) = true ∧ (runOf arrived 0).postings.length = 1 ∧ (runOf arrived 0).adds = [] ∧
    arrived.postHolds = [] ∧ (runOf arrived 0).postings.all (fun p => !p.add && p.ordered && deliverable arrived 0 p && decide (p.target = 0)) = true ∧
    (str arrived).life = .blocked ∧ (str arrived).rep = none ∧ (str arrived).wait = some (4, .stepLanding) ∧
    (scratchLocs 0 (str arrived).granules 4096 64).Nodup := by decide +kernel
/-- Two postings onto the same bytes, of the two kinds that the statement names. -/
def crossingTwo (add : Bool) : State :=
  let p : Posting := { aPosting with add := add, ty := 2, toff := 4096 }
  setRun arrived 0 (fun r => { r with postings := [{ p with seq := 1, src := 128 }, p] })
theorem witness_SuperstepResults_postings : [true, false].all (fun add =>
    let s := crossingTwo add
    let ps := (runOf s 0).postings
    allArrived s 0 && (runOf s 0).steps && decide (ps.map (fun p => (p.gls, p.seq))).Nodup && ps.all (fun p => p.add == add && p.ordered && deliverable s 0 p &&
      decide (p.toff % 4 = 0) && decide (p.len % 4 = 0) && decide ((postingLocs s 0 p).length = 64) && (postingLocs s 0 p).all (fun l => !poisoned s l.1 l.2 1) &&
      decide (scratchLocs 0 (str s).granules p.toff p.len).Nodup && (scratchLocs 0 (str s).granules p.toff p.len).all (fun l => !poisoned s l.1 l.2 1))) = true := by
  decide +kernel
theorem witness_SuperstepResults_waits :
    let s := setRun copying 0 (fun r => { r with steps := true })
    let u := set s (fun t => { t with deliveries := [7] })
    issues s = true ∧ classesDone s (str s) 13 = false ∧ issues u = true ∧ (str u).deliveries = [7] := by decide +kernel

/-- A job of this package alone, and a SUM of 8 n32 in group 0 whose record stands at sg1 offset 0. -/
def collRec : Nat := 0x1000000000001000 + 0x1000000000002000 * 2 ^ 64 + 8 * 2 ^ 128
def collecting : State :=
  { setRun (recorded collRec) 0 (fun r => { r with jobid := 5 }) with
    jobs := [{ ctx := 0, id := 5, npkg := 1, rank := 0, ngrp := 1, counter := 0, ctimeout := 0, addrs := [3], groups := [1], isSet := true }] }
def collIssued : State := next (exec (.coll { vs1 := 6, aux := 3 }) collecting)

theorem witness_CollectiveResults :
    let t := str collecting
    let r := collRecOf collRec
    issues collecting = true ∧ formOk (.coll { vs1 := 6, aux := 3 }) = true ∧ (collsOf collecting t).length < 8 ∧ (gx t 6).toNat % 64 = 0 ∧
    dKind (segOf t (gx t 6)) = 1 ∧ okWith (loadAs collecting t (gx t 6) 64) (fun v => leNat v.1 = collRec) = true ∧
    (jobOf collecting t).any (fun j => j.groups[r.group]? = some 1) = true ∧ collRecOk 3 0 1 0 r = true ∧
    usesSrc 3 0 0 = true ∧ collPointer t r.src 4 32 .load = none ∧ collPointer t r.dst 4 32 .store = none ∧
    collOverlap t 3 r 0 true true 32 = false ∧ collOut collecting 0 5 0 0 = false ∧
    (match collIssued.colls with
     | [c] => c.result.isNone && c.op = 3 && c.kind = 0 && groupSize (collGroup collIssued c).1 = 1 && c.barrier = 0 &&
         okWith (locateEng collIssued (str collIssued) c.src 32 .eread) (fun v => decide (v.1.length = 32) && v.1.all (fun l => !poisoned v.2 l.1 l.2 1) &&
           okWith (locateEng (consume (collSend (wakeLocs v.2 v.1) c (v.1.map (fun l => peek v.2 l.1 l.2))) (flitFor c)) (str collIssued) c.dst 32 .ewrite)
             (fun w => decide w.1.Nodup && decide (w.1.length = 32) && w.1.all (fun l => !poisoned w.2 l.1 l.2 1))) && c.own.isNone &&
         decide (collGroup collIssued c = (1, 0)) && decide (collIssued.colls.length < 1024)
     | _ => false) = true ∧
    (next (exec (.collInstance 1) collIssued)).colls.any (fun c => c.result.any (fun r => decide (r.2 < 4))) = true := by
  decide +kernel
theorem witness_CollectiveResults_alone (r : Nat) : (1 : BitVec 256).getLsbD r = true ↔ r = 0 := by simp [BitVec.getLsbD_one]

/-- The same group with a second member, which has told nothing: a sum, and a broadcast from here whose result is there. -/
def together : State := { collIssued with gtc := 10 ^ 6, jobs := collIssued.jobs.map (fun j => { j with npkg := 2, addrs := [3, 4], groups := [3], ctimeout := 1 }) }
def casting : State := { together with colls := together.colls.map (fun c => { c with op := 1, root := 0, result := some ([], 0) }) }
theorem witness_CollectiveResults_ends :
    (match together.colls, casting.colls, (next (exec (.collInstance 1) collIssued)).colls with
     | [c], [d], [e] => decide (otherRanks together c = [1]) && decide (collNews together c = []) && !allIssued together c && !collWhole together c &&
         c.result.isNone && c.barrier = 0 && decide (c.since + 1000 ≤ together.gtc) && decide (otherRanks casting d = [1]) && decide (collNews casting d = []) &&
         decide (membersBelow 3 0 = d.root) && d.op < 2 && decide (e.result.map (·.2) = some 0) && e.barrier = 0 && decide (otherRanks collIssued e = []) &&
         !collLate collIssued c && collLate together c
     | _, _, _ => false) = true ∧ offOf (0x1000000000000000 : Word) + 28 = 28 ∧ (scratchLocs 0 (str collIssued).granules 28 4).Nodup := by decide +kernel

/-- What another participant tells is a free value of the flit's payload (log entry 17). Wherever a payload says some news of this instance,
the state in which that flit has arrived meets the clause about that news. -/
def toldBy (p : BitVec 512) : State := { together with links := [(0, { inbox := [{ payload := p }] })] }
theorem witness_CollectiveResults_told (p : BitVec 512) (n : Config.CollNews) (h : Config.flitColl p = ((0, 5, 0, 0), n)) :
    ∀ c ∈ together.colls, (c.ctx, c.job, c.group, c.seq) = (0, 5, 0, 0) → collNews (toldBy p) c = [n] := by
  intro c _ hc
  simp [collNews, toldBy, inboxes, flitFor, h, hc]
theorem witness_CollectiveResults_named : together.colls.map (fun c => (c.ctx, c.job, c.group, c.seq)) = [(0, 5, 0, 0)] := by decide +kernel

/-- A broadcast of 32 bytes from the second member, whose notice of issue and whose one data flit have arrived. -/
def castHere (p q : BitVec 512) : State :=
  { together with
    links := [(0, { inbox := [{ payload := p }, { hdr := 1, payload := q }] })]
    colls := together.colls.map (fun c => { c with op := 1, root := 1, own := some [] }) }
theorem witness_CollectiveResults_cast (p q : BitVec 512) (bs : List (Byte × Bool)) (c : Coll)
    (hp : Config.flitColl p = ((0, 5, 0, 0), .issued 1 0 1 0 8 1 c.mask)) (hq : Config.flitColl q = ((0, 5, 0, 0), .piece 0 bs))
    (hc : (c.ctx, c.job, c.group, c.seq, c.op, c.kind, c.count, c.root, c.since) = (0, 5, 0, 0, 1, 0, 8, 1, 0))
    (ho : otherRanks (castHere p q) c = [1]) :
    collBroken (castHere p q) c = false ∧ collLate (castHere p q) c = false ∧ collTold (castHere p q) c = true ∧
    collWhole (castHere p q) c = true ∧ collPieces (castHere p q) c = [(0, bs, q)] := by
  simp only [Prod.mk.injEq] at hc
  obtain ⟨h1, h2, h3, h4, h5, h6, h7, h8, h9⟩ := hc
  have hi : inboxes (castHere p q) = [{ payload := p }, { hdr := 1, payload := q }] := rfl
  have hn : collNews (castHere p q) c = [.issued 1 0 1 0 8 1 c.mask, .piece 0 bs] := by
    simp [collNews, hi, flitFor, hp, hq, h1, h2, h3, h4]
  have ht : collTold (castHere p q) c = true := by simp [collTold, hn, ho]
  refine ⟨?_, ?_, ht, ?_, ?_⟩
  · simp [collBroken, hn, noticeAgrees, h5, h6, h7, h8]
  · simp [collLate, collTimes, hn, h9, allIssued, ht]
  · simp [collWhole, wirePieces, collPieces, hi, flitFor, hp, hq, h1, h2, h3, h4, h5, h6, h7, flitType, flitData, wireSize, collRooted, collSize]
  · simp [collPieces, hi, flitFor, hp, hq, h1, h2, h3, h4, h5, flitType, flitData, collRooted]
theorem witness_CollectiveResults_group : (match (castHere 0 0).colls with
     | [c] => c.ctx = 0 && c.job = 5 && c.group = 0 && c.seq = 0 && c.op = 1 && c.kind = 0 && c.count = 8 && c.root = 1 && c.since = 0 &&
         decide (otherRanks (castHere 0 0) c = [1])
     | _ => false) = true := by decide +kernel

/-! ### What happens of itself -/

def stored : State := next (exec (.sd 9 7 0) ptrs)
def buddied : State := setCore (next (exec .ebreak base)) 0 (fun c => { c with pairtab := some 0 })
def waiting : State := next (exec (.bwait 5 6 0) (next (exec (.binit 6 7) (set base (x 6 0x100000000002FFF0 ∘ x 7 4)))))
def peeking : State := next (exec (.mpeek { vs1 := 6, vs2 := 11, ty := 10 }) slotted)
/-- A strand that waits for itself: its own ring is full and it sends to itself. -/
def stuck : State :=
  setDie (next (exec (.sendS 0 0) (set base (fun t => { t with ringsize := 2, ringtail := 2 })))) 0 (fun d => { d with cycles := 4096 })
def receiving : State :=
  setDie (next (exec (.recv 5) (set base (fun t => { t with ringsize := 2 })))) 0 (fun d => { d with cycles := 4096 })
def acquiring : State := setDie (next (exec (.acq 5 2 1 0) crowded)) 0 (fun d => { d with cycles := 2 ^ 26 })
def held : State := setDie (next (exec (.halt 5 true) (set base (x 5 9)))) 0 (fun d => { d with cycles := 2 ^ 20 })
def escalatedState : State := next (exec (.escal 5) frozen)

/-- A strand whose replay has diverged at decision 3. -/
def replaying : State := set (setRun base 0 (fun r => { r with replay := some { base := 0, size := 0, session := 1 } })) (fun t => { t with diverged := some 3 })

theorem witness_StrandEvents_cores : coreOk 3071 = true ∧ (coreOf stored 0).stores ≠ [] ∧ (coreOf (next (exec .ebreak base)) 0).outq ≠ [] ∧
    pairtabOf base 0 = 1 ∧ (coreOf base 1).faultq.length < 16 ∧ pairtabOf buddied 0 = 0 ∧ (coreOf buddied 0).outq ≠ [] ∧
    (let s := setCore frozen 0 (fun c => { c with hawake := false })
     (coreOf s 0).faultq ≠ [] ∧ (coreOf s 0).hawake = false ∧ (coreOf s 0).hfrozen = false) := by decide +kernel
/-- The waiting strand's barrier with its credit. -/
def credited : State := credit waiting ⟨0, 0⟩ 0 0x100000000002FFF0 4 0
theorem witness_StrandEvents_strands : (str base).cancelPending = false ∧ (str base).life = .running ∧
    (str (set base (fun t => { t with cancelPending := true }))).cancelPending = true ∧
    (str waiting).life = .blocked ∧ (str waiting).wait = some (4, .bwait 5 0x100000000002FFF0 0) ∧ (str waiting).faults = [] ∧
    passed (peekNat credited .spad (barrierAt (str credited) 0x100000000002FFF0) 16) 0 = true ∧ (str credited).life = .blocked ∧
    poisoned credited .spad (barrierAt (str credited) 0x100000000002FFF0) 16 = false ∧ (str credited).wait = some (4, .bwait 5 0x100000000002FFF0 0) ∧
    (str peeking).life = .blocked ∧ (match (str peeking).wait with
      | some (12, .peek 0 0 _) => true
      | _ => false) = true ∧ crewSlot peeking (str peeking) 0 = some 0 ∧ zeroDone peeking 0 0 = true ∧
    (str (next (exec (.lrD 5 6 false false) (set base (x 6 0x1000000000000010))))).resv.isSome = true ∧
    (runOf replaying 0).replay ≠ none ∧ (str replaying).diverged = some 3 ∧ (runOf base 0).replay = none ∧
    (str peeking).saving = none ∧ (str peeking).faults = [] ∧ atBoundary (str base) = true ∧ (str waiting).saving = none ∧ 0 < base.runs.length ∧ (runOf base 0).stage ≠ .done ∧
    waitsOnMessages stuck (str stuck) = true ∧ (str stuck).waitSince + 4096 ≤ now stuck 0 ∧ deadlocked stuck 0 (reach stuck 0 1 [0]) = true ∧
    minOf (reach stuck 0 1 [0]) = 0 ∧ waitsOnMessages receiving (str receiving) = true ∧ deadlocked receiving 0 (reach receiving 0 1 [0]) = false ∧
    ((clusterOf acquiring 0).claimq.find? (fun q => q.key = ⟨0, 0⟩)).any (fun q => !q.recorded && decide (q.since + 2 ^ 26 ≤ now acquiring 0)) = true := by
  decide +kernel
theorem witness_StrandEvents_pools : clusterOk 0 = true ∧ held.retained.any (fun h => h.tag = 9 && decide (h.since + 2 ^ 20 ≤ now held h.core)) = true ∧
    physStrand escalatedState 0 0 = some (str escalatedState) ∧ (str escalatedState).life = .frozen ∧ (str escalatedState).escalated = true := by
  decide +kernel

/-- A requested strand whose save of two registers has begun, with an area of 1 MiB. -/
def saving : State :=
  let s := set asked (fun t => { t with granules := [], saveAddr := 0x100000, saveSize := 0x100000, preSince := some 0, saving := some (3, 0, 0, false) })
  setDie s 0 (fun d => { d with cycles := 65536 })
def livePlan : SavePlan := planNow saving (str saving) (3, 0, 0, false)
/-- The same with an area that is too small, with a fault to answer for, and beside a strand of the crew that is not yet ready. -/
def cramped : State := set saving (fun t => { t with saveSize := 64 })
def faulted : State := set saving (fun t => { t with faults := [{ order := 0, cause := 0x07, fetch := false, tval := 5, slot := none, barrier := none, src := 0, addr := 0 }] })
def unready : State := { saving with strands := saving.strands ++ [{ str saving with key := ⟨0, 1⟩, saving := none }] }
/-- The same with a cancel that waits. -/
def cancelled : State := set saving (fun t => { t with cancelPending := true })
/-- Two strands of a crew that are saved together, the second to an area of its own; the second's area out of reach; and an area whose CTRL
alone stands in a page that is not mapped. -/
def pair (addr : Nat) : State :=
  let s := setCore saving 0 (fun c => { c with req := 3 })
  { s with strands := [str saving, { str saving with key := ⟨0, 1⟩, slot := 1, saveAddr := addr }] }
def edged : State := poke (set saving (fun t => { t with saveAddr := 2 ^ 31 - 8 })) .dev placeRoot (leBytes 8 0 ++ leBytes 8 0x7F)
/-- The state in which the pieces are written. -/
def ready : State := release (wakeSaved saving (str saving) livePlan) 0 ⟨0, 0⟩

/-- Whether a save may be written. -/
def saveGoes (s : State) (live : BitVec 64 × BitVec 16 × BitVec 8 × Bool) : Bool :=
  findStrand s ⟨0, 0⟩ = some (str s) && (str s).saving = some live && (str s).life = .running && !cancelFirst (str s) &&
  decide (saveSizeOf (planNow s (str s) live) ≤ (str s).saveSize) && !saveWaits s (str s) && (str s).faults.isEmpty &&
  (saveGroup s (str s)).all (saveReady s) && (saveGroup s (str s)).all (fun v => findStrand s v.key = some v)

theorem witness_SaveEvents : coreOk 0 = true ∧ (str saving).preSince = some 0 ∧ 0 + 65536 ≤ now saving 0 ∧ requested saving (str saving) = true ∧
    (str saving).saving = some (3, 0, 0, false) ∧ (str saving).life = .running ∧ atBoundary (str saving) = true ∧ (str saving).cancelPending = false ∧
    (str cancelled).cancelPending = true ∧ cancelFirst (str cancelled) = true ∧ cancelFirst (str cramped) = false ∧ 0 < saveSizeOf livePlan ∧
    saving.strands.all (fun t => decide (t.slot < 4)) = true ∧
    saveWaits (queued (.mzero {})) (str (queued (.mzero {}))) = true ∧ (str cramped).saveSize < saveSizeOf livePlan ∧
    ((str cramped) :: saveGroup cramped (str cramped)).all (fun v => (clusterOf cramped (v.core / 8)).claimq.isEmpty) = true ∧
    (earliest (str faulted).faults).isSome = true ∧ saveWaits faulted (str faulted) = false ∧ (str unready).faults = [] ∧
    (saveGroup unready (str unready)).all (saveReady unready) = false ∧ (str frozen).life ≠ .running ∧ (str frozen).life ≠ .blocked := by decide +kernel
theorem witness_SaveEvents_requests : (str asked).saving = none ∧ Oblig.asked base 0 1 0 0 ∧
    (now saving 0 < 1 + 65536) ∧ (coreOf base 0).savingBits.getLsbD 0 = false := by
  refine ⟨by decide +kernel, Or.inl ⟨rfl, by decide⟩, by decide +kernel, by decide +kernel⟩
theorem witness_SaveEvents_goes : saveGoes saving (3, 0, 0, false) = true ∧ (saveGroup saving (str saving)).map (·.key) = [⟨0, 0⟩] ∧
    (clusterOf saving 0).claimq = [] ∧ livePlan.slots = [] ∧ livePlan.copies = [] := by decide +kernel
theorem witness_SaveEvents_pieces : badBarrier ready (str saving) livePlan = none ∧
    let r := writePieces 0 0 0x100000 (savePieces ready (str saving) livePlan) ready
    r.2 = none ∧ (match ctxLocs r.1 0 0x100000 8 .store with
      | .ok v => decide v.1.Nodup
      | .error _ => false) = true := by decide +kernel
theorem witness_SaveEvents_abort : (writePieces 0 0 (2 ^ 50) (savePieces ready (str saving) livePlan) ready).2.isSome = true := by decide +kernel

/-- The group of a state that is saved: whether its areas, and then CTRL of each, are written. -/
def groupRun (s : State) : Bool × Bool :=
  let ps := savePlans s (saveGroup s (str s))
  let r := writeAreas ps s
  (r.2.2.isNone, (writeCtrls ps r.1).2.isNone)
theorem witness_SaveEvents_groups : (saveGroup (pair 0x200000) (str (pair 0x200000))).length = 2 ∧
    [pair 0x200000, pair (2 ^ 50), edged].all (fun s => saveGoes s (3, 0, 0, false) && (clusterOf s 0).claimq.isEmpty) = true := by decide +kernel
theorem witness_SaveEvents_whole : groupRun (pair 0x200000) = (true, true) := by decide +kernel
theorem witness_SaveEvents_fails : (groupRun (pair (2 ^ 50))).1 = false ∧ groupRun edged = (true, false) := by decide +kernel

/-- A copy into sg1 is in flight, and the word of its barrier at offset 0x100 cannot be read. -/
def unread : State :=
  let s := set saving (fun t => { t with granules := (str base).granules })
  next (Sys2Proof.Machine.execEccUncorrected (.scratchpad 0 0x100) (setCluster s 0 (fun c =>
    { c with copies := [{ aCopy with record := leBytes 64 rec64, barrier := 0x1000000000000100 }] })))
theorem witness_SaveEvents_barrier :
    let t := str unread
    let p := planNow unread t (3, 0, 0, false)
    saveGoes unread (3, 0, 0, false) = true ∧ (saveGroup unread t).map (·.key) = [⟨0, 0⟩] ∧
    badBarrier (release (wakeSaved unread t p) 0 ⟨0, 0⟩) t p = some 0x100 := by decide +kernel

def loadedPacket : State := next (exec .stret frozen)
theorem witness_WindowEvents : findStrand base ⟨0, 0⟩ = some (str base) ∧ (0x802 : BitVec 12).toNat = 0x800 + 2 ∧ (0x809 : BitVec 12).toNat = 0x800 + 9 ∧
    ringheadOk (str (set base (fun t => { t with ringsize := 2, ringtail := 2 }))) 0 = true ∧
    ringheadOk (str (set base (fun t => { t with ringsize := 2, ringtail := 3 }))) 0 = false ∧ isOk (fetchParcel base (str base) 0x2000) = true ∧
    (coreOf base 0).valid = false ∧ (coreOf loadedPacket 0).valid = true ∧ loadedStrand loadedPacket 0 = some (str loadedPacket) ∧
    windowStrand base 0 0 = none ∧ windowStrand loadedPacket 0 0 = some (str loadedPacket) := by decide +kernel

/-! ### Queues, launches, graphs -/

/-- Context 0 with one queue, whose ring stands at 0x100000 and holds one packet. -/
def packeted (v : Nat) : State :=
  poke (setContext base 0 (fun c => { c with code := 0x100000, queues := [{ tail := 1 }], maniSize := 2 ^ 26 })) .dev 0x100000 (leBytes 64 v)

/-- Whether packet 0 of the queue starts. -/
def starts (s : State) (op v : Nat) : Bool :=
  let x := queueAt s 0 0
  queueExists s 0 0 && !x.stopped && x.hold.isNone && decide (skipDone x x.finished.length x.next = 0) && decide (0 ≠ x.tail) &&
  readPacket s 0 0 0 = some v && !packetBad v && !levelBad s 0 v && v % 256 = op && x.running.isEmpty

def waitingQueue : State := next (exec (.waitPacket 0 0) (packeted (4 + 0x200000 * 2 ^ 64)))
theorem witness_LaunchEvents_packets :
    [(1, 1 + 0x200000 * 2 ^ 64), (6, 6 + 0x200000 * 2 ^ 64), (2, 2 + 0x200000 * 2 ^ 64), (3, 3 + 2 * 2 ^ 64), (8, 8 + 0x200000 * 2 ^ 64 + 5 * 2 ^ 128),
     (4, 4 + 0x200000 * 2 ^ 64), (7, 7 + 0x200000 * 2 ^ 64 + 5 * 2 ^ 128)].all (fun e => starts (packeted e.2) e.1 e.2) = true ∧
    coveredBy (packeted 2) 0 0 0 .graph 0 = none ∧ (queueAt waitingQueue 0 0).hold = some 0 ∧ ctxRead waitingQueue 0 0x200000 8 = some (leBytes 8 0) ∧
    (signalWrite (packeted 7) 0 0x200000 5).isSome = true ∧ reachable (packeted (5 + 3 * 2 ^ 96)) 0 0 0 = true ∧
    packetBad (5 + 3 * 2 ^ 96) = false ∧
    (let s := next (exec (.signalPacket 0 0) (packeted (7 + 0x200000 * 2 ^ 64)))
     queueExists s 0 0 = true ∧ (queueAt s 0 0).hold = none ∧ skipDone (queueAt s 0 0) (queueAt s 0 0).finished.length (queueAt s 0 0).next = 1) := by
  decide +kernel

/-- A kernel, its launch record (one crew), and a queued launch of it. -/
def kernel : Kernel := { entry := 0x2000, size := 4, name := [], strands := 1, steps := false, claims := [0, 0, 0, 0, 0, 0, 0, 0], segs := [], ordered := true }
def launching (steps : Bool) (crews : Nat) : State :=
  let s := setContext { base with strands := [], crews := [], runs := [] } 0 (fun c =>
    { c with objects := [{ handle := 1, base := 0, size := 4096, kernels := [{ kernel with steps := steps }], symbols := [], relocs := [] }] })
  poke { s with runs := [{ noRun with recAddr := 0x200000 }], status := 1 } .dev 0x200000 (leBytes 32 (1 + 7 * 2 ^ 64 + crews * 2 ^ 128))
def passedRun : State := next (exec (.launchStart 0) (launching false 1))
/-- A record that arms one crew of launch 7 for cluster 0, core 0. -/
def armed (flags : Nat) : BitVec 256 := BitVec.ofNat 256 (7 + flags * 2 ^ 56 + 2 ^ 64 + 2 ^ 96 + 2 ^ 104)
def binding : State := next (Sys2Proof.Machine.execBindRecordWrite 0 255 (armed 1) passedRun)
def ganging : State := next (Sys2Proof.Machine.execBindRecordWrite 3 255 (armed 3) (next (exec (.launchStart 0) (launching true 1))))

theorem witness_LaunchEvents_starts :
    let s := launching false 1
    let r := runOf (dropTlbs s 0) 0
    (queueAt s 0 (runPlace s (runOf s 0)).1).replay = none ∧ 0 < s.runs.length ∧ (runOf s 0).stage = .queued ∧ (runOf s 0).cancelled = false ∧
    (readRecord (dropTlbs s 0) r).any (fun v => (runCovered (dropTlbs s 0) r v).isNone && recordOk2 (dropTlbs s 0) r v kernel &&
      !jobShut (dropTlbs s 0) r (recField v 12 4) && kernelAt (dropTlbs s 0) 0 (recField v 0 4) (recField v 4 2) = some kernel) = true ∧
    readRecord (dropTlbs (setRun s 0 (fun r => { r with recAddr := 8 })) 0) { r with recAddr := 8 } = none ∧
    (runOf passedRun 0).stage = .passed ∧ (runOf ganging 0).stage = .gangWait ∧ gangWaits ganging 0 = true ∧ gangFirst ganging 0 = true ∧
    (gangNeeds ganging 0).all (fun c => (gangCrews (gangRecords ganging 0)).any (fun e => e.1 = c)) = true ∧
    (gangBind ganging 0 ((gangCrews (gangRecords ganging 0)).filter (fun e => (gangNeeds ganging 0).contains e.1))).isSome = true ∧
    gangWaits s 0 = false ∧ (runOf ganging 0).since + 2 ^ 20 ≤ (dieOf (setDie ganging 0 (fun d => { d with cycles := 2 ^ 20 })) 0).cycles := by
  decide +kernel
theorem witness_LaunchEvents_binds : bindRecOk (armed 1) = true ∧ (armed 1).getLsbD 56 = true ∧ entryFree passedRun 0 255 = true ∧ bindRecOk 0 = false ∧
    (entryOf binding 0 255).any (fun e => !recGang (bindRecOf e.record) && decide (e.next < 1) && recRun binding (bindRecOf e.record) = some 0) = true ∧
    (runOf binding 0).cancelled = false ∧ (runOf binding 0).steps = false ∧ 0 < (runOf binding 0).ncrew ∧
    (admitCrew binding 0 0 0 0 (bindRecOf (armed 1))).isSome = true ∧ entryFree binding 0 255 = false := by decide +kernel
def boundRun : State := next (Sys2Proof.Machine.execBindCrew 0 255 binding)
theorem witness_LaunchEvents_completes : (runOf boundRun 0).stage = .bound ∧ (runOf boundRun 0).heldAdds = [] ∧ crewsFinished boundRun 0 = false ∧
    (let s := next (exec (.halt 0 false) { boundRun with cur := .strand ⟨0, 0⟩ })
     (runOf s 0).stage = .bound ∧ crewsFinished s 0 = true) := by decide +kernel
/-- The bound crew saved, its record withdrawn, and a record that resumes it. -/
def savedRun : State :=
  let s1 := setStrand boundRun ⟨0, 0⟩ (fun t => { t with saveAddr := 0x300000, saveSize := 0x1000, saving := some (0, 0, 0, false) })
  let s2 := next (Sys2Proof.Machine.execSaveWrite ⟨0, 0⟩ (setCore s1 0 (fun c => { c with req := 1 })))
  next (Sys2Proof.Machine.execBindRecordWrite 0 255 (armed 5) (next (Sys2Proof.Machine.execBindRecordWithdraw 0 255 s2)))
theorem witness_LaunchEvents_resumes : (strandOf savedRun ⟨0, 0⟩).life = .saved ∧
    (entryOf savedRun 0 255).any (fun e => recResume (bindRecOf e.record) && decide (e.next < 1) && recRun savedRun (bindRecOf e.record) = some 0) = true ∧
    (resumeCrew savedRun 0 0 0 (bindRecOf (armed 5))).isSome = true := by decide +kernel

/-- A graph with one node ready, at 0x200000. -/
def graphed (v : Nat) (running : List (Nat × Word × Word)) : State :=
  poke { base with graphs := [{ ctx := 0, q := 0, idx := 0, gid := 0, counter := 0, tag := 0, irq := false, ready := [0x200000], running := running }] }
    .dev 0x200000 (leBytes 64 v)
theorem witness_GraphEvents : (graphAt (graphed 0 []) 0).done = false ∧ (graphAt (graphed 0 [(0, 0, 0)]) 0).cause = none ∧ (graphAt (graphed 0 []) 0).ending = false ∧
    nodesRunning (graphed 0 [(0, 0, 0)]) < 256 ∧
    [1 + 0x300000 * 2 ^ 192, 2 + 0x300000 * 2 ^ 192, 3 + 0x300040 * 2 ^ 64 + 0x300000 * 2 ^ 192, 4 + 0x300040 * 2 ^ 128 + 0x300000 * 2 ^ 192,
     5 + 2 ^ 16 + 0x300040 * 2 ^ 64, 5 + 2 * 2 ^ 16 + 0x300040 * 2 ^ 64, 6 + 0x300040 * 2 ^ 64 + 0x300000 * 2 ^ 192].all (fun v =>
      (readNode (graphed v []) 0 0x200000).any (fun w => w = v && nodeOk w)) = true ∧
    nodeOk 7 = false ∧ ctxRead (graphed 0 []) 0 0x300000 8 = some (leBytes 8 0) ∧ (signalWrite (graphed 0 []) 0 0x300000 5).isSome = true ∧
    (let s : State := { base with graphs := [{ ctx := 0, q := 0, idx := 0, gid := 0, counter := 0, tag := 0, irq := false }] }
     0 < s.graphs.length ∧ (graphAt s 0).running = [] ∧ (graphAt s 0).ready = [] ∧ (graphAt s 0).done = false) := by decide +kernel

/-! ### The host, the package, the fabric -/

/-- A command block under way. -/
def commanded (v : Nat) (s : State) : State := { s with cmdBusy := true, cmdBlock := v }
def frozenHost : State := commanded (5 + 2 ^ 96) escalatedState
/-- A job table of one package at device address 0x200000. -/
def jobTable : List Byte := leBytes 4 5 ++ leBytes 2 1 ++ leBytes 2 0 ++ leBytes 2 1 ++ List.replicate 22 0 ++ [3] ++ List.replicate 255 0 ++ leBytes 32 1
def jobbing : State := commanded (16 + 5 * 2 ^ 64 + 0x200000 * 2 ^ 128 + 320 * 2 ^ 192) (poke base .dev 0x200000 jobTable)
def linked : State := putLink { base with status := 1 } 35 (fun l => { l with up := true, buffer := [sealFlit { hdr := 1 }], sendSeq := 1 })
def linkedJobbing : State := putLink jobbing 0 (fun l => { l with up := true })
def jobSet (isSet : Bool) (gtc : Nat) (op : Nat) : State :=
  commanded (op + 5 * 2 ^ 64)
    { base with gtc := gtc, jobs := [{ ctx := 0, id := 5, npkg := 1, rank := 0, ngrp := 1, counter := 0, ctimeout := 0, addrs := [3], groups := [1],
                                       agreed := [(0, 0)], isSet := isSet, closed := op = 0 }] }

/-- A JOBSET of two packages, a second old. -/
def jobTwo : State := { jobSet false (10 ^ 9) 16 with jobs := (jobSet false (10 ^ 9) 16).jobs.map (fun j => { j with npkg := 2, addrs := [3, 4] }) }
/-- Wherever a payload says that the other member has set its table, the state in which that flit has arrived has the news of every member. -/
theorem witness_HostEvents_told (p : BitVec 512) (h : Config.flitMember p = (0, 5, 1, .same 0)) :
    ∀ j ∈ jobTwo.jobs, (j.ctx, j.id) = (0, 5) → jobNews { jobTwo with links := [(0, { inbox := [{ payload := p }] })] } j true = [(1, .same 0)] := by
  intro j _ hj
  simp only [Prod.mk.injEq] at hj
  simp [jobNews, inboxes, h, hj.1, hj.2, ofSetting]

theorem witness_HostEvents_commands : base.cmdBusy = false ∧ contextOf base 0 = contextOf base 0 ∧ (contextOf base 0).isSome = true ∧
    contextOf base 15 = none ∧ contextOk (contextFrom (1 + 15 * 2 ^ 8 + 64 * 2 ^ 24)) = true ∧
    openRuns { base with runs := [] } 0 = [] ∧ openGraphs base 0 = [] ∧
    (match loadElf base 0 (peekN base .dev 0 64) with
     | .error _ => true
     | .ok _ => false) = true ∧
    ((contextOf (launching false 1) 0).any (fun c => c.objects.any (fun o => o.handle = 1) && !c.objects.any (fun o => o.handle = 2))) = true ∧
    [{ noRun with recAddr := 8 }, { noRun with stage := .bound, handle := 2 }].all (fun r => (r.stage ≠ .queued && r.handle ≠ 1) ||
      (r.stage = .queued && (readRecord (launching false 1) r).isNone)) = true ∧
    physStrand frozenHost 0 0 = some (str frozenHost) ∧ (str frozenHost).life = .frozen ∧ (str frozenHost).escalated = true ∧
    jobNamed jobbing 0 5 = none ∧ poisoned jobbing .dev 0x200000 320 = false ∧
    (jobFrom jobbing 0 (peekN jobbing .dev 0x200000 320)).any (fun j => j.id = 5 && j.npkg = 1 && j.ngrp = 1) = true ∧
    upLinks linkedJobbing = [0] ∧ setsHeld linkedJobbing = 0 ∧
    (jobNamed jobTwo 0 5).any (fun j => !j.isSet && decide (j.since + 10 ^ 9 ≤ jobTwo.gtc) && decide (j.agreed.find? (fun e => e.1 = j.rank) = some (0, 0)) &&
      decide (j.npkg = 2) && decide (j.rank = 0) && decide (jobNews jobTwo j true = [])) = true ∧
    (jobNamed (jobSet false 5 16) 0 5).any (fun j => decide (5 < j.since + 10 ^ 9)) = true ∧
    (jobNamed (jobSet true 0 17) 0 5).any (·.isSet) = true ∧ (jobNamed (jobSet true 0 18) 0 5).any (·.isSet) = true := by decide +kernel
theorem witness_HostEvents_ports : (jobSet true 0 0).jobs.any (fun j => j.closed && j.isSet && (jobOpenRuns (jobSet true 0 0) j).isEmpty && (jobNews (jobSet true 0 0) j false).isEmpty && !jobWaits (jobSet true 0 0) j) = true ∧
    ((jobSet true 0 0).jobs.filter (fun i => i.id = 5 && i.isSet)).length = 1 ∧ base.status ≠ 1 ∧ linked.status = 1 ∧
    (jobSet true 0 0).links = [] ∧ queueOk 15 63 = true ∧ queueExists (packeted 0) 0 0 = true ∧ queueOk 0 0 = true ∧
    poisoned base .host base.cmdAddr.toNat 64 = false ∧ cmdClean (peekNat base .host base.cmdAddr.toNat 64) = false ∧
    cmdClean (1 + 15 * 2 ^ 8) = true ∧ Config.deviceBytes - 4 + [0, 0, 0, (1 : Byte)].length ≤ Config.deviceBytes := by decide +kernel

theorem witness_PackageEvents_errors : sourceOk 0 = true ∧ base.logSize = 0 ∧ (str base).life = .running ∧ (str base).saving = none ∧ clusterOk 383 = true ∧
    (coreOf base 3071).failed = false ∧ onCore (str base) = true ∧ (clusterOf base 0).outOfService = false ∧ hardFaulty base 0 = false ∧
    hardFaulty (setCore base 0 (fun c => { c with failed := true })) 0 = true := by decide +kernel
def aHint : Hint := { ctx := 0, line := 0x80, key := ⟨0, 0⟩, step := 0 }
theorem witness_PackageEvents_package : State.reset.status = 0 ∧ ({ base with status := 1 } : State).status ≠ 0 ∧ ({} : Firmware).outOfService.all clusterOk = true ∧
    (usedGranules base 0).contains 15 = true ∧ (coreOf base 0).hints = [] ∧ (dieOf base 0).walkq = [] ∧
    (let s := setCore base 0 (fun c => { c with hints := [aHint] })
     (coreOf s 0).hints.find? (fun h => !hintWalking s 0 h) = some aHint ∧ hintMapped s 0 aHint = false ∧
     (dieOf (next (exec (.icacheFill 0) s)) 0).walkq ≠ [] ∧ hintMapped (next (exec (.pageWalk 0) (next (exec (.icacheFill 0) s)))) 0 aHint = true) ∧
    tget 0 (coreOf base 0).lastUse (unitNo (.granule 15)) + 2048 ≤ now (setDie base 0 (fun d => { d with cycles := 2048 })) 0 ∧
    now base 0 < tget 0 (coreOf base 0).lastUse (unitNo (.granule 15)) + 2048 ∧ failedLinks base 0 = [] ∧
    failedLinks ({ base with d2d := [(0, 16)] } : State) (linkEnds 0).1 = [(linkEnds 0).2] ∧
    ({ failed := some 2 } : Firmware).failed = some 2 := by decide +kernel

/-- A flit of a type and a sequence number. -/
def flit (type seq : Nat) : Flit := sealFlit { hdr := BitVec.ofNat 16 type, seq := BitVec.ofNat 16 seq }

theorem witness_FabricEvents : (linkOf base 35).up = false ∧ (linkOf linked 35).up = true ∧
    [0, 1, 2, 3, 4, 5].all (fun n => flitFine (flit n 0) && flitType (flit n 0) = n) = true ∧ flitFine { hdr := 1 } = false ∧
    flitFine (sealFlit { hdr := 0x0101 }) = false ∧ (flit 1 0).seq.toNat % 4096 = (linkOf linked 35).recvSeq ∧
    (flit 1 1).seq.toNat % 4096 ≠ (linkOf linked 35).recvSeq ∧ holdsSeq (linkOf linked 35) 0 = true ∧ holdsSeq (linkOf linked 35) 1 = false ∧
    (linkOf linked 35).replays < 15 ∧ (linkOf linked 35).waiting = [] ∧
    15 ≤ (linkOf (putLink linked 35 (fun l => { l with replays := 15 })) 35).replays ∧ (linkOf linked 35).buffer.length < 256 ∧
    256 ≤ (linkOf (putLink linked 35 (fun l => { l with buffer := List.replicate 256 (flit 1 0) })) 35).buffer.length ∧
    linked.masterAddr = none ∧ ({ linked with status := 1 } : State).status = 1 := by decide +kernel
theorem witness_FabricEvents_training : upLinks base = [] ∧ base.parked = [] ∧ (linkOf base 34).waiting = [] ∧
    (linkOf (putLink base 34 (fun l => { l with down := true, sets := [(0, 5, 0, 1)] })) 34).buffer = [] ∧ 10 ^ 8 ≤ ({ base with gtc := 10 ^ 8 } : State).gtc ∧ (linkOf base 34).up = false ∧ (linkOf base 34).down = false ∧
    (linkOf base 34).since + 10 ^ 7 ≤ ({ base with gtc := 10 ^ 7 } : State).gtc ∧ base.gtc < (linkOf base 34).since + 10 ^ 7 ∧
    otherPartner linked 34 = none ∧ otherPartner (putLink linked 35 (fun l => { l with partner := some 7 })) 34 = some 7 := by decide +kernel
/-- A queue pair on port 5, and a registered region. -/
def regioned : State := { base with regions := [(0, 4096)] }
def aWork : EthWork := { op := .write, id := 1, pa := 0, len := 64, remote := 0, imm := 0 }
theorem witness_FabricEvents_ethernet : (qpAt regioned 5 65535).error = false ∧ (qpAt regioned 5 65535).port = 5 ∧ inRegion regioned 0 64 = true ∧
    inRegion base 0 64 = false ∧ poisoned base .dev 0 64 = false ∧ icrcOf (.ack 0 0 false) = false ∧
    (let s := putQp regioned 65535 { qpAt regioned 5 65535 with work := [aWork], unacked := [⟨1, 0, .write 65535 0 0 [] none true⟩, ⟨2, 1, .write 65535 1 0 [] none true⟩] }
     (qpAt s 5 65535).unacked.map (·.id) = [1, 2] ∧ aWork.op ≠ .read ∧ (qpAt s 5 65535).work.map (·.id) = [1] ∧ (qpAt s 5 65535).expected = 0 ∧
     readsOut (qpAt s 5 65535) < 16 ∧ (qpAt s 5 65535).recvs = [] ∧ (qpAt s 5 65535).rings = none ∧
     (qpAt s 5 65535).unacked.all (fun f => decide (f.psn ≠ (0 + 2 ^ 24 - 1) % 2 ^ 24)) = true ∧
     (let v := putQp regioned 65535 { qpAt regioned 5 65535 with rings := some (0x1000, 0x2000, 4), recvs := [{ aWork with op := .recv }] }
      (qpAt v 5 65535).rings = some (0x1000, 0x2000, 4) ∧ (qpAt v 5 65535).recvs.length = 1 ∧ (qpAt v 5 65535).filled + 64 ≤ aWork.len ∧
      aWork.len < (qpAt v 5 65535).filled + 65 ∧ (qpAt v 5 65535).filled ≤ aWork.len) ∧ (qpAt s 5 65535).error = false ∧ (qpAt s 5 65535).port = 5 ∧ (qpAt s 4 65535).port ≠ 4) ∧
    (qpAt (next (exec (.qpError 5 65535) base)) 5 65535).error = true ∧ (jobSet true 0 17).jobs.any (fun j => j.isSet && j.addrs.contains 3) = true := by
  decide +kernel

/-! ### Decoding and the step -/

theorem witness_StepRunsDecoded :
    let s := State.reset.withFetchWord 32 0x00500513
    s.status ≠ 2 ∧ s.schedule = [.issue (.strand ⟨0, 0⟩)] ∧ (chooseTurn (tick s)).1 = some (.issue (.strand ⟨0, 0⟩)) ∧
    strandReady s (str s) = true ∧ (str s).cancelPending = false ∧ (str s).recapture = false ∧ (str s).rep = none ∧
    okWith (fetchParcel s (str s) 0x2000) (fun r => r.1 = 0x00500513) = true ∧ isOk (decodeWhole [0x00500513]) = true ∧
    isOk (decodeWhole [0x0000005B]) = false ∧ isOk (fetchParcel s (str s) 0x2000000000000000) = false ∧
    (let u := next (exec (.repb 7 0 0 0) looping)
     (str u).rep.any (fun r => (r.body[r.idx]?).any (fun b => isOk (passInstr u (str u) r b.1))) = true) ∧
    isOk (passInstr base (str base) { base := 0, body := [], idx := 0, pass := 1, count := 2, stride := 1, mask := 1 } (.vadd { vd := 63 })) = false ∧
    (let v : State := { base with schedule := [.act (.ownerDrop 0)] }
     (chooseTurn (tick v)).1 = some (.act (.ownerDrop 0))) := by decide +kernel
theorem witness_StepRunsDecoded_handler :
    let s : State := setDie handler 0 (fun d => { d with handlerRoot := 2 ^ 31 })
    let u : State := { setCore s 0 (fun c => { c with hpc := 0x2000 }) with schedule := [.issue (.handler 0)] }
    (chooseTurn (tick u)).1 = some (.issue (.handler 0)) ∧ (coreOf u 0).hawake = true ∧ (coreOf u 0).hfrozen = false ∧
    okWith (fetchHandler u 0 0x2000) (fun r => r.1 = 0x13) = true := by decide +kernel
theorem witness_DecodedWords : (0 : Parcel).extractLsb' 0 2 ≠ 3 := by decide
theorem witness_DecodeEncode : wellFormed (.vfma { ty := 10 }) = true ∧ encode (.vfma { ty := 10 }) ≠ [] ∧
    wellFormed (.phint 15 1 0 16 255 1) = true ∧ encode (.phint 15 1 0 16 255 1) ≠ [] ∧ wellFormed .stret = true ∧ encode .stret ≠ [] := by decide +kernel
theorem witness_StepKeepsMemory : Memory.wf (State.reset.withFetchWord 32 0x00500513) = true ∧ Memory.wf ptrs = true := by decide +kernel
theorem witness_StepKeepsMemory_step : (match step (State.reset.withFetchWord 32 0x00500513) with
    | .next _ => true
    | _ => false) = true := by decide +kernel

end Sys2Proof.Tests
end

section
/-! PROOFS. The one rounding: `roundsUp` and `roundAt` against the neighbours that R38 and R40 name, on real numbers. -/

namespace Sys2Proof.Proofs

open Machine Oblig

/-- A magnitude with a sign. -/
def withSign {α : Type} [Neg α] (neg : Bool) (a : α) : α := if neg then -a else a

@[simp] theorem withSign_true {α : Type} [Neg α] (a : α) : withSign true a = -a := rfl
@[simp] theorem withSign_false {α : Type} [Neg α] (a : α) : withSign false a = a := rfl

theorem abs_withSign {α : Type} [AddCommGroup α] [LinearOrder α] [IsOrderedAddMonoid α] (neg : Bool) {a : α} (h : 0 ≤ a) :
    |withSign neg a| = a := by
  cases neg <;> simp [abs_of_nonneg h]

theorem withSign_mul {α : Type} [Ring α] (neg : Bool) (a b : α) : withSign neg a * b = withSign neg (a * b) := by
  cases neg <;> simp

@[simp] theorem withSign_eq_zero {α : Type} [AddGroup α] (neg : Bool) (a : α) : withSign neg a = 0 ↔ a = 0 := by
  cases neg <;> simp

theorem withSign_inj {α : Type} [AddGroup α] (neg : Bool) (a b : α) : withSign neg a = withSign neg b ↔ a = b := by
  cases neg <;> simp

theorem cast_withSign_int (neg : Bool) (a : ℤ) : ((withSign neg a : ℤ) : ℝ) = withSign neg (a : ℝ) := by
  cases neg <;> simp

theorem cast_withSign_rat (neg : Bool) (a : ℚ) : ((withSign neg a : ℚ) : ℝ) = withSign neg (a : ℝ) := by
  cases neg <;> simp

/-- `a` is the magnitude (mag + θ) × 2^exp of an exact value: the rest θ is zero just when nothing is sticky, and a value that has a
rest carries more bits than any rounding reads. -/
def MagIs (mag : ℕ) (exp : ℤ) (st : Bool) (a : ℝ) : Prop :=
  ∃ θ : ℝ, 0 ≤ θ ∧ θ < 1 ∧ (st = false ↔ θ = 0) ∧ (st = true → 2 ^ 90 ≤ mag) ∧ a = (mag + θ) * 2 ^ exp

/-- Whether a magnitude that lies a fraction fr above its lower neighbour goes to the upper one (R38, R40). -/
def GoesUp (mode draw : ℕ) (neg odd : Bool) (fr : ℝ) : Prop :=
  match mode with
  | 0 => 1 / 2 < fr ∨ fr = 1 / 2 ∧ odd = true
  | 1 => False
  | 2 => neg = true
  | 3 => neg = false
  | 4 => odd = false
  | _ => if neg then (2 ^ 32 - ⌈fr * 2 ^ 32⌉ : ℤ) ≤ draw else (draw : ℤ) < ⌊fr * 2 ^ 32⌋

/-- Rounding to nearest: the remainder against half of the step, a rest above it included. -/
theorem nearest_iff {odd st : Bool} {rem s : ℕ} {θ : ℝ} (hθ : 0 ≤ θ) (h1 : θ < 1) (hst : st = false ↔ θ = 0)
    (hg : st = true → 33 ≤ s) :
    (2 ^ s < 2 * rem ∨ 2 * rem = 2 ^ s ∧ (st = true ∨ odd = true)) ↔
      (1 / 2 < (rem + θ) / 2 ^ s ∨ (rem + θ) / 2 ^ s = 1 / 2 ∧ odd = true) := by
  have hp : (0 : ℝ) < 2 ^ s := by positivity
  rw [lt_div_iff₀ hp, div_eq_iff hp.ne']
  cases st with
  | false =>
    obtain rfl : θ = 0 := hst.mp rfl
    have hlt : (2 ^ s < 2 * rem) ↔ (1 / 2 * 2 ^ s : ℝ) < rem + 0 := by
      rw [← Nat.cast_lt (α := ℝ)]; push_cast; constructor <;> intro h <;> linarith
    have heq : (2 * rem = 2 ^ s) ↔ (rem + 0 : ℝ) = 1 / 2 * 2 ^ s := by
      rw [← Nat.cast_inj (R := ℝ)]; push_cast; constructor <;> intro h <;> linarith
    rw [hlt, heq]; simp
  | true =>
    have hpos : 0 < θ := lt_of_le_of_ne hθ (fun h => by simpa using hst.mpr h.symm)
    obtain ⟨r, rfl⟩ : ∃ r, s = r + 1 := ⟨s - 1, by have := hg rfl; omega⟩
    have hcase : (1 / 2 * 2 ^ (r + 1) : ℝ) < rem + θ ↔ 2 ^ r ≤ rem := by
      rw [show (1 / 2 * 2 ^ (r + 1) : ℝ) = ((2 ^ r : ℕ) : ℝ) by push_cast; ring]
      constructor
      · intro h
        by_contra hc
        have : ((rem + 1 : ℕ) : ℝ) ≤ ((2 ^ r : ℕ) : ℝ) := by exact_mod_cast (by omega : rem + 1 ≤ 2 ^ r)
        push_cast at this h; linarith
      · intro h
        have : ((2 ^ r : ℕ) : ℝ) ≤ rem := by exact_mod_cast h
        linarith
    have hne : ¬ ((rem + θ : ℝ) = 1 / 2 * 2 ^ (r + 1)) := by
      rw [show (1 / 2 * 2 ^ (r + 1) : ℝ) = ((2 ^ r : ℕ) : ℝ) by push_cast; ring]
      intro h
      have ha : ((rem : ℕ) : ℝ) < ((2 ^ r : ℕ) : ℝ) := by linarith
      have hb : ((2 ^ r : ℕ) : ℝ) < ((rem + 1 : ℕ) : ℝ) := by push_cast; push_cast at h; linarith
      rw [Nat.cast_lt] at ha hb
      omega
    rw [hcase]
    simp only [hne, false_and, or_false, true_or, and_true]
    rw [pow_succ]
    omega

/-- The first k bits of the fraction (R40 reads 32), and whether they are all of it. -/
theorem fraction_bits {st : Bool} {rem s k t : ℕ} {θ : ℝ} (hθ : 0 ≤ θ) (h1 : θ < 1) (hst : st = false ↔ θ = 0)
    (hg : st = true → k ≤ s) (ht : t = rem * 2 ^ k / 2 ^ s) :
    ⌊(rem + θ) / 2 ^ s * 2 ^ k⌋ = t ∧
      ⌈(rem + θ) / 2 ^ s * 2 ^ k⌉ = if st = false ∧ t * 2 ^ s = rem * 2 ^ k then (t : ℤ) else t + 1 := by
  have hp : (0 : ℝ) < 2 ^ s := by positivity
  obtain ⟨ρ, hρ⟩ : ∃ ρ, ρ = rem * 2 ^ k % 2 ^ s := ⟨_, rfl⟩
  have hdiv : rem * 2 ^ k = t * 2 ^ s + ρ := by rw [ht, hρ, mul_comm _ (2 ^ s)]; exact (Nat.div_add_mod _ _).symm
  have hρlt : ρ < 2 ^ s := hρ ▸ Nat.mod_lt _ (by positivity)
  have hρ0 : (0 : ℝ) ≤ ρ := Nat.cast_nonneg ρ
  have hθk : 0 ≤ θ * 2 ^ k := by positivity
  have hx : (rem + θ) / 2 ^ s * 2 ^ k = t + (ρ + θ * 2 ^ k) / 2 ^ s := by
    have : ((rem * 2 ^ k : ℕ) : ℝ) = ((t * 2 ^ s + ρ : ℕ) : ℝ) := by rw [hdiv]
    push_cast at this
    field_simp
    linarith
  have hlt : (ρ + θ * 2 ^ k : ℝ) < 2 ^ s := by
    cases st with
    | false =>
      rw [hst.mp rfl]; simpa using (by exact_mod_cast hρlt : (ρ : ℝ) < ((2 ^ s : ℕ) : ℝ))
    | true =>
      obtain ⟨r, rfl⟩ : ∃ r, s = r + k := ⟨s - k, by have := hg rfl; omega⟩
      have hdvd : 2 ^ k ∣ ρ := by
        rw [hρ, Nat.dvd_mod_iff (Dvd.intro_left (2 ^ r) (by rw [pow_add]))]
        exact Dvd.intro_left _ rfl
      obtain ⟨c, rfl⟩ := hdvd
      have hc : c + 1 ≤ 2 ^ r := by
        rw [pow_add, mul_comm (2 ^ r)] at hρlt
        exact Nat.lt_of_mul_lt_mul_left hρlt
      have hcr : ((c + 1 : ℕ) : ℝ) ≤ ((2 ^ r : ℕ) : ℝ) := by exact_mod_cast hc
      have hk : (0 : ℝ) < 2 ^ k := by positivity
      push_cast at hcr ⊢
      rw [pow_add]
      nlinarith
  have hwhole : (st = false ∧ t * 2 ^ s = rem * 2 ^ k) ↔ (ρ + θ * 2 ^ k : ℝ) = 0 := by
    rw [hst, hdiv]
    constructor
    · rintro ⟨h0, he⟩
      have : ρ = 0 := by omega
      rw [h0, this]; simp
    · intro h
      have hρ0 : (ρ : ℝ) = 0 := by linarith
      have hθ0 : θ * 2 ^ k = 0 := by linarith
      exact ⟨by simpa using hθ0, by have := Nat.cast_eq_zero.mp hρ0; omega⟩
  have hnn : (0 : ℝ) ≤ (ρ + θ * 2 ^ k) / 2 ^ s := by positivity
  have hlt1 : (ρ + θ * 2 ^ k) / 2 ^ s < 1 := by rwa [div_lt_one hp]
  rw [Int.floor_eq_iff, Int.ceil_eq_iff, hx]
  refine ⟨by push_cast; constructor <;> linarith, ?_⟩
  split
  · rename_i h
    rw [hwhole.mp h]; simp
  · rename_i h
    have hpos : (0 : ℝ) < (ρ + θ * 2 ^ k) / 2 ^ s :=
      div_pos (lt_of_le_of_ne (by positivity) (fun e => h (hwhole.mpr e.symm))) hp
    push_cast; constructor <;> linarith

/-- `roundsUp` decides by the fraction (rem + θ) / 2^s alone. -/
theorem roundsUp_iff {mode draw : ℕ} {neg odd st : Bool} {rem s : ℕ} {θ : ℝ} (hθ : 0 ≤ θ) (h1 : θ < 1) (hst : st = false ↔ θ = 0)
    (hg : st = true → 33 ≤ s) :
    roundsUp mode draw neg odd rem s st = true ↔ GoesUp mode draw neg odd ((rem + θ) / 2 ^ s) := by
  match mode with
  | 0 => simpa [roundsUp, GoesUp] using nearest_iff (odd := odd) (rem := rem) hθ h1 hst hg
  | 1 => simp [roundsUp, GoesUp]
  | 2 => simp [roundsUp, GoesUp]
  | 3 => simp [roundsUp, GoesUp]
  | 4 => simp [roundsUp, GoesUp]
  | _ + 5 =>
    obtain ⟨hf, hc⟩ := fraction_bits (rem := rem) (s := s) (k := 32) hθ h1 hst (fun h => by have := hg h; omega) rfl
    simp only [roundsUp, GoesUp, hf, hc, Nat.shiftLeft_eq, Nat.shiftRight_eq_div_pow]
    generalize rem * 2 ^ 32 / 2 ^ s = t
    cases neg
    · simp
    · simp only [if_true, decide_eq_true_eq, Bool.and_eq_true, Bool.not_eq_true']
      split <;> omega

/-- The neighbour that `GoesUp` names is the one that `Picks` names, for a value that lies between two multiples. -/
theorem picks_of_goesUp {mode draw lo : ℕ} {neg up : Bool} {x u fr : ℝ} (hu : 0 < u) (hx : x / u = withSign neg (lo + fr))
    (h0 : 0 < fr) (h1 : fr < 1) (hup : up = true ↔ GoesUp mode draw neg (decide (lo % 2 = 1)) fr) :
    Picks mode draw x u (withSign neg ((if up then lo + 1 else lo : ℕ) : ℤ)) := by
  have hlo : (0 : ℝ) ≤ lo := Nat.cast_nonneg lo
  cases neg with
  | false =>
    have hfl : ⌊x / u⌋ = lo := by rw [hx, withSign_false, Int.floor_eq_iff]; push_cast; constructor <;> linarith
    have hfr : x / u - (lo : ℤ) = fr := by rw [hx, withSign_false]; push_cast; ring
    have hpos : 0 < x := by
      have : 0 < x / u := by rw [hx, withSign_false]; linarith
      exact (div_pos_iff_of_pos_right hu).mp this
    unfold Picks
    simp only [hfl, hfr]
    refine ⟨fun h => absurd h h0.ne', fun _ => ⟨by cases up <;> simp, ?_⟩⟩
    match mode with
    | 0 =>
      simp only [GoesUp, decide_eq_true_eq] at hup
      refine ⟨fun h => ?_, fun h => ?_, fun h => ?_⟩
      · have : up = false := by
          rw [← Bool.not_eq_true, hup]; rintro (h' | ⟨h', -⟩) <;> linarith
        simp [this]
      · have : up = true := hup.mpr (.inl h)
        simp [this]
      · rw [h] at hup
        simp only [lt_self_iff_false, true_and, false_or] at hup
        cases up <;> simp at hup ⊢ <;> omega
    | 1 => simp only [GoesUp, iff_false, Bool.not_eq_true] at hup; simp [hup, hpos]
    | 2 => simp only [GoesUp, Bool.false_eq_true, iff_false, Bool.not_eq_true] at hup; simp [hup]
    | 3 => simp only [GoesUp, iff_true] at hup; simp [hup]
    | 4 =>
      simp only [GoesUp, decide_eq_false_iff_not] at hup
      cases up <;> simp at hup ⊢ <;> omega
    | _ + 5 =>
      simp only [GoesUp, Bool.false_eq_true, if_false] at hup
      rw [← hup]; cases up <;> simp
  | true =>
    have hfl : ⌊x / u⌋ = -(lo : ℤ) - 1 := by rw [hx, withSign_true, Int.floor_eq_iff]; push_cast; constructor <;> linarith
    have hfr : x / u - ((-(lo : ℤ) - 1 : ℤ) : ℝ) = 1 - fr := by rw [hx, withSign_true]; push_cast; ring
    have hneg : ¬ 0 < x := by
      have : x / u < 0 := by rw [hx, withSign_true]; linarith
      exact fun h => absurd (div_pos h hu) (by linarith)
    unfold Picks
    simp only [hfl, hfr]
    refine ⟨fun h => absurd h (by linarith), fun _ => ⟨by cases up <;> simp; omega, ?_⟩⟩
    match mode with
    | 0 =>
      simp only [GoesUp, decide_eq_true_eq] at hup
      refine ⟨fun h => ?_, fun h => ?_, fun h => ?_⟩
      · have : up = true := hup.mpr (.inl (by linarith))
        simp [this]; ring
      · have : up = false := by
          rw [← Bool.not_eq_true, hup]; rintro (h' | ⟨h', -⟩) <;> linarith
        simp [this]
      · rw [show fr = 1 / 2 by linarith] at hup
        simp only [lt_self_iff_false, true_and, false_or] at hup
        cases up <;> simp at hup ⊢ <;> omega
    | 1 => simp only [GoesUp, iff_false, Bool.not_eq_true] at hup; simp [hup, hneg]; omega
    | 2 => simp only [GoesUp, iff_true] at hup; simp [hup]; ring
    | 3 => simp only [GoesUp, Bool.true_eq_false, iff_false, Bool.not_eq_true] at hup; simp [hup]
    | 4 =>
      simp only [GoesUp, decide_eq_false_iff_not] at hup
      cases up <;> simp at hup ⊢ <;> omega
    | _ + 5 =>
      simp only [GoesUp, if_true] at hup
      have hceil : ⌊(1 - fr) * 2 ^ 32⌋ = 2 ^ 32 - ⌈fr * 2 ^ 32⌉ := by
        rw [show (1 - fr) * 2 ^ 32 = -(fr * 2 ^ 32) + ((2 ^ 32 : ℤ) : ℝ) by push_cast; ring, Int.floor_add_intCast, Int.floor_neg]
        ring
      show withSign true _ = -(lo : ℤ) - 1 + 1 ↔ (draw : ℤ) < ⌊(1 - fr) * 2 ^ 32⌋
      rw [hceil, ← not_le, ← hup]
      cases up <;> simp

/-- A value that is a multiple of u is picked as it is. -/
theorem picks_multiple {mode draw : ℕ} {x u : ℝ} {N : ℤ} (hx : x / u = N) : Picks mode draw x u N := by
  unfold Picks
  rw [hx]
  simp

end Sys2Proof.Proofs
end

section
/-! PROOFS. Rounding into a floating-point format: the codes of a format in the order of their values, and `roundFlt` as the
rounding that R31 to R33, R36 and R38 state. -/

namespace Sys2Proof.Proofs

open Machine Oblig

/-! ### Magnitudes -/

theorem MagIs.zero_iff {mag : ℕ} {exp : ℤ} {st : Bool} {a : ℝ} (h : MagIs mag exp st a) : a = 0 ↔ mag = 0 := by
  obtain ⟨θ, h0, h1, hst, hbig, rfl⟩ := h
  rw [mul_eq_zero_iff_right (zpow_ne_zero _ two_ne_zero)]
  constructor
  · intro h
    have : (mag : ℝ) = 0 := le_antisymm (by linarith) (Nat.cast_nonneg mag)
    exact_mod_cast this
  · rintro rfl
    cases st
    · simp [hst.mp rfl]
    · have := hbig rfl; omega

theorem MagIs.nonneg {mag : ℕ} {exp : ℤ} {st : Bool} {a : ℝ} (h : MagIs mag exp st a) : 0 ≤ a := by
  obtain ⟨θ, h0, h1, hst, hbig, rfl⟩ := h
  positivity

/-- `magLog` is the binary logarithm, rounded down; a rest does not reach the next power of two. -/
theorem MagIs.bounds {mag : ℕ} {exp : ℤ} {st : Bool} {a : ℝ} (h : MagIs mag exp st a) (hm : mag ≠ 0) :
    (2 : ℝ) ^ magLog mag exp ≤ a ∧ a < 2 ^ (magLog mag exp + 1) := by
  obtain ⟨θ, h0, h1, hst, hbig, rfl⟩ := h
  have hp : (0 : ℝ) < 2 ^ exp := by positivity
  have hlo : ((2 ^ log2 mag : ℕ) : ℝ) ≤ mag := by exact_mod_cast Nat.log2_self_le hm
  have hhi : ((mag + 1 : ℕ) : ℝ) ≤ ((2 ^ (log2 mag + 1) : ℕ) : ℝ) := by exact_mod_cast Nat.lt_log2_self
  push_cast at hlo hhi
  unfold magLog
  rw [add_right_comm, zpow_add₀ two_ne_zero, zpow_add₀ two_ne_zero]
  refine ⟨mul_le_mul_of_nonneg_right ?_ hp.le, mul_lt_mul_of_pos_right ?_ hp⟩
  · rw [zpow_natCast]; linarith
  · rw [show ((log2 mag : ℤ) + 1) = ((log2 mag + 1 : ℕ) : ℤ) by push_cast; ring, zpow_natCast]; linarith

theorem int_log_eq {K : Type} [Field K] [LinearOrder K] [IsStrictOrderedRing K] [FloorSemiring K] {k : ℤ} {a : K}
    (h : (2 : K) ^ k ≤ a ∧ a < 2 ^ (k + 1)) : Int.log 2 a = k := by
  have ha : 0 < a := lt_of_lt_of_le (by positivity) h.1
  refine le_antisymm ?_ ((Int.zpow_le_iff_le_log (by norm_num) ha).mp (by exact_mod_cast h.1))
  have : Int.log 2 a < k + 1 := (Int.lt_zpow_iff_log_lt (by norm_num) ha).mp (by exact_mod_cast h.2)
  omega

theorem log2_ge_of_sticky {mag : ℕ} (h : 2 ^ 90 ≤ mag) : 90 ≤ log2 mag := by
  have h0 : mag ≠ 0 := by rintro rfl; omega
  exact (Nat.le_log2 h0).mpr h

/-! ### `roundAt` -/

/-- A fraction of a step that is not zero lies inside it. -/
theorem fraction_bounds {rem s : ℕ} {st : Bool} {θ : ℝ} (h0 : 0 ≤ θ) (h1 : θ < 1) (hst : st = false ↔ θ = 0) (hr : rem < 2 ^ s)
    (hne : ¬ (rem = 0 ∧ st = false)) : 0 < (rem + θ) / 2 ^ s ∧ (rem + θ) / 2 ^ s < 1 := by
  have hp : (0 : ℝ) < 2 ^ s := by positivity
  have hr' : ((rem + 1 : ℕ) : ℝ) ≤ ((2 ^ s : ℕ) : ℝ) := by exact_mod_cast hr
  have hrem : (0 : ℝ) ≤ rem := Nat.cast_nonneg rem
  push_cast at hr'
  refine ⟨div_pos (lt_of_le_of_ne (by linarith) (fun e => hne ⟨?_, hst.mpr (by linarith)⟩)) hp, by rw [div_lt_one hp]; linarith⟩
  have : (rem : ℝ) = 0 := by linarith
  exact_mod_cast this

/-- The neighbour that `roundsUp` chooses for a magnitude is the one that `Picks` names. -/
theorem rounded_picks {mode draw lo rem s n : ℕ} {neg st : Bool} {θ a u : ℝ} (hu : 0 < u) (h0 : 0 ≤ θ) (h1 : θ < 1)
    (hst : st = false ↔ θ = 0) (hg : st = true → 33 ≤ s) (hr : rem < 2 ^ s) (ha : a / u = lo + (rem + θ) / 2 ^ s)
    (hn : n = if rem = 0 ∧ st = false then lo
      else if roundsUp mode draw neg (decide (lo % 2 = 1)) rem s st then lo + 1 else lo) :
    Picks mode draw (withSign neg a) u (withSign neg (n : ℤ)) ∧ (n * u = a ↔ rem = 0 ∧ st = false) ∧ (lo ≤ n ∧ n ≤ lo + 1) := by
  by_cases hz : rem = 0 ∧ st = false
  · rw [if_pos hz] at hn
    obtain ⟨rfl, rfl⟩ := hz
    rw [hst.mp rfl] at ha
    have hau : a / u = (n : ℤ) := by rw [ha, hn]; simp
    refine ⟨picks_multiple ?_, by rw [div_eq_iff hu.ne'] at hau; simp [hau], by omega⟩
    rw [cast_withSign_int, ← hau]; cases neg <;> simp [neg_div]
  · rw [if_neg hz] at hn
    obtain ⟨hf0, hf1⟩ := fraction_bounds h0 h1 hst hr hz
    refine ⟨?_, ?_, by split at hn <;> omega⟩
    · rw [hn]
      exact picks_of_goesUp hu (by rw [← ha]; cases neg <;> simp [neg_div]) hf0 hf1 (roundsUp_iff h0 h1 hst hg)
    · simp only [hz, iff_false]
      intro h
      have hnl : (n : ℝ) = lo + (rem + θ) / 2 ^ s := by rw [← ha, ← h]; field_simp
      have hlo : ((lo : ℕ) : ℝ) < (n : ℕ) := by linarith
      have hhi : (n : ℝ) < ((lo + 1 : ℕ) : ℝ) := by push_cast; linarith
      rw [Nat.cast_lt] at hlo hhi
      omega

/-- Rounding a magnitude to a multiple of 2^q (R38): the multiple that `Picks` names, exact just when the magnitude is one. -/
theorem roundAt_picks {mode draw mag : ℕ} {neg st : Bool} {exp q : ℤ} {a : ℝ} (h : MagIs mag exp st a)
    (hg : st = true → exp + 33 ≤ q) :
    let r := roundAt mode draw neg mag exp st q
    Picks mode draw (withSign neg a) (2 ^ q) (withSign neg (r.1 : ℤ)) ∧ (r.2 = false ↔ r.1 * 2 ^ q = a) ∧
      (⌊a / 2 ^ q⌋₊ ≤ r.1 ∧ r.1 ≤ ⌊a / 2 ^ q⌋₊ + 1) := by
  intro r
  obtain ⟨θ, h0, h1, hst, hbig, ha⟩ := h
  have hu : (0 : ℝ) < 2 ^ q := by positivity
  obtain ⟨lo, rem, s, hr, hs, hau, hrd⟩ : ∃ lo rem s : ℕ, rem < 2 ^ s ∧ (st = true → 33 ≤ s) ∧ a / 2 ^ q = lo + (rem + θ) / 2 ^ s ∧
      r = (if rem = 0 ∧ st = false then (lo, false)
        else (if roundsUp mode draw neg (decide (lo % 2 = 1)) rem s st then lo + 1 else lo, true)) := by
    by_cases hq : exp ≤ q
    · refine ⟨mag >>> (q - exp).toNat, mag % 2 ^ (q - exp).toNat, (q - exp).toNat, Nat.mod_lt _ (by positivity),
        fun hs => by have := hg hs; omega, ?_, by simp [r, roundAt, hq]⟩
      rw [ha, Nat.shiftRight_eq_div_pow]
      generalize hs : (q - exp).toNat = s
      have hqe : q = s + exp := by omega
      have hmag : (mag : ℝ) = (mag / 2 ^ s : ℕ) * 2 ^ s + (mag % 2 ^ s : ℕ) := by exact_mod_cast (Nat.div_add_mod' mag (2 ^ s)).symm
      have hps : (0 : ℝ) < 2 ^ s := by positivity
      have hpe : (0 : ℝ) < 2 ^ exp := by positivity
      rw [hqe, zpow_add₀ two_ne_zero, zpow_natCast, mul_div_mul_right _ _ hpe.ne', hmag]
      field_simp
      ring
    · have hnst : st = false := by cases st; rfl; exact absurd (hg rfl) (by omega)
      refine ⟨mag <<< (exp - q).toNat, 0, (q - exp).toNat, by positivity, by simp [hnst], ?_, by simp [r, roundAt, hq]⟩
      rw [ha, hst.mp hnst, Nat.shiftLeft_eq]
      have hqe : exp = (exp - q).toNat + q := by omega
      generalize (exp - q).toNat = d at hqe
      rw [hqe, zpow_add₀ two_ne_zero, zpow_natCast]
      push_cast
      field_simp
      simp
  have hfl : ⌊a / 2 ^ q⌋₊ = lo := by
    have hp : (0 : ℝ) < 2 ^ s := by positivity
    have hr' : ((rem + 1 : ℕ) : ℝ) ≤ ((2 ^ s : ℕ) : ℝ) := by exact_mod_cast hr
    push_cast at hr'
    have hlt : (rem + θ) / 2 ^ s < 1 := by rw [div_lt_one hp]; linarith
    have hnn : 0 ≤ (rem + θ) / 2 ^ s := by positivity
    rw [Nat.floor_eq_iff (by rw [hau]; positivity), hau]
    constructor <;> linarith
  obtain ⟨hp, he, hb⟩ := rounded_picks (mode := mode) (draw := draw) (neg := neg) (n := r.1) hu h0 h1 hst hs hr hau (by
    rw [hrd]; split <;> rfl)
  refine ⟨hp, ?_, hfl ▸ hb⟩
  rw [he, hrd]
  split
  · next h => simp [h]
  · next h => simp [h]

/-! ### Codes in the order of their values -/

/-- The value of a code of m fraction bits, in units of the smallest one (R17). -/
def codeVal (m c : ℕ) : ℕ := if c < 2 ^ m then c else (2 ^ m + c % 2 ^ m) * 2 ^ (c / 2 ^ m - 1)

theorem codeVal_of_div_mod {m d r : ℕ} (hr : r < 2 ^ m) (hd : d ≠ 0) : codeVal m (d * 2 ^ m + r) = (2 ^ m + r) * 2 ^ (d - 1) := by
  have hge : 2 ^ m ≤ d * 2 ^ m := Nat.le_mul_of_pos_left _ (Nat.pos_of_ne_zero hd)
  have hdiv : (d * 2 ^ m + r) / 2 ^ m = d := by
    rw [Nat.add_comm, Nat.add_mul_div_right _ _ (by positivity), Nat.div_eq_of_lt hr, Nat.zero_add]
  have hmod : (d * 2 ^ m + r) % 2 ^ m = r := by rw [Nat.add_comm, Nat.add_mul_mod_self_right, Nat.mod_eq_of_lt hr]
  rw [codeVal, if_neg (by omega), hdiv, hmod]

theorem codeVal_strictMono (m : ℕ) : StrictMono (codeVal m) := by
  refine strictMono_nat_of_lt_succ (fun c => ?_)
  have hp : 0 < 2 ^ m := by positivity
  obtain ⟨d, r, hr, rfl⟩ : ∃ d r, r < 2 ^ m ∧ c = d * 2 ^ m + r := ⟨c / 2 ^ m, c % 2 ^ m, Nat.mod_lt _ hp, (Nat.div_add_mod' _ _).symm⟩
  by_cases hd : d = 0
  · subst hd
    by_cases hr1 : r + 1 < 2 ^ m
    · simp [codeVal, hr, hr1]
    · have hc := codeVal_of_div_mod (m := m) (d := 1) (r := 0) hp one_ne_zero
      rw [show 0 * 2 ^ m + r + 1 = 1 * 2 ^ m + 0 by omega, hc]
      simp [codeVal, hr]
  · rw [codeVal_of_div_mod hr hd]
    by_cases hr1 : r + 1 < 2 ^ m
    · rw [Nat.add_assoc, codeVal_of_div_mod hr1 hd]
      exact Nat.mul_lt_mul_of_pos_right (by omega) (by positivity)
    · rw [show d * 2 ^ m + r + 1 = (d + 1) * 2 ^ m + 0 by rw [Nat.add_mul]; omega, codeVal_of_div_mod hp (by omega)]
      obtain ⟨j, rfl⟩ : ∃ j, d = j + 1 := ⟨d - 1, by omega⟩
      simp only [Nat.add_sub_cancel, Nat.add_zero, pow_succ]
      have hj : 0 < 2 ^ j := by positivity
      nlinarith

/-- A rounded multiple n in the binade d above the lowest has the code d × 2^m + n, carries included. -/
theorem codeVal_shift {m d n : ℕ} (hn : n ≤ 2 ^ (m + 1)) (h : d = 0 ∨ 2 ^ m ≤ n) : codeVal m (d <<< m + n) = n * 2 ^ d := by
  rw [Nat.shiftLeft_eq]
  rw [pow_succ] at hn
  have hp : 0 < 2 ^ m := by positivity
  by_cases h1 : n < 2 ^ m
  · obtain rfl : d = 0 := by omega
    simp [codeVal, h1]
  · by_cases h2 : n < 2 * 2 ^ m
    · rw [show d * 2 ^ m + n = (d + 1) * 2 ^ m + (n - 2 ^ m) by rw [Nat.add_mul]; omega, codeVal_of_div_mod (by omega) (by omega)]
      simp only [Nat.add_sub_cancel]
      rw [Nat.add_sub_cancel' (by omega)]
    · obtain rfl : n = 2 * 2 ^ m := by omega
      rw [show d * 2 ^ m + 2 * 2 ^ m = (d + 2) * 2 ^ m + 0 by ring, codeVal_of_div_mod hp (by omega)]
      rw [show d + 2 - 1 = d + 1 by omega, pow_succ]; ring

theorem magnitude_eq {e m b c : ℕ} {top : TopExp} (hc : c < 2 ^ (e + m)) :
    magnitude (e, m, b, top) c = codeVal m c * 2 ^ ((1 : ℤ) - b - m) := by
  have hp : 0 < 2 ^ m := by positivity
  have hef : c / 2 ^ m % 2 ^ e = c / 2 ^ m := Nat.mod_eq_of_lt (by rw [Nat.div_lt_iff_lt_mul hp, ← pow_add]; exact hc)
  unfold magnitude codeVal
  simp only [hef]
  by_cases h : c < 2 ^ m
  · simp [h, Nat.div_eq_of_lt h, Nat.mod_eq_of_lt h]
  · have hd : 1 ≤ c / 2 ^ m := by rw [Nat.le_div_iff_mul_le hp]; omega
    rw [if_neg (by omega), if_neg h]
    obtain ⟨j, hj⟩ : ∃ j, c / 2 ^ m = j + 1 := ⟨c / 2 ^ m - 1, by omega⟩
    rw [hj, max_eq_left (by push_cast; omega), Nat.cast_mul, mul_assoc]
    congr 1
    rw [Nat.add_sub_cancel, Nat.cast_pow, ← zpow_natCast, Nat.cast_ofNat, ← zpow_add₀ two_ne_zero]
    congr 1; push_cast; ring

/-! ### Formats -/

/-- What the formats of R18 have in common. -/
def GoodFmt (e m : ℕ) : Prop := 2 ≤ e ∧ 1 ≤ m ∧ m ≤ 52

theorem topCode_eq_maxCode (e m b : ℕ) (top : TopExp) : topCode (e, m, b, top) = maxCode e m top := by
  cases top <;> simp only [topCode, maxCode, infCode]
  rw [Nat.sub_mul, Nat.one_mul, pow_add]

/-- The codes up to the largest finite one are codes of finite values. -/
theorem maxCode_bounds {e m : ℕ} (top : TopExp) (hF : GoodFmt e m) : 2 ^ m ≤ maxCode e m top ∧ maxCode e m top < 2 ^ (e + m) := by
  obtain ⟨he, hm, -⟩ := hF
  have h4 : 2 ^ m * 4 ≤ 2 ^ (e + m) := by
    rw [show 4 = 2 ^ 2 by rfl, ← pow_add]; exact Nat.pow_le_pow_right (by norm_num) (by omega)
  have h2 : 2 ≤ 2 ^ m := by simpa using Nat.pow_le_pow_right (n := 2) (by norm_num) hm
  cases top <;> simp only [maxCode] <;> omega

theorem signed_eq (e m b : ℕ) (top : TopExp) (neg : Bool) (c : ℕ) : signed (e, m, b, top) neg c = b2n neg <<< (e + m) + c := by
  cases neg <;> simp [signed, b2n, Nat.shiftLeft_eq]

theorem signed_lt {e m b c : ℕ} {top : TopExp} (neg : Bool) (hc : c < 2 ^ (e + m)) : signed (e, m, b, top) neg c < 2 ^ (e + m + 1) := by
  rw [pow_succ]
  cases neg <;> simp [signed] <;> omega

/-- A code with a sign stands for its magnitude with that sign. -/
theorem idealOf_signed {e m b c : ℕ} {top : TopExp} (neg : Bool) (hF : GoodFmt e m) (hc : c ≤ maxCode e m top) :
    idealOf (e, m, b, top) (signed (e, m, b, top) neg c) = .real (withSign neg (magnitude (e, m, b, top) c)) neg := by
  obtain ⟨hlo, hhi⟩ := maxCode_bounds top hF
  obtain ⟨he, hm, -⟩ := hF
  have hp : 0 < 2 ^ m := by positivity
  have hc' : c < 2 ^ (e + m) := by omega
  have hmod : signed (e, m, b, top) neg c % 2 ^ m = c % 2 ^ m := by
    cases neg <;> simp [signed, pow_add]
  have hdiv : signed (e, m, b, top) neg c / 2 ^ m % 2 ^ e = c / 2 ^ m := by
    have hlt : c / 2 ^ m < 2 ^ e := by rw [Nat.div_lt_iff_lt_mul hp, ← pow_add]; exact hc'
    cases neg
    · simp [signed, Nat.mod_eq_of_lt hlt]
    · simp only [signed, if_true, pow_add]
      rw [Nat.add_comm, Nat.add_mul_div_right _ _ hp, Nat.add_mod_right, Nat.mod_eq_of_lt hlt]
  have hbit : (signed (e, m, b, top) neg c).testBit (e + m) = neg := by
    cases neg
    · simp [signed, Nat.testBit_lt_two_pow hc']
    · simp only [signed, if_true]
      rw [Nat.testBit_two_pow_add_eq, Nat.testBit_lt_two_pow hc']; rfl
  have hmag : magnitude (e, m, b, top) (signed (e, m, b, top) neg c) = magnitude (e, m, b, top) c := by
    have hlt : c / 2 ^ m % 2 ^ e = c / 2 ^ m := Nat.mod_eq_of_lt (by rw [Nat.div_lt_iff_lt_mul hp, ← pow_add]; exact hc')
    unfold magnitude; simp only [hmod, hdiv, hlt]
  have hsplit := Nat.div_add_mod' c (2 ^ m)
  have hpe : (2 ^ e - 1) * 2 ^ m = 2 ^ (e + m) - 2 ^ m := by rw [Nat.sub_mul, Nat.one_mul, pow_add]
  unfold idealOf
  simp only [hmod, hdiv, hbit, hmag, decide_eq_true_eq]
  cases top with
  | ieee =>
    rw [if_neg, if_neg (by simp)]
    · cases neg <;> rfl
    · rintro ⟨-, h⟩
      rw [h, hpe] at hsplit
      simp only [maxCode] at hc
      have : 2 ^ m ≤ 2 ^ (e + m) := Nat.pow_le_pow_right (by norm_num) (by omega)
      simp only [maxCode] at hlo
      omega
  | oneNan =>
    rw [if_neg (by simp), if_neg]
    · cases neg <;> rfl
    · rintro ⟨-, h, h2⟩
      rw [h, h2, hpe] at hsplit
      simp only [maxCode] at hc hlo
      have : 2 ^ m ≤ 2 ^ (e + m) := Nat.pow_le_pow_right (by norm_num) (by omega)
      omega
  | normal =>
    rw [if_neg (by simp), if_neg (by simp)]
    cases neg <;> rfl

end Sys2Proof.Proofs
end

section
namespace Sys2Proof.Proofs

open Machine Oblig

/-- The result of a magnitude that overflows is the one that R32 and R33 name. -/
theorem overflowCode_eq (e m b mode : ℕ) (top : TopExp) (sat neg : Bool) :
    overflowCode e m top mode sat neg =
      if sat = true ∨ top = .normal then signed (e, m, b, top) neg (topCode (e, m, b, top))
      else if top = .oneNan then signed (e, m, b, top) neg (nanCode (e, m, b, top))
      else if mode = 0 ∨ mode = 5 ∨ (mode = 3 ∧ neg = false) ∨ (mode = 2 ∧ neg = true) then
        signed (e, m, b, top) neg (infCode (e, m, b, top))
      else signed (e, m, b, top) neg (topCode (e, m, b, top)) := by
  simp only [overflowCode, signed_eq, topCode_eq_maxCode, Bool.or_eq_true, Bool.and_eq_true, Bool.not_eq_true', decide_eq_true_eq,
    or_assoc, infCode, Nat.shiftLeft_eq]
  congr 1
  cases top <;> simp [canonNan, nanCode]

theorem codeVal_two_pow (m : ℕ) : codeVal m (2 ^ m) = 2 ^ m := by simp [codeVal]

/-- The binade of a magnitude: its rounded multiple has m + 1 bits, or is the next power of two, or is subnormal. -/
theorem rounded_bounds {m n : ℕ} {k emin : ℤ} {a : ℝ} (hk : (2 : ℝ) ^ k ≤ a ∧ a < 2 ^ (k + 1))
    (hn : ⌊a / 2 ^ (max k emin - m)⌋₊ ≤ n ∧ n ≤ ⌊a / 2 ^ (max k emin - m)⌋₊ + 1) :
    n ≤ 2 ^ (m + 1) ∧ (emin ≤ k → 2 ^ m ≤ n) ∧ (k < emin → n ≤ 2 ^ m) := by
  have hu : (0 : ℝ) < 2 ^ (max k emin - m) := by positivity
  have ha : 0 < a := lt_of_lt_of_le (by positivity) hk.1
  have hscale (j : ℕ) (h : a < 2 ^ (max k emin - m + j)) : n ≤ 2 ^ j := by
    have : ⌊a / 2 ^ (max k emin - m)⌋₊ < 2 ^ j := by
      rw [Nat.floor_lt (by positivity), div_lt_iff₀ hu]
      rw [zpow_add₀ two_ne_zero, zpow_natCast] at h
      push_cast; linarith
    omega
  refine ⟨hscale _ (lt_of_lt_of_le hk.2 (zpow_le_zpow_right₀ one_le_two ?_)), fun h => le_trans (Nat.le_floor ?_) hn.1, fun h => hscale _ ?_⟩
  · push_cast; have := le_max_left k emin; omega
  · rw [le_div_iff₀ hu, max_eq_left h]
    push_cast
    rw [← zpow_natCast, ← zpow_add₀ two_ne_zero]
    simpa using hk.1
  · refine lt_of_lt_of_le hk.2 (zpow_le_zpow_right₀ one_le_two ?_)
    have := le_max_right k emin; omega

/-- `roundFlt` is the rounding of R31 to R33, R36 and R38. -/
theorem roundFlt_roundsTo {e m b mode draw mag : ℕ} {exp : ℤ} {top : TopExp} {sat neg st : Bool} {a : ℝ} (hF : GoodFmt e m)
    (h : MagIs mag exp st a) :
    RoundsTo (e, m, b, top) mode draw sat (withSign neg a) neg (roundFlt e m b top mode draw sat neg mag exp st) := by
  refine ⟨fun h0 => ?_, fun h0 => ?_⟩
  · rw [withSign_eq_zero, h.zero_iff] at h0
    simp [roundFlt, h0, signed_eq]
  rw [ne_eq, withSign_eq_zero, h.zero_iff] at h0
  have hk := h.bounds h0
  obtain ⟨hlo, hhi⟩ := maxCode_bounds top hF
  have hlog : Int.log 2 |withSign neg a| = magLog mag exp := by rw [abs_withSign _ h.nonneg]; exact int_log_eq hk
  obtain ⟨k, hkdef⟩ : ∃ k, k = magLog mag exp := ⟨_, rfl⟩
  obtain ⟨emin, hemin⟩ : ∃ emin : ℤ, emin = 1 - b := ⟨_, rfl⟩
  have hguard : st = true → exp + 33 ≤ max k emin - m := by
    intro hs
    obtain ⟨θ, -, -, -, hbig, -⟩ := h
    have := log2_ge_of_sticky (hbig hs)
    have := hF.2.2
    have := le_max_left k emin
    simp only [magLog] at hkdef
    omega
  obtain ⟨hp, hex, hn⟩ := roundAt_picks (mode := mode) (draw := draw) (neg := neg) h hguard
  obtain ⟨r, hr⟩ : ∃ r, r = roundAt mode draw neg mag exp st (max k emin - m) := ⟨_, rfl⟩
  rw [← hkdef] at hk
  rw [← hr] at hp hex hn
  obtain ⟨n, ix⟩ := r
  obtain ⟨hn1, hn2, hn3⟩ := rounded_bounds hk hn
  -- the code and what it stands for
  obtain ⟨d, hd⟩ : ∃ d : ℕ, max k emin = emin + d := ⟨(max k emin - emin).toNat, by have := le_max_right k emin; omega⟩
  obtain ⟨code, hcode⟩ : ∃ code, code = d <<< m + n := ⟨_, rfl⟩
  have hd0 : d = 0 ∨ 2 ^ m ≤ n := by
    by_cases hke : emin ≤ k
    · exact .inr (hn2 hke)
    · rw [max_eq_right (by omega)] at hd; exact .inl (by omega)
  have hval : codeVal m code = n * 2 ^ d := by rw [hcode]; exact codeVal_shift hn1 hd0
  have hy : (n : ℝ) * 2 ^ (max k emin - m) = codeVal m code * 2 ^ (emin - m) := by
    rw [hval, hd, show emin + (d : ℤ) - m = d + (emin - m) by ring, zpow_add₀ two_ne_zero, zpow_natCast]
    push_cast; ring
  have hmagn (c : ℕ) (hc : c < 2 ^ (e + m)) : ((magnitude (e, m, b, top) c : ℚ) : ℝ) = codeVal m c * 2 ^ (emin - m) := by
    rw [magnitude_eq hc, hemin]; push_cast; rfl
  have hround : roundFlt e m b top mode draw sat neg mag exp st =
      (if maxCode e m top < code
        then (overflowCode e m top mode sat neg, (if ix then (if k < emin then fNX ||| fUF else fNX) else 0) ||| fOF ||| fNX)
        else (b2n neg <<< (e + m) + code, if ix then (if k < emin then fNX ||| fUF else fNX) else 0)) := by
    simp only [roundFlt, if_neg h0, ← hkdef, ← hemin, ← hr, hcode]
    rw [show (max k emin - m - (emin - m)).toNat = d by omega]
  have hover : (magnitude (e, m, b, top) (topCode (e, m, b, top)) : ℝ) < n * 2 ^ (max k emin - m) ↔ maxCode e m top < code := by
    rw [topCode_eq_maxCode, hmagn _ hhi, hy, mul_lt_mul_iff_left₀ (by positivity), Nat.cast_lt, (codeVal_strictMono m).lt_iff_lt]
  have habs : |((withSign neg (n : ℤ) : ℤ) : ℝ) * 2 ^ (max k emin - m)| = n * 2 ^ (max k emin - m) := by
    rw [cast_withSign_int, Int.cast_natCast, withSign_mul, abs_withSign _ (by positivity)]
  refine ⟨withSign neg (n : ℤ), ?_⟩
  simp only [hlog, ← hkdef, ← hemin]
  rw [habs, abs_withSign _ h.nonneg, cast_withSign_int, Int.cast_natCast, withSign_mul, hround]
  refine ⟨hp, fun hle => ?_, fun hlt => ?_⟩
  · have hc : ¬ maxCode e m top < code := by rw [← hover, not_lt]; exact hle
    rw [if_neg hc, ← signed_eq e m b top]
    refine ⟨signed_lt neg (by omega), ⟨_, idealOf_signed neg hF (by omega), ?_⟩, fun he => ?_, fun hne => ?_⟩
    · rw [cast_withSign_rat, hmagn _ (by omega), hy]
    · rw [withSign_inj, ← hex] at he
      simp only at he
      simp [he]
    · rw [ne_eq, withSign_inj, ← hex] at hne
      simp only [Bool.not_eq_false] at hne
      have hsub : a < 2 ^ emin ↔ k < emin := by
        constructor
        · intro hlt
          exact (zpow_lt_zpow_iff_right₀ one_lt_two).mp (lt_of_le_of_lt hk.1 hlt)
        · intro hlt
          exact lt_of_lt_of_le hk.2 (zpow_le_zpow_right₀ one_le_two (by omega))
      simp only [hne, if_true]
      refine ⟨fun hs => by rw [if_pos (hsub.mp hs)]; rfl, fun hs => by rw [if_neg (by rw [← hsub]; linarith)]; rfl⟩
  · have hc : maxCode e m top < code := hover.mp hlt
    have hke : ¬ k < emin := by
      intro hke
      rw [max_eq_right (by omega)] at hd
      obtain rfl : d = 0 := by omega
      have := hn3 hke
      simp only [Nat.zero_shiftLeft, Nat.zero_add] at hcode
      omega
    rw [if_pos hc, overflowCode_eq e m b]
    refine ⟨?_, rfl⟩
    rw [if_neg hke]
    cases ix <;> rfl

end Sys2Proof.Proofs
end

section
/-! PROOFS. What an exact value of the model stands for, and the operations on exact values as those on ideal ones (R45 to R47, R77). -/

namespace Sys2Proof.Proofs

open Machine Oblig

/-- What an exact value without a rest stands for. -/
def ideal : Exact → Ideal
  | .nan => .nan
  | .inf neg => .inf neg
  | .fin neg mag exp _ => .real (withSign neg (mag * 2 ^ exp)) neg

@[simp] theorem ideal_nan : ideal .nan = .nan := rfl
@[simp] theorem ideal_inf (neg : Bool) : ideal (.inf neg) = .inf neg := rfl
@[simp] theorem ideal_fin (neg : Bool) (mag : ℕ) (exp : ℤ) (st : Bool) :
    ideal (.fin neg mag exp st) = .real (withSign neg (mag * 2 ^ exp)) neg := rfl

/-- Whether an exact value carries a rest. -/
def hasRest : Exact → Bool
  | .fin _ _ _ st => st
  | _ => false

/-- An exact value, its rest included, stands for an ideal result. -/
def Stands : Exact → Ideal → Prop
  | .nan, .nan => True
  | .inf s, .inf t => s = t
  | .fin neg mag exp st, .real x s => s = neg ∧ ∃ a, MagIs mag exp st a ∧ (x : ℝ) = withSign neg a
  | _, _ => False

theorem magIs_exact (mag : ℕ) (exp : ℤ) : MagIs mag exp false (mag * 2 ^ exp) :=
  ⟨0, le_rfl, one_pos, by simp, by simp, by simp⟩

theorem Stands.of_nan {i : Ideal} (h : Stands .nan i) : i = .nan := by
  cases i with
  | nan => rfl
  | inf | real => exact h.elim

theorem Stands.of_inf {s : Bool} {i : Ideal} (h : Stands (.inf s) i) : i = .inf s := by
  cases i with
  | inf t => exact congrArg Ideal.inf (Eq.symm h)
  | nan | real => exact h.elim

theorem Stands.of_fin {neg st : Bool} {mag : ℕ} {exp : ℤ} {i : Ideal} (h : Stands (.fin neg mag exp st) i) :
    ∃ x : ℚ, i = .real x neg ∧ ∃ a, MagIs mag exp st a ∧ (x : ℝ) = withSign neg a := by
  cases i with
  | real x s =>
    obtain ⟨rfl, ha⟩ := h
    exact ⟨x, rfl, ha⟩
  | nan | inf => exact h.elim

theorem stands_ideal {v : Exact} (h : hasRest v = false) : Stands v (ideal v) := by
  cases v with
  | nan => trivial
  | inf s => rfl
  | fin neg mag exp st =>
    obtain rfl : st = false := h
    exact ⟨rfl, _, magIs_exact mag exp, by rw [cast_withSign_rat]; push_cast; rfl⟩

/-! ### Codes and modifiers -/

theorem bit_eq_testBit (v n : ℕ) : bit v n = v.testBit n := by
  simp [bit, Nat.testBit, Nat.one_and_eq_mod_two]
  
/-- The value of a code is the one that R17 and R18 give it. -/
theorem ideal_valueOf_flt (e m b c : ℕ) (top : TopExp) (hm : 1 ≤ m) : ideal (valueOf (.flt e m b top) c) = idealOf (e, m, b, top) c := by
  have hef : fld c (e + m - 1) m = c / 2 ^ m % 2 ^ e := by
    rw [fld, Nat.shiftRight_eq_div_pow, show e + m - 1 + 1 - m = e by omega]
  simp only [valueOf, idealOf, bit_eq_testBit, hef, decide_eq_true_eq, magnitude]
  split
  · split <;> rfl
  · split
    · rfl
    · split
      · rename_i h0
        simp only [ideal, h0]
        cases c.testBit (e + m) <;> simp
      · rename_i h0
        have h1 : max ((c / 2 ^ m % 2 ^ e : ℕ) : ℤ) 1 = (c / 2 ^ m % 2 ^ e : ℕ) := max_eq_left (by omega)
        simp only [ideal, h1]
        cases c.testBit (e + m) <;> simp

theorem hasRest_valueOf (ty : NumTy) (c : ℕ) : hasRest (valueOf ty c) = false := by
  cases ty <;> simp only [valueOf, exInt] <;> (repeat' split) <;> rfl

theorem hasRest_exModify (n a : Bool) (v : Exact) : hasRest (exModify n a v) = hasRest v := by cases v <;> rfl

theorem ideal_exModify (n a : Bool) (v : Exact) : ideal (exModify n a v) = idModify n a (ideal v) := by
  cases v with
  | nan => rfl
  | inf s => rfl
  | fin neg mag exp st =>
    have hnn : (0 : ℚ) ≤ mag * 2 ^ exp := by positivity
    simp only [exModify, ideal, idModify, abs_withSign neg hnn]
    cases neg <;> cases n <;> cases a <;> simp

/-! ### Scaling and clamping -/

theorem MagIs.scale {mag : ℕ} {exp : ℤ} {st : Bool} {a : ℝ} (h : MagIs mag exp st a) (k : ℤ) : MagIs mag (exp + k) st (a * 2 ^ k) := by
  obtain ⟨θ, h0, h1, hst, hbig, rfl⟩ := h
  exact ⟨θ, h0, h1, hst, hbig, by rw [zpow_add₀ two_ne_zero]; ring⟩

theorem Stands.scale {v : Exact} {i : Ideal} (h : Stands v i) (k : ℤ) : Stands (exScale v k) (idScale k i) := by
  cases v with
  | nan => rw [h.of_nan]; trivial
  | inf s => rw [h.of_inf]; exact rfl
  | fin neg mag exp st =>
    obtain ⟨x, rfl, a, ha, hx⟩ := h.of_fin
    exact ⟨rfl, _, ha.scale k, by push_cast; rw [hx, withSign_mul]⟩

/-- The model's comparison with 1, a rest included. -/
theorem MagIs.above_one {mag : ℕ} {exp : ℤ} {st : Bool} {a : ℝ} (h : MagIs mag exp st a) : magAboveOne mag exp st = true ↔ 1 < a := by
  obtain ⟨θ, h0, h1, hst, hbig, rfl⟩ := h
  have hp : (0 : ℝ) < 2 ^ exp := by positivity
  unfold magAboveOne
  split
  · rename_i he
    have h2 : (2 : ℝ) ≤ 2 ^ exp := by simpa using zpow_le_zpow_right₀ (one_le_two (α := ℝ)) (show (1 : ℤ) ≤ exp by omega)
    rw [decide_eq_true_eq]
    constructor
    · intro hm
      have : (1 : ℝ) ≤ mag := by exact_mod_cast hm
      nlinarith
    · intro ha
      by_contra hm
      obtain rfl : mag = 0 := by omega
      obtain rfl : st = false := by cases st; rfl; have := hbig rfl; omega
      rw [hst.mp rfl] at ha; norm_num at ha
  · rename_i he
    have hinv : (2 : ℝ) ^ exp = (((2 ^ (-exp).toNat : ℕ) : ℝ))⁻¹ := by
      rw [Nat.cast_pow, ← zpow_natCast, Nat.cast_ofNat, ← zpow_neg]; congr 1; omega
    have hq : (0 : ℝ) < ((2 ^ (-exp).toNat : ℕ) : ℝ) := by positivity
    rw [hinv, ← div_eq_mul_inv, one_lt_div hq]
    generalize 2 ^ (-exp).toNat = p
    simp only [Bool.or_eq_true, Bool.and_eq_true, decide_eq_true_eq]
    constructor
    · rintro (hlt | ⟨rfl, rfl⟩)
      · have : (p : ℝ) < mag := by exact_mod_cast hlt
        linarith
      · have : θ ≠ 0 := fun e => by simpa using hst.mpr e
        linarith [lt_of_le_of_ne h0 this.symm]
    · intro hlt
      have hle : p < mag + 1 := by
        have : (p : ℝ) < ((mag + 1 : ℕ) : ℝ) := by push_cast; linarith
        exact_mod_cast this
      by_cases hlt' : p < mag
      · exact .inl hlt'
      · obtain rfl : mag = p := by omega
        refine .inr ⟨rfl, ?_⟩
        cases st
        · rw [hst.mp rfl] at hlt; simp at hlt
        · rfl

theorem MagIs.isZero_iff {neg : Bool} {mag : ℕ} {exp : ℤ} {st : Bool} {a : ℝ} (h : MagIs mag exp st a) :
    isZero (.fin neg mag exp st) = true ↔ a = 0 := by
  rw [h.zero_iff]
  obtain ⟨θ, h0, h1, hst, hbig, ha⟩ := h
  simp only [isZero, Bool.and_eq_true, decide_eq_true_eq, Bool.not_eq_true']
  refine ⟨fun h => h.1, fun h => ⟨h, ?_⟩⟩
  cases st
  · rfl
  · have := hbig rfl; omega

theorem stands_zero (neg : Bool) (exp : ℤ) : Stands (.fin neg 0 exp false) (.real 0 neg) :=
  ⟨rfl, 0, by simpa using magIs_exact 0 exp, by cases neg <;> simp⟩

theorem stands_exOne : Stands exOne (.real 1 false) := ⟨rfl, 1, by simpa using magIs_exact 1 0, by simp⟩
theorem stands_exNegOne : Stands exNegOne (.real (-1) true) := ⟨rfl, 1, by simpa using magIs_exact 1 0, by simp⟩

section
variable {mag : ℕ} {exp : ℤ} {st : Bool} {a : ℝ} {x : ℚ} (ha : MagIs mag exp st a)
include ha

/-- The clamp to [0, 1] of a positive value. -/
theorem stands_clampUnit_pos (hx : (x : ℝ) = a) : Stands (exClamp 2 (.fin false mag exp st)) (idClamp 2 (.real x false)) := by
  have hx0 : ¬ x < 0 := by rw [← Rat.cast_lt (K := ℝ), hx]; simpa using ha.nonneg
  have hx1 : (1 < x) ↔ magAboveOne mag exp st = true := by rw [← Rat.cast_lt (K := ℝ), hx, ha.above_one]; simp
  simp only [exClamp, idClamp, hx0, hx1, Bool.false_and, Bool.false_eq_true, if_false]
  split
  · exact stands_exOne
  · exact ⟨rfl, a, ha, hx⟩

/-- The clamp to [0, 1] of a negative value. -/
theorem stands_clampUnit_neg (hx : (x : ℝ) = -a) : Stands (exClamp 2 (.fin true mag exp st)) (idClamp 2 (.real x true)) := by
  have hpos := ha.nonneg
  have hzero := ha.isZero_iff (neg := true)
  have hx0 : (x < 0) ↔ ¬ isZero (.fin true mag exp st) = true := by
    rw [← Rat.cast_lt (K := ℝ), hx, hzero]; simp [lt_iff_le_and_ne, hpos]
  have hx1 : ¬ 1 < x := by rw [← Rat.cast_lt (K := ℝ), hx, not_lt, Rat.cast_one]; linarith
  simp only [exClamp, idClamp, hx0, hx1, Bool.true_and, Bool.not_eq_true', Bool.not_eq_true, if_false]
  split
  · exact stands_zero _ _
  · next hz =>
    rw [Bool.not_eq_false] at hz
    have hone : ¬ magAboveOne mag exp st = true := by rw [ha.above_one, hzero.mp hz]; norm_num
    rw [if_neg hone]
    exact ⟨rfl, a, ha, hx⟩

/-- The clamp to [-1, 1]. -/
theorem stands_clampSigned (neg : Bool) (n : ℕ) (hx : (x : ℝ) = withSign neg a) :
    Stands (exClamp (n + 3) (.fin neg mag exp st)) (idClamp (n + 3) (.real x neg)) := by
  have hpos := ha.nonneg
  cases neg with
  | false =>
    have hx0 : ¬ x < -1 := by rw [← Rat.cast_lt (K := ℝ), hx]; simp only [withSign_false, Rat.cast_neg, Rat.cast_one]; linarith
    have hx1 : (1 < x) ↔ magAboveOne mag exp st = true := by rw [← Rat.cast_lt (K := ℝ), hx, ha.above_one]; simp
    simp only [exClamp, idClamp, hx0, hx1, Bool.false_eq_true, if_false]
    split
    · exact stands_exOne
    · exact ⟨rfl, a, ha, hx⟩
  | true =>
    have hx0 : (x < -1) ↔ magAboveOne mag exp st = true := by rw [← Rat.cast_lt (K := ℝ), hx, ha.above_one]; simp
    have hx1 : ¬ 1 < x := by rw [← Rat.cast_lt (K := ℝ), hx, not_lt]; simp only [withSign_true, Rat.cast_one]; linarith
    simp only [exClamp, idClamp, hx0, hx1, if_true, if_false]
    split
    · exact stands_exNegOne
    · exact ⟨rfl, a, ha, hx⟩

end

/-- CLP clamps what an exact value stands for (R77 step 4). -/
theorem Stands.clamp {v : Exact} {i : Ideal} (h : Stands v i) (clp : ℕ) : Stands (exClamp clp v) (idClamp clp i) := by
  cases v with
  | nan => rw [h.of_nan]; trivial
  | inf s =>
    rw [h.of_inf]
    match clp, s with
    | 0, _ => exact rfl
    | 1, false => exact rfl
    | 1, true => exact stands_zero _ _
    | 2, false => exact stands_exOne
    | 2, true => exact stands_zero _ _
    | _ + 3, false => exact stands_exOne
    | _ + 3, true => exact stands_exNegOne
  | fin neg mag exp st =>
    obtain ⟨x, rfl, a, ha, hx⟩ := h.of_fin
    match clp, neg with
    | 0, _ => exact h
    | 1, false => exact h
    | 1, true => exact stands_zero _ _
    | 2, false => exact stands_clampUnit_pos ha (by simpa using hx)
    | 2, true => exact stands_clampUnit_neg ha (by simpa using hx)
    | n + 3, neg => exact stands_clampSigned ha neg n hx

/-! ### Arithmetic -/

/-- Two aligned magnitudes are integers of the same unit. -/
theorem alignTo_eq {e exp : ℤ} (neg : Bool) (mag : ℕ) (h : e ≤ exp) :
    (alignTo e neg mag exp : ℚ) * 2 ^ e = withSign neg ((mag : ℚ) * 2 ^ exp) := by
  have hexp : exp = (exp - e).toNat + e := by omega
  generalize (exp - e).toNat = d at hexp
  rw [hexp, alignTo, Nat.shiftLeft_eq, zpow_add₀ two_ne_zero, zpow_natCast]
  rw [show ((d : ℤ) + e - e).toNat = d by omega]
  cases neg <;> simp <;> ring

theorem ideal_exInt (i e : ℤ) : ideal (exInt i e) = .real (i * 2 ^ e) (decide (i < 0)) := by
  simp only [exInt, ideal]
  by_cases h : i < 0
  · have hi : ((i.natAbs : ℕ) : ℚ) = -(i : ℚ) := by rw [Nat.cast_natAbs, abs_of_neg h]; push_cast; rfl
    simp [h, hi]
  · have hi : ((i.natAbs : ℕ) : ℚ) = (i : ℚ) := by rw [Nat.cast_natAbs, abs_of_nonneg (by omega)]
    simp [h, hi]

theorem sum_neg_iff (i e : ℤ) : ((i : ℚ) * 2 ^ e < 0) ↔ i < 0 := by
  have hp : (0 : ℚ) < 2 ^ e := by positivity
  rw [← Int.cast_lt_zero (R := ℚ)]
  exact ⟨fun h => by by_contra hc; exact absurd (mul_nonneg (not_lt.mp hc) hp.le) (not_le.mpr h), fun h => mul_neg_of_neg_of_pos h hp⟩

theorem ideal_exAdd (rdn : Bool) (a b : Exact) :
    ideal (exAdd rdn a b).1 = (idAdd rdn (ideal a) (ideal b)).1 ∧ (exAdd rdn a b).2 = (idAdd rdn (ideal a) (ideal b)).2 := by
  cases a with
  | nan => exact ⟨rfl, rfl⟩
  | inf s =>
    cases b with
    | nan => exact ⟨rfl, rfl⟩
    | inf t => by_cases h : s = t <;> simp [exAdd, idAdd, h, fNV]
    | fin => exact ⟨rfl, rfl⟩
  | fin na ma ea sa =>
    cases b with
    | nan => exact ⟨rfl, rfl⟩
    | inf t => exact ⟨rfl, rfl⟩
    | fin nb mb eb sb =>
      have hp : (0 : ℚ) < 2 ^ min ea eb := by positivity
      have hx := alignTo_eq na ma (min_le_left ea eb)
      have hy := alignTo_eq nb mb (min_le_right ea eb)
      have ha0 : withSign na ((ma : ℚ) * 2 ^ ea) = 0 ↔ ma = 0 := by
        rw [withSign_eq_zero, mul_eq_zero_iff_right (zpow_ne_zero _ two_ne_zero), Nat.cast_eq_zero]
      have hb0 : withSign nb ((mb : ℚ) * 2 ^ eb) = 0 ↔ mb = 0 := by
        rw [withSign_eq_zero, mul_eq_zero_iff_right (zpow_ne_zero _ two_ne_zero), Nat.cast_eq_zero]
      have hsum : withSign na ((ma : ℚ) * 2 ^ ea) + withSign nb ((mb : ℚ) * 2 ^ eb) =
          ((alignTo (min ea eb) na ma ea + alignTo (min ea eb) nb mb eb : ℤ) : ℚ) * 2 ^ min ea eb := by
        rw [← hx, ← hy]; push_cast; ring
      simp only [exAdd, idAdd, ideal_fin]
      by_cases hz : ma = 0 ∧ mb = 0
      · obtain ⟨rfl, rfl⟩ := hz
        cases na <;> cases nb <;> cases rdn <;> simp
      · rw [if_neg hz]
        by_cases hs : alignTo (min ea eb) na ma ea + alignTo (min ea eb) nb mb eb = 0
        · have hxy : withSign na ((ma : ℚ) * 2 ^ ea) + withSign nb ((mb : ℚ) * 2 ^ eb) = 0 := by rw [hsum, hs]; simp
          have hne : ¬ (withSign na ((ma : ℚ) * 2 ^ ea) = 0 ∧ na = nb) := by
            rintro ⟨h0, -⟩
            rw [h0, zero_add] at hxy
            exact hz ⟨ha0.mp h0, hb0.mp hxy⟩
          rw [if_pos hs, if_pos hxy, if_neg hne]
          cases rdn <;> simp
        · have hxy : ¬ withSign na ((ma : ℚ) * 2 ^ ea) + withSign nb ((mb : ℚ) * 2 ^ eb) = 0 := by
            rw [hsum, mul_eq_zero_iff_right hp.ne']; exact_mod_cast hs
          rw [if_neg hs, if_neg hxy]
          refine ⟨?_, rfl⟩
          rw [ideal_exInt, hsum]
          simp only [sum_neg_iff]

theorem hasRest_exAdd (rdn : Bool) (a b : Exact) : hasRest (exAdd rdn a b).1 = false := by
  cases a <;> cases b <;> simp only [exAdd] <;> (repeat' split) <;> rfl

theorem ideal_exMul (a b : Exact) :
    ideal (exMul a b).1 = (idMul (ideal a) (ideal b)).1 ∧ (exMul a b).2 = (idMul (ideal a) (ideal b)).2 := by
  have hzero (n : Bool) (m : ℕ) (e : ℤ) : withSign n ((m : ℚ) * 2 ^ e) = 0 ↔ m = 0 := by
    rw [withSign_eq_zero, mul_eq_zero_iff_right (zpow_ne_zero _ two_ne_zero), Nat.cast_eq_zero]
  cases a with
  | nan => exact ⟨rfl, rfl⟩
  | inf s =>
    cases b with
    | nan => exact ⟨rfl, rfl⟩
    | inf t => exact ⟨rfl, rfl⟩
    | fin nb mb eb sb => by_cases h : mb = 0 <;> simp [exMul, idMul, hzero, h, fNV]
  | fin na ma ea sa =>
    cases b with
    | nan => exact ⟨rfl, rfl⟩
    | inf t => by_cases h : ma = 0 <;> simp [exMul, idMul, hzero, h, fNV, Bool.xor_comm]
    | fin nb mb eb sb =>
      refine ⟨?_, rfl⟩
      simp only [exMul, idMul, ideal_fin, zpow_add₀ (two_ne_zero (α := ℚ)), Nat.cast_mul]
      cases na <;> cases nb <;> simp <;> ring

theorem hasRest_exMul (a b : Exact) : hasRest (exMul a b).1 = false := by
  cases a <;> cases b <;> simp only [exMul] <;> (repeat' split) <;> rfl

theorem ideal_exFma (rdn : Bool) (a b c : Exact) :
    ideal (exFma rdn a b c).1 = (idAdd rdn (idMul (ideal a) (ideal b)).1 (ideal c)).1 ∧
      (exFma rdn a b c).2 = (idMul (ideal a) (ideal b)).2 ||| (idAdd rdn (idMul (ideal a) (ideal b)).1 (ideal c)).2 := by
  obtain ⟨hm, hf⟩ := ideal_exMul a b
  obtain ⟨hs, hg⟩ := ideal_exAdd rdn (exMul a b).1 c
  rw [hm] at hs hg
  exact ⟨hs, by rw [← hf, ← hg]; rfl⟩

theorem hasRest_exFma (rdn : Bool) (a b c : Exact) : hasRest (exFma rdn a b c).1 = false := hasRest_exAdd rdn (exMul a b).1 c

/-! ### Order -/

theorem exLt_eq {a b : Exact} (ha : a ≠ .nan) (hb : b ≠ .nan) : exLt a b = idBelow false (ideal a) (ideal b) := by
  cases a with
  | nan => exact absurd rfl ha
  | inf s =>
    cases b with
    | nan => exact absurd rfl hb
    | inf t => rfl
    | fin => rfl
  | fin na ma ea sa =>
    cases b with
    | nan => exact absurd rfl hb
    | inf t => rfl
    | fin nb mb eb sb =>
      have hp : (0 : ℚ) < 2 ^ min ea eb := by positivity
      simp only [exLt, idBelow, ideal_fin, Bool.false_and, Bool.or_false]
      rw [← alignTo_eq na ma (min_le_left ea eb), ← alignTo_eq nb mb (min_le_right ea eb)]
      simp only [mul_lt_mul_iff_left₀ hp, Int.cast_lt]

theorem ideal_exMin (a b : Exact) : ideal (exMin a b) = idMin (ideal a) (ideal b) := by
  cases a with
  | nan => rfl
  | inf s =>
    cases b with
    | nan => rfl
    | inf t => cases s <;> cases t <;> rfl
    | fin nb mb eb sb => cases s <;> rfl
  | fin na ma ea sa =>
    cases b with
    | nan => rfl
    | inf t => cases t <;> rfl
    | fin nb mb eb sb =>
      simp only [exMin, exLt_eq (Exact.noConfusion : Exact.fin na ma ea sa ≠ .nan) (Exact.noConfusion : Exact.fin nb mb eb sb ≠ .nan),
        exLt_eq (Exact.noConfusion : Exact.fin nb mb eb sb ≠ .nan) (Exact.noConfusion : Exact.fin na ma ea sa ≠ .nan), idMin,
        apply_ite ideal]
      simp only [ideal_fin, idBelow, exNeg, Bool.false_and, Bool.or_false, Bool.true_and, decide_eq_true_eq, Bool.or_eq_true,
        Bool.and_eq_true, Bool.not_eq_true']
      generalize withSign na ((ma : ℚ) * 2 ^ ea) = x
      generalize withSign nb ((mb : ℚ) * 2 ^ eb) = y
      rcases lt_trichotomy x y with h | rfl | h
      · simp [h, not_lt.mpr h.le, h.ne']
      · cases na <;> cases nb <;> simp
      · simp [h, not_lt.mpr h.le]

theorem ideal_exMax (a b : Exact) : ideal (exMax a b) = idMax (ideal a) (ideal b) := by
  cases a with
  | nan => rfl
  | inf s =>
    cases b with
    | nan => rfl
    | inf t => cases s <;> cases t <;> rfl
    | fin nb mb eb sb => cases s <;> rfl
  | fin na ma ea sa =>
    cases b with
    | nan => rfl
    | inf t => cases t <;> rfl
    | fin nb mb eb sb =>
      simp only [exMax, exLt_eq (Exact.noConfusion : Exact.fin na ma ea sa ≠ .nan) (Exact.noConfusion : Exact.fin nb mb eb sb ≠ .nan),
        exLt_eq (Exact.noConfusion : Exact.fin nb mb eb sb ≠ .nan) (Exact.noConfusion : Exact.fin na ma ea sa ≠ .nan), idMax,
        apply_ite ideal]
      simp only [ideal_fin, idBelow, exNeg, Bool.false_and, Bool.or_false, Bool.true_and, decide_eq_true_eq, Bool.or_eq_true,
        Bool.and_eq_true, Bool.not_eq_true']
      generalize withSign na ((ma : ℚ) * 2 ^ ea) = x
      generalize withSign nb ((mb : ℚ) * 2 ^ eb) = y
      rcases lt_trichotomy x y with h | rfl | h
      · simp [h]
      · cases na <;> cases nb <;> simp
      · simp [h, not_lt.mpr h.le, h.ne']

theorem hasRest_exMin {a b : Exact} (ha : hasRest a = false) (hb : hasRest b = false) : hasRest (exMin a b) = false := by
  unfold exMin
  (repeat' split) <;> simp only [ha, hb]

theorem hasRest_exMax {a b : Exact} (ha : hasRest a = false) (hb : hasRest b = false) : hasRest (exMax a b) = false := by
  unfold exMax
  (repeat' split) <;> simp only [ha, hb]

/-! ### Quotient and square root -/

/-- A quotient of magnitudes to at least 97 bits, with its remainder as the rest. -/
theorem magIs_quotient {ma mb : ℕ} (ea eb : ℤ) (ha : ma ≠ 0) (hb : mb ≠ 0) :
    let s := 98 + log2 mb - log2 ma
    MagIs ((ma <<< s) / mb) (ea - eb - s) (decide ((ma <<< s) % mb ≠ 0)) ((ma * 2 ^ ea) / (mb * 2 ^ eb)) := by
  intro s
  have hb0 : 0 < mb := Nat.pos_of_ne_zero hb
  have hbr : (0 : ℝ) < mb := by exact_mod_cast hb0
  have hlt := Nat.mod_lt (ma <<< s) hb0
  refine ⟨((ma <<< s) % mb : ℕ) / mb, by positivity, ?_, ?_, fun _ => ?_, ?_⟩
  · rw [div_lt_one hbr]; exact_mod_cast hlt
  · rw [div_eq_zero_iff]
    simp [hb]
  · rw [Nat.le_div_iff_mul_le hb0, Nat.shiftLeft_eq]
    have h1 : 2 ^ log2 ma ≤ ma := Nat.log2_self_le ha
    have h2 : mb < 2 ^ (log2 mb + 1) := Nat.lt_log2_self
    calc 2 ^ 90 * mb ≤ 2 ^ 90 * 2 ^ (log2 mb + 1) := Nat.mul_le_mul_left _ h2.le
      _ = 2 ^ (90 + (log2 mb + 1)) := (pow_add 2 90 _).symm
      _ ≤ 2 ^ (log2 ma + s) := Nat.pow_le_pow_right (by norm_num) (by omega)
      _ = 2 ^ log2 ma * 2 ^ s := pow_add 2 _ _
      _ ≤ ma * 2 ^ s := Nat.mul_le_mul_right _ h1
  · have hdm : ((ma <<< s : ℕ) : ℝ) = ((ma <<< s) / mb : ℕ) * mb + ((ma <<< s) % mb : ℕ) := by
      exact_mod_cast (Nat.div_add_mod' (ma <<< s) mb).symm
    have hq : (((ma <<< s) / mb : ℕ) + ((ma <<< s) % mb : ℕ) / mb : ℝ) = (ma <<< s : ℕ) / mb := by rw [hdm]; field_simp
    rw [hq, Nat.shiftLeft_eq, zpow_sub₀ two_ne_zero, zpow_sub₀ two_ne_zero, zpow_natCast]
    push_cast
    field_simp

theorem stands_exDiv (a b : Exact) :
    Stands (exDiv a b).1 (idDiv (ideal a) (ideal b)).1 ∧ (exDiv a b).2 = (idDiv (ideal a) (ideal b)).2 := by
  have hzero (n : Bool) (m : ℕ) (e : ℤ) : withSign n ((m : ℚ) * 2 ^ e) = 0 ↔ m = 0 := by
    rw [withSign_eq_zero, mul_eq_zero_iff_right (zpow_ne_zero _ two_ne_zero), Nat.cast_eq_zero]
  cases a with
  | nan => exact ⟨trivial, rfl⟩
  | inf s =>
    cases b with
    | nan => exact ⟨trivial, rfl⟩
    | inf t => exact ⟨trivial, rfl⟩
    | fin nb mb eb sb => exact ⟨rfl, rfl⟩
  | fin na ma ea sa =>
    cases b with
    | nan => exact ⟨trivial, rfl⟩
    | inf t => exact ⟨stands_zero _ _, rfl⟩
    | fin nb mb eb sb =>
      simp only [exDiv, idDiv, ideal_fin, hzero]
      by_cases hb : mb = 0
      · simp only [hb, if_true]
        split
        · exact ⟨trivial, rfl⟩
        · exact ⟨rfl, rfl⟩
      · simp only [hb, if_false]
        by_cases ha : ma = 0
        · simp only [ha, if_true]
          refine ⟨?_, trivial⟩
          rw [show withSign na (((0 : ℕ) : ℚ) * 2 ^ ea) / withSign nb ((mb : ℚ) * 2 ^ eb) = 0 by simp]
          exact stands_zero _ _
        · simp only [ha, if_false]
          refine ⟨⟨rfl, _, magIs_quotient ea eb ha hb, ?_⟩, trivial⟩
          cases na <;> cases nb <;> simp [neg_div, div_neg]

/-- The bitwise descent keeps r² ≤ n < (r + 2^k)². -/
theorem isqrtFrom_eq (n k r : ℕ) (h1 : r * r ≤ n) (h2 : n < (r + 2 ^ k) * (r + 2 ^ k)) : isqrtFrom n k r = Nat.sqrt n := by
  induction k generalizing r with
  | zero => exact Nat.eq_sqrt.mpr ⟨h1, h2⟩
  | succ k ih =>
    simp only [isqrtFrom]
    split
    · rename_i h
      exact ih _ h (by rw [pow_succ] at h2; rwa [show r + 2 ^ k + 2 ^ k = r + 2 ^ k * 2 by ring])
    · rename_i h
      exact ih _ h1 (by omega)

theorem isqrt_eq_sqrt (n : ℕ) : isqrt n = Nat.sqrt n := by
  refine isqrtFrom_eq n _ 0 (by simp) ?_
  have : n < 2 ^ (log2 n + 1) := Nat.lt_log2_self
  refine lt_of_lt_of_le this ?_
  rw [Nat.zero_add, ← pow_add]
  exact Nat.pow_le_pow_right (by norm_num) (by omega)

/-- The integer square root, with what it leaves as the rest. -/
theorem magIs_sqrt {m : ℕ} (h : ℤ) (hm : 2 ^ 180 ≤ m) :
    MagIs (isqrt m) h (decide (isqrt m * isqrt m ≠ m)) (Real.sqrt (m * 2 ^ (2 * h))) := by
  rw [isqrt_eq_sqrt]
  have hr0 : (0 : ℝ) ≤ (m : ℝ) := Nat.cast_nonneg m
  have hsplit : Real.sqrt (m * 2 ^ (2 * h)) = Real.sqrt m * 2 ^ h := by
    rw [Real.sqrt_mul hr0, mul_comm 2 h, zpow_mul, show ((2 : ℝ) ^ h) ^ (2 : ℤ) = ((2 : ℝ) ^ h) ^ 2 by norm_cast,
      Real.sqrt_sq (by positivity)]
  have hle : ((Nat.sqrt m : ℕ) : ℝ) ≤ Real.sqrt m := Real.nat_sqrt_le_real_sqrt
  have hlt : Real.sqrt m < (Nat.sqrt m : ℕ) + 1 := by
    rw [Real.sqrt_lt' (by positivity)]
    exact_mod_cast (Nat.lt_succ_sqrt' m)
  refine ⟨Real.sqrt m - Nat.sqrt m, by linarith, by linarith, ?_, fun _ => ?_, by rw [hsplit]; ring⟩
  · rw [decide_eq_false_iff_not, not_not, sub_eq_zero, Real.sqrt_eq_iff_mul_self_eq hr0 (by positivity)]
    rw [← Nat.cast_mul, Nat.cast_inj, eq_comm]
  · rw [Nat.le_sqrt, ← pow_add]; exact hm

end Sys2Proof.Proofs
end

section
/-! PROOFS. Exact values into the formats and the integer types (R30 to R36), and the floating-point lanes of VARITH and VCMP. -/

namespace Sys2Proof.Proofs

open Machine Oblig

/-! ### Into a format -/

theorem canonNan_eq_nanCode {m : ℕ} (e b : ℕ) (top : TopExp) (hm : 1 ≤ m) : canonNan e m top = nanCode (e, m, b, top) := by
  have h1 : 2 ^ m = 2 * 2 ^ (m - 1) := by rw [← pow_succ', Nat.sub_add_cancel hm]
  have h2 : 2 ^ m ≤ 2 ^ (e + m) := Nat.pow_le_pow_right (by norm_num) (by omega)
  cases top <;> simp [canonNan, nanCode, infCode, Nat.sub_mul, ← pow_add]
  omega

/-- Into a floating-point format: NaN, the infinities and the one rounding (R30 to R33, R45). -/
theorem finishes_toFlt {e m b mode draw : ℕ} {top : TopExp} {sat keep : Bool} {v : Exact} {i : Ideal} (hF : GoodFmt e m)
    (h : Stands v i) : Finishes (e, m, b, top) mode draw sat keep i (toFlt e m b top mode draw sat keep v) := by
  cases v with
  | nan =>
    rw [h.of_nan]
    simp only [Finishes, toFlt, ← canonNan_eq_nanCode e b top hF.2.1, topCode_eq_maxCode]
    cases top <;> simp [fNV, fNX]
  | inf s =>
    rw [h.of_inf]
    simp only [Finishes, toFlt, ← canonNan_eq_nanCode e b top hF.2.1, topCode_eq_maxCode, signed_eq, infCode, Nat.shiftLeft_eq,
      Bool.and_eq_true, Bool.or_eq_true, decide_eq_true_eq]
    rfl
  | fin neg mag exp st =>
    obtain ⟨x, rfl, a, ha, hx⟩ := h.of_fin
    simp only [Finishes, toFlt, hx]
    exact roundFlt_roundsTo hF ha

/-! ### Into an integer type -/

theorem ulow_eq (w : ℕ) (i : ℤ) : ulow w i = (BitVec.ofInt w i).toNat := by
  rw [BitVec.toNat_ofInt, ulow]

/-- Into an integer type (R35, R36). -/
theorem finishesInt_toInt {w mode draw : ℕ} {sg sat : Bool} {v : Exact} {i : Ideal} (hr : hasRest v = false) (h : Stands v i) :
    FinishesInt sg w mode draw sat i (toInt sg w mode draw sat v) := by
  cases v with
  | nan => rw [h.of_nan]; rfl
  | inf s =>
    rw [h.of_inf]
    cases sg <;> simp [FinishesInt, toInt, ulow_eq, fOF, fNX]
  | fin neg mag exp st =>
    cases i with
    | nan => exact h.elim
    | inf => exact h.elim
    | real x s =>
      obtain ⟨rfl, a, ha, hx⟩ := h
      obtain rfl : st = false := hr
      obtain ⟨r, hr⟩ : ∃ r, r = if mag = 0 then (0, false) else roundAt mode draw s mag exp false 0 := ⟨_, rfl⟩
      obtain ⟨hp, hex⟩ : Picks mode draw (x : ℝ) 1 (withSign s (r.1 : ℤ)) ∧ (r.2 = false ↔ ((withSign s (r.1 : ℤ) : ℤ) : ℚ) = x) := by
        rw [← Rat.cast_inj (α := ℝ), hx, Rat.cast_intCast, cast_withSign_int, Int.cast_natCast, withSign_inj]
        by_cases h0 : mag = 0
        · rw [if_pos h0] at hr
          rw [ha.zero_iff.mpr h0, hr]
          exact ⟨picks_multiple (by cases s <;> simp), by simp⟩
        · rw [if_neg h0] at hr
          obtain ⟨hp, he, -⟩ := roundAt_picks (mode := mode) (draw := draw) (neg := s) (q := 0) ha (by simp)
          rw [← hr] at hp he
          simp only [zpow_zero, mul_one] at hp he
          exact ⟨hp, he⟩
      obtain ⟨N, hN⟩ : ∃ N, N = withSign s (r.1 : ℤ) := ⟨_, rfl⟩
      have hT : toInt sg w mode draw sat (.fin s mag exp false) =
          (let lo : ℤ := if sg then -(2 ^ (w - 1) : ℕ) else 0
           let hi : ℤ := if sg then (2 ^ (w - 1) : ℕ) - 1 else (2 ^ w : ℕ) - 1
           let fl := if r.2 then fNX else 0
           if N < lo then (ulow w (if sat then lo else N), fl ||| fOF ||| fNX)
           else if hi < N then (ulow w (if sat then hi else N), fl ||| fOF ||| fNX) else (ulow w N, fl)) := by
        rw [hN, hr]; rfl
      rw [← hN] at hp hex
      rw [hT]
      refine ⟨N, hp, ?_⟩
      have hfl : (if r.2 = true then fNX else 0) ||| fOF ||| fNX = 5 := by cases r.2 <;> rfl
      simp only [hfl, ulow_eq, Nat.cast_pow, Nat.cast_ofNat]
      refine ⟨fun h1 h2 => ?_, fun h1 => by rw [if_pos h1], fun h1 => ?_⟩
      · rw [if_neg (not_lt.mpr h1), if_neg (not_lt.mpr h2)]
        exact ⟨rfl, fun he => by simp [hex.mpr he], fun he => by simp [Bool.eq_true_of_not_eq_false (mt hex.mp he), fNX]⟩
      · have hlo : ¬ N < if sg = true then -2 ^ (w - 1) else 0 := by
          cases sg
          · simp only [Bool.false_eq_true, if_false] at h1 ⊢
            have : (0 : ℤ) < 2 ^ w := by positivity
            omega
          · simp only [if_true] at h1 ⊢
            have : (0 : ℤ) < 2 ^ (w - 1) := by positivity
            omega
        rw [if_neg hlo, if_pos h1]

/-! ### Element types -/

theorem tyNum_float {ty : ℕ} (h1 : 8 ≤ ty) (h2 : ty < 12) :
    tyNum ty = .flt (formatOf ty).1 (formatOf ty).2.1 (formatOf ty).2.2.1 (formatOf ty).2.2.2 ∧
      GoodFmt (formatOf ty).1 (formatOf ty).2.1 ∧ (formatOf ty).1 + (formatOf ty).2.1 + 1 = tyWidth ty := by
  obtain rfl | rfl | rfl | rfl : ty = 8 ∨ ty = 9 ∨ ty = 10 ∨ ty = 11 := by omega
  all_goals exact ⟨rfl, ⟨by decide, by decide, by decide⟩, rfl⟩

theorem ideal_operandValue_float {ty : ℕ} (h1 : 8 ≤ ty) (h2 : ty < 12) (n a : Bool) (c : ℕ) :
    ideal (operandValue ty n a c) = idModify n a (idealOf (formatOf ty) c) := by
  obtain ⟨ht, hF, -⟩ := tyNum_float h1 h2
  rw [operandValue, tyInt, if_neg (by simpa using h1), ideal_exModify, ht, ideal_valueOf_flt _ _ _ _ _ hF.2.1]

theorem hasRest_operandValue (ty : ℕ) (n a : Bool) (c : ℕ) : hasRest (operandValue ty n a c) = false := by
  unfold operandValue
  split
  · exact hasRest_valueOf _ _
  · rw [hasRest_exModify, hasRest_valueOf]

theorem sint_eq {w : ℕ} (hw : 1 ≤ w) (v : ℕ) : sint w v = (BitVec.ofNat w v).toInt := by
  have h : 2 ^ w = 2 * 2 ^ (w - 1) := by rw [← pow_succ', Nat.sub_add_cancel hw]
  rw [sint, BitVec.toInt_eq_toNat_cond, BitVec.toNat_ofNat]
  generalize v % 2 ^ w = u
  split <;> split <;> omega

theorem sclOf_eq (f : X96) : sclOf f = f.scl.toInt := by
  rw [sclOf, sint_eq (by norm_num), BitVec.ofNat_toNat, BitVec.setWidth_eq]

/-- Into a floating-point element type. -/
theorem finishes_convertTo {ty mode draw : ℕ} {sat keep : Bool} {v : Exact} {i : Ideal} (h1 : 8 ≤ ty) (h2 : ty < 12) (h : Stands v i) :
    Finishes (formatOf ty) mode draw sat keep i (convertTo (tyNum ty) mode draw sat keep v) := by
  obtain ⟨ht, hF, -⟩ := tyNum_float h1 h2
  rw [ht]
  exact finishes_toFlt hF h

/-! ### Floating-point lanes of VARITH -/

/-- A lane whose operation stands for an ideal result: that result scaled, clamped and rounded once, with both kinds of conditions. -/
theorem fpLane_finishes {fn ty mode draw clp : ℕ} {scl : ℤ} {sat : Bool} {a b c : Exact} {i : Ideal} {fl : ℕ} (h1 : 8 ≤ ty) (h2 : ty < 12)
    (h : Stands (fpOp fn (decide (ty = 10)) (decide (mode = 2)) a b c).1 i)
    (hfl : (fpOp fn (decide (ty = 10)) (decide (mode = 2)) a b c).2 = fl) :
    ∃ g, Finishes (formatOf ty) mode draw sat true (idClamp clp (idScale scl i)) ((fpLane fn ty scl clp mode draw sat a b c).1, g) ∧
      (fpLane fn ty scl clp mode draw sat a b c).2 = fl ||| g :=
  ⟨_, finishes_convertTo h1 h2 ((h.scale scl).clamp clp), by rw [← hfl]; rfl⟩

/-- A lane of a floating-point VARITH function that rounds is `fpLane` of the modified operands. -/
theorem varithLane_float {fn : ℕ} (s : State) (t : Strand) (f : X96) (mode k a b c : ℕ) (hfn : varithPlain fn = false)
    (hty : 8 ≤ f.ty.toNat) :
    varithLane s t fn f mode k a b c = fpLane fn f.ty.toNat f.scl.toInt f.clp.toNat mode (laneDraw s t f mode k) f.sat
      (operandValue f.ty.toNat f.n1 f.a1 a) (operandValue f.ty.toNat f.n2 f.a2 b) (operandValue f.ty.toNat f.n3 f.a3 c) := by
  simp only [varithLane, hfn, Bool.false_eq_true, if_false, tyInt, decide_eq_true_eq, if_neg (not_lt.mpr hty), sclOf_eq]

/-- The square root of a positive value, its rest included. -/
theorem exSqrt_magIs {mag : ℕ} {exp : ℤ} (st : Bool) (hm : mag ≠ 0) :
    ∃ R h S, exSqrt (.fin false mag exp st) = (.fin false R h S, 0) ∧ MagIs R h S (Real.sqrt (mag * 2 ^ exp)) := by
  obtain ⟨j, hj, h, hexp, hsq⟩ : ∃ j : ℕ, 200 - log2 mag ≤ j ∧ ∃ h : ℤ, exp - j = 2 * h ∧ exSqrt (.fin false mag exp st) =
      (.fin false (isqrt (mag <<< j)) h (decide (isqrt (mag <<< j) * isqrt (mag <<< j) ≠ mag <<< j)), 0) := by
    by_cases hpar : (exp - (200 - log2 mag : ℕ)) % 2 = 0
    · exact ⟨200 - log2 mag, le_rfl, (exp - (200 - log2 mag : ℕ)) / 2, by omega, by simp [exSqrt, hm, hpar]⟩
    · refine ⟨200 - log2 mag + 1, by omega, (exp - (200 - log2 mag + 1 : ℕ)) / 2, by omega, ?_⟩
      simp only [exSqrt, hm, if_false, hpar, Bool.false_eq_true]
  have hbig : 2 ^ 180 ≤ mag <<< j := by
    rw [Nat.shiftLeft_eq]
    calc 2 ^ 180 ≤ 2 ^ (log2 mag + j) := Nat.pow_le_pow_right (by norm_num) (by omega)
      _ = 2 ^ log2 mag * 2 ^ j := pow_add 2 _ _
      _ ≤ mag * 2 ^ j := Nat.mul_le_mul_right _ (Nat.log2_self_le hm)
  have hval : ((mag <<< j : ℕ) : ℝ) * 2 ^ (2 * h) = mag * 2 ^ exp := by
    rw [← hexp, Nat.shiftLeft_eq, zpow_sub₀ two_ne_zero, zpow_natCast]; push_cast; field_simp
  exact ⟨_, _, _, hsq, hval ▸ magIs_sqrt h hbig⟩

/-- A positive square root, scaled and clamped, rounds as the real number does (R45, R151). -/
theorem fpLane_sqrt {ty mode draw clp mag : ℕ} {exp scl : ℤ} {sat st : Bool} {b c : Exact} (h1 : 8 ≤ ty) (h2 : ty < 12)
    (hm : mag ≠ 0) :
    let x := Real.sqrt (mag * 2 ^ exp) * 2 ^ scl
    RoundsTo (formatOf ty) mode draw sat (if 2 ≤ clp then min x 1 else x) false
      (fpLane 7 ty scl clp mode draw sat (.fin false mag exp st) b c) := by
  intro x
  obtain ⟨ht, hF, -⟩ := tyNum_float h1 h2
  obtain ⟨R, h, S, hsq, hroot⟩ := exSqrt_magIs (exp := exp) st hm
  have hx : MagIs R (h + scl) S x := hroot.scale scl
  have hlane : fpLane 7 ty scl clp mode draw sat (.fin false mag exp st) b c =
      convertTo (tyNum ty) mode draw sat true (exClamp clp (.fin false R (h + scl) S)) := by
    simp [fpLane, fpOp, hsq, exScale]
  rw [hlane, ht]
  by_cases hc : 2 ≤ clp ∧ 1 < x
  · have hone : exClamp clp (.fin false R (h + scl) S) = exOne := by
      obtain ⟨r, rfl⟩ : ∃ r, clp = r + 2 := ⟨clp - 2, by omega⟩
      cases r <;> simp [exClamp, hx.above_one.mpr hc.2]
    rw [if_pos hc.1, min_eq_right hc.2.le, hone]
    exact roundFlt_roundsTo (neg := false) hF (a := 1) (by simpa using magIs_exact 1 0)
  · have hsame : exClamp clp (.fin false R (h + scl) S) = .fin false R (h + scl) S := by
      match clp with
      | 0 => rfl
      | 1 => rfl
      | 2 => simp only [exClamp, Bool.false_and, Bool.false_eq_true, if_false, hx.above_one, if_neg (fun h => hc ⟨le_rfl, h⟩)]
      | r + 3 => simp only [exClamp, hx.above_one, if_neg (fun h => hc ⟨by omega, h⟩)]
    have hmin : (if 2 ≤ clp then min x 1 else x) = x := by
      split
      · exact min_eq_left (not_lt.mp (fun h => hc ⟨‹_›, h⟩))
      · rfl
    rw [hmin, hsame]
    exact roundFlt_roundsTo (neg := false) hF hx

theorem floatLanes_hold : floatLanes := by
  intro s t f mode k a b c ty F x y z rdn scl r draw gives h1 h2 hmode ha hb hc
  have hx : ideal (operandValue ty f.n1 f.a1 a) = x := ideal_operandValue_float h1 h2 _ _ _
  have hy : ideal (operandValue ty f.n2 f.a2 b) = y := ideal_operandValue_float h1 h2 _ _ _
  have hz : ideal (operandValue ty f.n3 f.a3 c) = z := ideal_operandValue_float h1 h2 _ _ _
  have rx := hasRest_operandValue ty f.n1 f.a1 a
  have ry := hasRest_operandValue ty f.n2 f.a2 b
  have hlane (fn : ℕ) (hfn : varithPlain fn = false) := varithLane_float s t f mode k a b c hfn h1
  have hgives (fn : ℕ) (hfn : varithPlain fn = false) (i : Ideal) (fl : ℕ)
      (h : Stands (fpOp fn (decide (ty = 10)) rdn (operandValue ty f.n1 f.a1 a) (operandValue ty f.n2 f.a2 b)
        (operandValue ty f.n3 f.a3 c)).1 i ∧
        (fpOp fn (decide (ty = 10)) rdn (operandValue ty f.n1 f.a1 a) (operandValue ty f.n2 f.a2 b)
          (operandValue ty f.n3 f.a3 c)).2 = fl) : gives fn (i, fl) := by
    simp only [gives, r, hlane fn hfn]
    exact fpLane_finishes h1 h2 h.1 h.2
  have hexact {v : Exact} {i : Ideal} {p q : ℕ} (hr : hasRest v = false) (h : ideal v = i ∧ p = q) : Stands v i ∧ p = q :=
    ⟨h.1 ▸ stands_ideal hr, h.2⟩
  refine ⟨hgives 0 rfl _ _ (hexact (hasRest_exAdd _ _ _) ?_), hgives 1 rfl _ _ (hexact (hasRest_exAdd _ _ _) ?_),
    hgives 2 rfl _ _ (hexact (hasRest_exMul _ _) ?_), hgives 3 rfl _ _ (hexact (hasRest_exFma _ _ _ _) ?_),
    hgives 4 rfl _ _ (hexact (hasRest_exMin rx ry) ?_), hgives 5 rfl _ _ (hexact (hasRest_exMax rx ry) ?_), hgives 6 rfl _ _ ?_, ?_⟩
  · rw [← hx, ← hy]; exact ideal_exAdd _ _ _
  · rw [← hx, ← hy, ← ideal_exModify]; exact ideal_exAdd _ _ _
  · rw [← hx, ← hy]; exact ideal_exMul _ _
  · rw [← hx, ← hy, ← hz]; exact ideal_exFma _ _ _ _
  · rw [← hx, ← hy]; exact ⟨ideal_exMin _ _, rfl⟩
  · rw [← hx, ← hy]; exact ⟨ideal_exMax _ _, rfl⟩
  · rw [← hx, ← hy]; exact stands_exDiv _ _
  · have hsq (i : Ideal) (fl : ℕ) (h : Stands (exSqrt (operandValue ty f.n1 f.a1 a)).1 i ∧ (exSqrt (operandValue ty f.n1 f.a1 a)).2 = fl) :
        gives 7 (i, fl) := hgives 7 rfl i fl h
    have hpos := hlane 7 rfl
    obtain ⟨v, hv⟩ : ∃ v, v = operandValue ty f.n1 f.a1 a := ⟨_, rfl⟩
    rw [← hv] at hx rx hsq
    rw [← hx]
    replace hpos : r 7 = _ := hv ▸ hpos
    cases v with
    | nan => exact hsq _ _ ⟨trivial, rfl⟩
    | inf neg =>
      cases neg
      · exact hsq _ _ ⟨rfl, rfl⟩
      · exact hsq _ _ ⟨trivial, rfl⟩
    | fin neg mag exp st =>
      obtain rfl : st = false := rx
      have hq0 : withSign neg ((mag : ℚ) * 2 ^ exp) = 0 ↔ mag = 0 := by
        rw [withSign_eq_zero, mul_eq_zero_iff_right (zpow_ne_zero _ two_ne_zero), Nat.cast_eq_zero]
      have hnn : (0 : ℚ) ≤ mag * 2 ^ exp := by positivity
      refine ⟨fun h => hsq _ _ ?_, fun h => hsq _ _ ?_, fun h => ?_⟩
      · rw [hq0] at h
        simp only [exSqrt, h, if_true]
        exact ⟨stands_zero _ _, trivial⟩
      · obtain rfl : neg = true := by
          cases neg
          · exact absurd h (not_lt.mpr hnn)
          · rfl
        have hm : mag ≠ 0 := fun e => h.ne (hq0.mpr e)
        simp only [exSqrt, hm, if_false, if_true]
        exact ⟨trivial, rfl⟩
      · obtain rfl : neg = false := by
          cases neg
          · rfl
          · exact absurd h (not_lt.mpr (by simpa using hnn))
        have hm : mag ≠ 0 := fun e => h.ne' (hq0.mpr e)
        rw [hpos]
        simpa using fpLane_sqrt h1 h2 hm

/-! ### Comparisons -/

/-- The comparison of a code on ideal values, of which a NaN is unordered (R176). -/
def idCompare (cc : ℕ) (x y : Ideal) : Bool :=
  let un := decide (x = .nan ∨ y = .nan)
  match cc with
  | 0 => !un && (!idBelow false x y && !idBelow false y x)
  | 1 => un || !(!idBelow false x y && !idBelow false y x)
  | 2 => !un && idBelow false x y
  | 3 => !un && !idBelow false y x
  | 4 => !un && idBelow false y x
  | 5 => !un && !idBelow false x y
  | 6 => un
  | _ => !un

theorem ideal_eq_nan_iff (v : Exact) : ideal v = .nan ↔ v = .nan := by cases v <;> simp

/-- A comparison of two lanes is the one of what their patterns stand for. -/
theorem compareLane_eq {cc : ℕ} (ty : ℕ) (n1 a1 n2 a2 : Bool) (p q : ℕ) (h8 : cc ≠ 8) :
    compareLane cc ty n1 a1 n2 a2 p q = idCompare cc (ideal (operandValue ty n1 a1 p)) (ideal (operandValue ty n2 a2 q)) := by
  simp only [compareLane, if_neg h8, idCompare, ideal_eq_nan_iff, Bool.decide_or, exEq]
  generalize operandValue ty n1 a1 p = v
  generalize operandValue ty n2 a2 q = u
  by_cases hv : v = .nan
  · simp only [hv, decide_true, Bool.true_or, Bool.not_true, Bool.false_and] <;> rfl
  · by_cases hu : u = .nan
    · simp only [hu, decide_true, Bool.or_true, Bool.true_or, Bool.not_true, Bool.false_and] <;> rfl
    · simp only [exLt_eq hv hu, exLt_eq hu hv] <;> rfl

theorem floatComparisons_hold : floatComparisons := by
  intro ty p q n1 a1 n2 a2 h1 h2 w x y un c pattern hp hq
  have hc (cc : ℕ) (h8 : cc ≠ 8) : c cc = idCompare cc x y := by
    simp only [c, compareLane_eq _ _ _ _ _ _ _ h8, ideal_operandValue_float h1 h2, x, y]
  have hti : tyInt ty = false := by simp [tyInt, h1]
  refine ⟨?_, ?_, ?_, ?_, ?_, ?_, ?_, ?_, ?_⟩
  · rw [hc 0 (by decide)]; simp [idCompare, un]
  · rw [hc 1 (by decide), hc 0 (by decide)]; simp only [idCompare]
    cases decide (x = .nan ∨ y = .nan) <;> cases idBelow false x y <;> simp
  · rw [hc 2 (by decide)]; simp [idCompare, un]
  · rw [hc 3 (by decide)]; simp [idCompare, un]
  · rw [hc 4 (by decide)]; simp [idCompare, un]
  · rw [hc 5 (by decide)]; simp [idCompare, un]
  · rw [hc 6 (by decide)]; simp [idCompare, un]
  · rw [hc 7 (by decide)]; simp [idCompare, un]
  · simp only [c, compareLane, hti, pattern, if_true, Bool.false_eq_true, if_false, decide_eq_true_eq, w]

end Sys2Proof.Proofs
end

section
/-! PROOFS. Integer lanes (R16, R77, R151, R152, R153, R176) and the conversions of VCVT (R30 to R36, R155). -/

namespace Sys2Proof.Proofs

open Machine Oblig

/-! ### Integer patterns -/

theorem tyNum_int {ty : ℕ} (h : ty < 8) : tyNum ty = .int (decide (ty < 4)) (tyWidth ty) := by
  interval_cases ty <;> rfl

theorem tyWidth_pos (ty : ℕ) : 1 ≤ tyWidth ty := by
  unfold tyWidth
  split
  · rw [Nat.shiftLeft_eq]; exact Nat.one_le_iff_ne_zero.mpr (by positivity)
  · split <;> [norm_num; (split <;> norm_num)]

/-- The integer that a pattern of an element type stands for (R16). -/
def patternInt (sg : Bool) (w c : ℕ) : ℤ := if sg then (BitVec.ofNat w c).toInt else (BitVec.ofNat w c).toNat

theorem ideal_valueOf_int {w : ℕ} (sg : Bool) (hw : 1 ≤ w) (c : ℕ) :
    ideal (valueOf (.int sg w) c) = .real (patternInt sg w c) (decide (patternInt sg w c < 0)) := by
  cases sg
  · simp only [valueOf, patternInt, Bool.false_eq_true, if_false, ideal_fin, BitVec.toNat_ofNat]
    generalize c % 2 ^ w = u
    simp
  · simp [valueOf, patternInt, ideal_exInt, sint_eq hw]

theorem intValue_eq (ty c : ℕ) : intValue ty c = patternInt (decide (ty < 4)) (tyWidth ty) c := by
  unfold intValue patternInt
  simp only [decide_eq_true_eq, sint_eq (tyWidth_pos ty), BitVec.toNat_ofNat]

/-- A modified integer pattern is the two's complement of R77, which wraps. -/
theorem modInt_eq {w : ℕ} (sg n a : Bool) (hw : 1 ≤ w) (v : ℕ) :
    modInt sg n a w v =
      (let u := if (a && sg && (BitVec.ofNat w v).msb) = true then -BitVec.ofNat w v else BitVec.ofNat w v
       if n then -u else u).toNat := by
  have hmsb : decide (sint w v < 0) = (BitVec.ofNat w v).msb := by
    rw [sint_eq hw, BitVec.msb_eq_toInt]
  have hself : BitVec.ofInt w (sint w v) = BitVec.ofNat w v := by rw [sint_eq hw, BitVec.ofInt_toInt]
  have hnat : BitVec.ofInt w ((v % 2 ^ w : ℕ) : ℤ) = BitVec.ofNat w v := by
    rw [BitVec.ofInt_natCast]; apply BitVec.eq_of_toNat_eq; simp
  have hu : BitVec.ofInt w (if (a && sg && (BitVec.ofNat w v).msb) = true then -sint w v
        else if (a && !sg) = true then ((v % 2 ^ w : ℕ) : ℤ) else sint w v) =
      if (a && sg && (BitVec.ofNat w v).msb) = true then -BitVec.ofNat w v else BitVec.ofNat w v := by
    rw [apply_ite (BitVec.ofInt w), apply_ite (BitVec.ofInt w), BitVec.ofInt_neg, hself, hnat, ite_self]
  simp only [modInt, ulow_eq, hmsb]
  rw [apply_ite (BitVec.ofInt w), BitVec.ofInt_neg, hu]

theorem modPattern_none {ty v : ℕ} (hv : v < 2 ^ tyWidth ty) : modPattern ty false false v = v := by
  unfold modPattern
  split
  · rw [modInt_eq _ _ _ (tyWidth_pos ty)]
    simp [Nat.mod_eq_of_lt hv]
  · rfl

theorem ideal_operandValue_int {ty v : ℕ} (h : ty < 8) (hv : v < 2 ^ tyWidth ty) :
    ideal (operandValue ty false false v) =
      .real (patternInt (decide (ty < 4)) (tyWidth ty) v) (decide (patternInt (decide (ty < 4)) (tyWidth ty) v < 0)) := by
  rw [operandValue, tyInt, if_pos (by simpa using h), modPattern_none hv, tyNum_int h, ideal_valueOf_int _ (tyWidth_pos ty)]

/-! ### Comparisons and lanes -/

theorem integerComparisons_hold : integerComparisons := by
  intro ty x y hty w val c hx hy
  have hval (z : ℕ) : val z = patternInt (decide (ty < 4)) w z := by simp only [val, patternInt, decide_eq_true_eq]
  have hc (cc : ℕ) (h8 : cc ≠ 8) : c cc = idCompare cc (.real (val x) (decide (val x < 0))) (.real (val y) (decide (val y < 0))) := by
    simp only [c, compareLane_eq _ _ _ _ _ _ _ h8, ideal_operandValue_int hty hx, ideal_operandValue_int hty hy, hval, w]
  refine ⟨?_, ?_, ?_, ?_, ?_, ?_, ?_⟩
  · rw [hc 0 (by decide)]; simp only [idCompare, idBelow]; simp [le_antisymm_iff (a := val x), and_comm]
  · rw [hc 1 (by decide)]; simp [idCompare, idBelow]
  · rw [hc 2 (by decide)]; simp [idCompare, idBelow]
  · rw [hc 3 (by decide)]; simp [idCompare, idBelow]
  · rw [hc 4 (by decide)]; simp [idCompare, idBelow]
  · rw [hc 5 (by decide)]; simp [idCompare, idBelow]
  · have hti : tyInt ty = true := by simp [tyInt, hty]
    simp only [c, compareLane, hti, if_true, modPattern_none hx, modPattern_none hy, decide_eq_true_eq]

/-- A sum, difference or product modulo 2^w, or clamped with overflow under SAT (R152). -/
theorem intResult_eq (sg sat : Bool) (w : ℕ) (i : ℤ) :
    let lo : ℤ := if sg then -2 ^ (w - 1) else 0
    let hi : ℤ := if sg then 2 ^ (w - 1) - 1 else 2 ^ w - 1
    intResult sg w sat i = if sat = false ∨ lo ≤ i ∧ i ≤ hi then (ulow w i, 0) else (if i < lo then ulow w lo else ulow w hi, fOF) := by
  intro lo hi
  cases sat
  · simp [intResult]
  · simp only [intResult, clampInt, if_true, Nat.cast_pow, Nat.cast_ofNat, Bool.true_eq_false, false_or]
    change (if i < lo then (ulow w lo, fOF) else if hi < i then (ulow w hi, fOF) else (ulow w i, 0)) = _
    by_cases h1 : i < lo
    · rw [if_pos h1, if_neg (fun h => absurd h.1 (not_le.mpr h1)), if_pos h1]
    · by_cases h2 : hi < i
      · rw [if_neg h1, if_pos h2, if_neg (fun h => absurd h.2 (not_le.mpr h2)), if_neg h1]
      · rw [if_neg h1, if_neg h2, if_pos ⟨not_lt.mp h1, not_lt.mp h2⟩]

theorem divTable_eq {sg : Bool} {w a b : ℕ} (hw : 1 ≤ w) (ha : a < 2 ^ w) (hb : b < 2 ^ w) :
    divTable sg w a b = if b = 0 then 2 ^ w - 1 else ulow w ((patternInt sg w a).tdiv (patternInt sg w b)) := by
  rw [divTable, Nat.mod_eq_of_lt hb]
  split
  · rfl
  · cases sg
    · have hlt : a / b < 2 ^ w := lt_of_le_of_lt (Nat.div_le_self a b) ha
      simp only [Bool.false_eq_true, if_false, patternInt, BitVec.toNat_ofNat, Nat.mod_eq_of_lt ha, Nat.mod_eq_of_lt hb]
      rw [Int.tdiv_eq_ediv_of_nonneg (by omega), ulow, ← Int.natCast_ediv, ← Int.natCast_emod, Int.toNat_natCast, Nat.mod_eq_of_lt hlt]
    · simp only [if_true, patternInt, sint_eq hw]

theorem integerLanes_hold : integerLanes := by
  intro s t f mode k a b c ty w val low lo hi r hty hno ha hb hc
  have hti : tyInt ty = true := by simp [tyInt, hty]
  have hw : 1 ≤ w := tyWidth_pos ty
  have hval (z : ℕ) : val z = intValue ty z := by
    rw [intValue_eq]; simp only [val, patternInt, decide_eq_true_eq, w]
  have hlow (i : ℤ) : low i = ulow w i := (ulow_eq w i).symm
  obtain ⟨⟨hn1, ha1⟩, ⟨hn2, ha2⟩, hn3, ha3⟩ : (f.n1 = false ∧ f.a1 = false) ∧ (f.n2 = false ∧ f.a2 = false) ∧ f.n3 = false ∧ f.a3 = false := by
    simp only [noMods, noMod1, noMod2, noMod3, Bool.and_eq_true, Bool.not_eq_true'] at hno
    obtain ⟨⟨h1, h2⟩, h3⟩ := hno
    exact ⟨h1, h2, h3⟩
  have hround (fn : ℕ) (hfn : varithPlain fn = false) : r fn = intLane fn ty f.sat a b c := by
    simp only [r, varithLane, hfn, Bool.false_eq_true, if_false, show tyInt f.ty.toNat = true from hti, if_true, hn1, ha1, hn2, ha2,
      hn3, ha3]
    rw [modPattern_none ha, modPattern_none hb, modPattern_none hc]
  have hplain (fn : ℕ) (hfn : varithPlain fn = true) : r fn = (plainLane fn ty ((gx t f.rs.toNat).getLsbD k) a b, 0) := by
    simp only [r, varithLane, hfn, if_true]; rfl
  have hres (i : ℤ) : intResult (decide (ty < 4)) w f.sat i =
      if f.sat = false ∨ lo ≤ i ∧ i ≤ hi then (low i, 0) else (if i < lo then low lo else low hi, fOF) := by
    simpa only [hlow, decide_eq_true_eq] using intResult_eq (decide (ty < 4)) f.sat w i
  have hp : ((2 ^ w : ℕ) : ℤ) = 2 ^ w := by push_cast; rfl
  refine ⟨?_, ?_, ?_, ?_, ?_, ?_, ?_, ?_, ?_, ?_, ?_⟩
  · intro e he
    simp only [List.mem_cons, List.not_mem_nil, or_false] at he
    rcases he with rfl | rfl | rfl | rfl
    all_goals rw [hround _ rfl, hval, hval]
    · exact hres _
    · exact hres _
    · exact hres _
    · rw [hval]; exact hres _
  · rw [hround 4 rfl, hval, hval, hlow]; rfl
  · rw [hround 5 rfl, hval, hval, hlow]; rfl
  · rw [hround 6 rfl, hval, hval, hlow, intValue_eq, intValue_eq]
    simp only [intLane, divTable_eq hw ha hb, w]
    split <;> rfl
  · rw [hround 18 rfl, hval, hval, hlow, Int.fdiv_eq_ediv_of_nonneg _ (by positivity), ← hp]; rfl
  · rw [hplain 13 rfl]; rfl
  · rw [hplain 14 rfl]; rfl
  · rw [hplain 15 rfl]; rfl
  · rw [hplain 16 rfl, hlow, ulow]
    simp only [plainLane, Nat.shiftLeft_eq, w]
    norm_cast
  · rw [hplain 17 rfl, hlow, hval, Int.fdiv_eq_ediv_of_nonneg _ (by positivity)]
    simp only [plainLane, w]
    push_cast; rfl
  · rw [hplain 19 rfl]; rfl

end Sys2Proof.Proofs
end

section
/-! PROOFS. The lanes of VCVT (R30 to R36, R38, R155). -/

namespace Sys2Proof.Proofs

open Machine Oblig

/-- What the number types of VCVT have in common. -/
def goodTy : NumTy → Bool
  | .flt e m _ _ => decide (2 ≤ e) && decide (1 ≤ m) && decide (m ≤ 52)
  | .int _ w => decide (1 ≤ w)
  | .e8m0 => true
  | .mxint8 => false

/-- A number type with infinities. -/
def hasInf : NumTy → Bool
  | .flt _ _ _ top => decide (top = .ieee)
  | _ => false

/-- The number types of VCVT (R82). -/
def vcvtNums : List NumTy := (List.range 12).map tyNum ++ (List.range 6).map (fun k => narrowNum (k + 1))

/-- The conversions of R30 that keep an infinity one. -/
def keepsInf (src dst : NumTy) : Bool :=
  dst = src || (src = e5m2 && [fp16, bf16, fp32, fp64].contains dst) || ([fp16, bf16].contains src && [fp32, fp64].contains dst) ||
    (src = fp32 && dst = fp64)

theorem goodTy_of_mem : ∀ d ∈ vcvtNums, goodTy d = true := by decide

theorem widens_eq_keepsInf :
    ∀ src ∈ vcvtNums, ∀ dst ∈ vcvtNums, hasInf src = true → hasInf dst = true → widens src dst = keepsInf src dst := by decide

/-! ### Sources -/

theorem ideal_vcvtSource (f : X96) {src : NumTy} (code : ℕ) (h : goodTy src = true) :
    ideal (vcvtSource f src code) = sourceOf f src code := by
  cases src with
  | int sg w =>
    have hw : 1 ≤ w := by simpa [goodTy] using h
    simp only [vcvtSource, sourceOf]
    rw [ideal_valueOf_int sg hw, modInt_eq sg f.n1 f.a1 hw, Bool.and_right_comm]
    simp only [patternInt, BitVec.ofNat_toNat, BitVec.setWidth_eq]
  | flt e m b top =>
    have hm : 1 ≤ m := by simp only [goodTy, Bool.and_eq_true, decide_eq_true_eq] at h; exact h.1.2
    simp only [vcvtSource, sourceOf]
    rw [ideal_exModify, ideal_valueOf_flt e m b code top hm]
  | e8m0 =>
    simp only [vcvtSource, sourceOf]
    rw [ideal_exModify]
    congr 1
    simp only [valueOf]
    split <;> simp
  | mxint8 => exact absurd h (by decide)

theorem hasRest_vcvtSource (f : X96) (src : NumTy) (code : ℕ) : hasRest (vcvtSource f src code) = false := by
  cases src <;> simp only [vcvtSource, hasRest_exModify, hasRest_valueOf]

theorem hasRest_exScale (v : Exact) (k : ℤ) : hasRest (exScale v k) = hasRest v := by cases v <;> rfl

theorem hasRest_exZero : hasRest exZero = false := rfl

theorem hasRest_exOne : hasRest exOne = false := rfl

theorem hasRest_exNegOne : hasRest exNegOne = false := rfl

theorem hasRest_exClamp {v : Exact} (clp : ℕ) (h : hasRest v = false) : hasRest (exClamp clp v) = false := by
  unfold exClamp
  (repeat' split) <;> simp only [h, hasRest_exZero, hasRest_exOne, hasRest_exNegOne]

/-- An infinity in a VCVT lane comes from a source that has infinities. -/
theorem sourceOf_inf {f : X96} {src : NumTy} {code clp : ℕ} {k : ℤ} {s : Bool}
    (h : idClamp clp (idScale k (sourceOf f src code)) = .inf s) : hasInf src = true := by
  have hclamp {i : Ideal} (h : idClamp clp (idScale k i) = .inf s) : ∃ t, i = .inf t := by
    cases i with
    | nan => simp [idScale, idClamp] at h
    | inf t => exact ⟨t, rfl⟩
    | real x t => simp only [idScale, idClamp] at h; (repeat' split at h) <;> simp at h
  have hmod {n a : Bool} {i : Ideal} {t : Bool} (h : idModify n a i = .inf t) : ∃ t, i = .inf t := by
    cases i <;> simp [idModify] at h ⊢
  obtain ⟨t, ht⟩ := hclamp h
  cases src with
  | int => simp [sourceOf] at ht
  | mxint8 => simp [sourceOf] at ht
  | e8m0 =>
    obtain ⟨t', ht'⟩ := hmod ht
    split at ht' <;> simp at ht'
  | flt e m b top =>
    obtain ⟨t', ht'⟩ := hmod ht
    unfold idealOf at ht'
    simp only at ht'
    split at ht'
    · rename_i hc; simpa [hasInf] using hc.1
    · split at ht' <;> simp at ht'

/-! ### Targets -/

/-- Whether an infinity is kept matters to infinities alone, and to targets that have them. -/
theorem Finishes.congr_keep {F : Fmt} {mode draw : ℕ} {sat keep keep' : Bool} {v : Ideal} {r : ℕ × ℕ}
    (h : ∀ s, v = .inf s → F.2.2.2 = .ieee → keep = keep') (hf : Finishes F mode draw sat keep v r) :
    Finishes F mode draw sat keep' v r := by
  cases v with
  | nan => exact hf
  | real => exact hf
  | inf s =>
    simp only [Finishes] at hf ⊢
    by_cases ht : F.2.2.2 = .ieee
    · rw [← h s rfl ht]; exact hf
    · simp only [ht, and_false, if_false] at hf ⊢; exact hf

/-- The E8M0 code of a value: its binary logarithm, rounded with the fraction of the magnitude (R34). -/
theorem toE8m0_fin {mode draw mag : ℕ} {exp : ℤ} {sat neg : Bool} (x : ℚ) (hx : |x| = mag * 2 ^ exp) :
    (|x| < 2 ^ (-127 : ℤ) → (toE8m0 mode draw sat (.fin neg mag exp false)).1 = 0) ∧
    (2 ^ (-127 : ℤ) ≤ |x| → ∃ N : ℤ,
      Picks mode draw ((Int.log 2 |x| + 127 + (|x| / 2 ^ Int.log 2 |x| - 1) : ℚ) : ℝ) 1 N ∧
      (toE8m0 mode draw sat (.fin neg mag exp false)).1 = if 254 < N then (if sat then 254 else 255) else N.toNat) := by
  by_cases hm : mag = 0
  · subst hm
    have h0 : |x| = 0 := by rw [hx]; simp
    refine ⟨fun _ => by simp [toE8m0], fun h => absurd h ?_⟩
    rw [h0, not_le]; positivity
  obtain ⟨hb1, hb2⟩ := (magIs_exact mag exp).bounds hm
  obtain ⟨k, hk⟩ : ∃ k, k = magLog mag exp := ⟨_, rfl⟩
  rw [← hk] at hb1 hb2
  have hxk : (2 : ℚ) ^ k ≤ |x| ∧ |x| < 2 ^ (k + 1) := by
    rw [hx]; constructor
    · rw [← Rat.cast_le (K := ℝ)]; push_cast; exact hb1
    · rw [← Rat.cast_lt (K := ℝ)]; push_cast; exact hb2
  have hlog : Int.log 2 |x| = k := int_log_eq hxk
  rw [hlog]
  refine ⟨fun h => ?_, fun h => ?_⟩
  · have : k < -127 := (zpow_lt_zpow_iff_right₀ (one_lt_two (α := ℚ))).mp (lt_of_le_of_lt hxk.1 h)
    simp [toE8m0, hm, ← hk, this]
  · have hk127 : ¬ k < -127 := by
      have : (-127 : ℤ) < k + 1 := (zpow_lt_zpow_iff_right₀ (one_lt_two (α := ℚ))).mp (lt_of_le_of_lt h hxk.2)
      omega
    obtain ⟨c, hc⟩ : ∃ c : ℕ, k + 127 = c := ⟨(k + 127).toNat, by omega⟩
    obtain ⟨s, hs⟩ : ∃ s, s = log2 mag := ⟨_, rfl⟩
    obtain ⟨n, hn⟩ : ∃ n, n = if mag % 2 ^ s = 0 ∧ (false = false) then c
      else if roundsUp mode draw false (decide (c % 2 = 1)) (mag % 2 ^ s) s false then c + 1 else c := ⟨_, rfl⟩
    have hlo : 2 ^ s ≤ mag := hs ▸ Nat.log2_self_le hm
    have hhi : mag < 2 ^ s * 2 := by rw [← pow_succ, hs]; exact Nat.lt_log2_self
    have hrem : mag = 2 ^ s + mag % 2 ^ s := by
      have h1 : mag / 2 ^ s = 1 := by
        rw [Nat.div_eq_iff (by positivity)]; constructor <;> omega
      conv_lhs => rw [← Nat.div_add_mod mag (2 ^ s), h1, Nat.mul_one]
    have hfrac : ((k + 127 + (|x| / 2 ^ k - 1) : ℚ) : ℝ) / 1 = (c : ℝ) + ((mag % 2 ^ s : ℕ) + 0) / 2 ^ s := by
      have hp : (2 : ℝ) ^ s ≠ 0 := by positivity
      have hcast : (k : ℝ) + 127 = c := by exact_mod_cast hc
      have hmagr : (mag : ℝ) = 2 ^ s + (mag % 2 ^ s : ℕ) := by exact_mod_cast hrem
      have hdiv : (((|x| / 2 ^ k : ℚ)) : ℝ) = mag / 2 ^ s := by
        rw [hx, hk, magLog, ← hs, zpow_add₀ two_ne_zero, zpow_natCast]; push_cast; field_simp
      push_cast at hdiv ⊢
      rw [hdiv, hcast, hmagr]
      field_simp
      ring
    obtain ⟨hp, -, -⟩ := rounded_picks (mode := mode) (draw := draw) (neg := false) one_pos le_rfl one_pos (by simp) (by simp)
      (Nat.mod_lt _ (by positivity)) hfrac hn
    refine ⟨n, hp, ?_⟩
    have htoNat : (k + 127).toNat = c := by omega
    have hnc : (if (!(decide (mag % 2 ^ s = 0) && !false) && roundsUp mode draw false (decide (c % 2 = 1)) (mag % 2 ^ s) s false) = true
        then c + 1 else c) = n := by
      rw [hn]
      by_cases h0 : mag % 2 ^ s = 0 <;> simp [h0]
    simp only [toE8m0, if_neg hm, ← hk, if_neg hk127, htoNat, ← hs, hnc]
    by_cases h254 : 254 < n
    · have hz : (254 : ℤ) < n := by exact_mod_cast h254
      simp only [h254, hz, if_true]
    · have hz : ¬ (254 : ℤ) < n := by exact_mod_cast h254
      simp only [h254, hz, if_false, Int.toNat_natCast]

theorem convertedLanes_hold : convertedLanes := by
  intro f dst src mode draw code types v wide widening r hdst hsrc hmode hcode
  have hgood := goodTy_of_mem dst hdst
  have hrest : hasRest (exScale (vcvtSource f src code) (sclOf f)) = false := by rw [hasRest_exScale, hasRest_vcvtSource]
  have hv : Stands (exClamp f.clp.toNat (exScale (vcvtSource f src code) (sclOf f))) v := by
    have := stands_ideal (hasRest_vcvtSource f src code)
    rw [ideal_vcvtSource f code (goodTy_of_mem src hsrc)] at this
    rw [sclOf_eq]
    exact (this.scale _).clamp _
  have hr : r = convertTo dst mode draw f.sat (widens src dst && decide (f.scl = 0))
      (exClamp f.clp.toNat (exScale (vcvtSource f src code) (sclOf f))) := rfl
  have hrest' := hasRest_exClamp f.clp.toNat hrest
  cases dst with
  | flt e m b top =>
    have hF : GoodFmt e m := by
      simp only [goodTy, Bool.and_eq_true, decide_eq_true_eq] at hgood
      exact ⟨hgood.1.1, hgood.1.2, hgood.2⟩
    refine Finishes.congr_keep (fun s hs htop => ?_) (finishes_toFlt hF hv)
    have := widens_eq_keepsInf src hsrc _ hdst (sourceOf_inf hs) (by simpa [hasInf] using htop)
    rw [this]; rfl
  | int sg w => exact finishesInt_toInt hrest' hv
  | mxint8 => trivial
  | e8m0 =>
    simp only
    rw [hr]
    revert hv hrest'
    generalize exClamp f.clp.toNat (exScale (vcvtSource f src code) (sclOf f)) = u
    intro hv hrest'
    cases u with
    | nan => rw [hv.of_nan]; rfl
    | inf s =>
      rw [hv.of_inf]
      cases hsat : f.sat <;> simp [convertTo, toE8m0]
    | fin neg mag exp st =>
      obtain rfl : st = false := hrest'
      obtain ⟨x, hi, a, ⟨θ, -, -, hθ, -, ha⟩, hx⟩ := hv.of_fin
      rw [hi]
      simp only [convertTo]
      refine toE8m0_fin _ ?_
      rw [hθ.mp rfl, add_zero] at ha
      have hnn : 0 ≤ a := by rw [ha]; positivity
      rw [← Rat.cast_inj (α := ℝ), Rat.cast_abs, hx, abs_withSign _ hnn, ha]
      push_cast; rfl

end Sys2Proof.Proofs
end

section
/-! PROOFS. The special functions where their results are exact (R55, R58 to R62). -/

namespace Sys2Proof.Proofs

open Machine Oblig

/-! ### Powers of two -/

theorem log2_two_pow (b : ℕ) : log2 (2 ^ b) = b := Nat.log2_two_pow

/-- A magnitude that is a power of two has a significand that is one. -/
theorem mag_of_two_pow {mag : ℕ} {exp n : ℤ} (h : (mag : ℚ) * 2 ^ exp = 2 ^ n) : ∃ b : ℕ, mag = 2 ^ b ∧ n = b + exp := by
  have hm : mag ≠ 0 := by
    rintro rfl
    have : (0 : ℚ) < 2 ^ n := by positivity
    simp at h; linarith
  have hr : (mag : ℝ) * 2 ^ exp = 2 ^ n := by
    have := congrArg (Rat.cast (K := ℝ)) h
    push_cast at this; exact this
  have hk : Int.log 2 ((mag : ℝ) * 2 ^ exp) = magLog mag exp := int_log_eq ((magIs_exact mag exp).bounds hm)
  have hn : n = log2 mag + exp := by
    rw [hr, int_log_eq ⟨le_rfl, zpow_lt_zpow_right₀ one_lt_two (by omega)⟩] at hk
    exact hk
  refine ⟨log2 mag, ?_, hn⟩
  rw [hn, zpow_add₀ two_ne_zero, zpow_natCast] at h
  have := mul_right_cancel₀ (zpow_ne_zero exp two_ne_zero) h
  exact_mod_cast this

theorem magLog_two_pow (b : ℕ) (exp : ℤ) : magLog (2 ^ b) exp = b + exp := by rw [magLog, log2_two_pow]

/-- The first bits of a significand that is a power of two. -/
theorem floorAt_two_pow (b k : ℕ) : floorAt (2 ^ b) (-b) k = 2 ^ k := by
  unfold floorAt
  split
  · rename_i h
    rw [Nat.shiftLeft_eq, ← pow_add]; congr 1; omega
  · rename_i h
    rw [Nat.shiftRight_eq_div_pow, Nat.pow_div (by omega) (by norm_num)]; congr 1; omega

theorem le_floorAt {N mag : ℕ} {exp : ℤ} (h : (N : ℚ) ≤ mag * 2 ^ exp) : N ≤ floorAt mag exp 0 := by
  unfold floorAt
  rw [add_zero]
  split
  · rename_i he
    obtain ⟨j, rfl⟩ := Int.eq_ofNat_of_zero_le he
    rw [zpow_natCast] at h
    rw [Nat.shiftLeft_eq, Int.toNat_natCast]
    exact_mod_cast h
  · rename_i he
    obtain ⟨j, rfl⟩ : ∃ j : ℕ, exp = -j := ⟨(-exp).toNat, by omega⟩
    rw [zpow_neg, zpow_natCast, ← div_eq_mul_inv, le_div_iff₀ (by positivity)] at h
    rw [Nat.shiftRight_eq_div_pow, Nat.le_div_iff_mul_le (by positivity)]
    simp only [neg_neg, Int.toNat_natCast]
    exact_mod_cast h

theorem isqrt_mul_self (r : ℕ) : isqrt (r * r) = r := by rw [isqrt_eq_sqrt, Nat.sqrt_eq]

/-! ### The f32 algorithms on powers of two -/

/-- The FP32 values one and plus zero, as the model's steps give them. -/
def f32One : Exact := .fin false (2 ^ 23) (-23) false
def f32Zero : Exact := .fin false 0 (-149) false

/-- What a table entry times one plus itself gives: one. -/
def exUnit : Exact := .fin false (2 ^ 172) (-172) false

theorem tableE_zero : tableE 0 = f32One := by decide +kernel
theorem tableQ_zero : tableQ 0 = f32One := by decide +kernel
theorem tableS_zero : tableS 0 = f32One := by decide +kernel

theorem ideal_exUnit (neg : Bool) (k : ℤ) : ideal (exModify neg false (exScale exUnit k)) = .real (withSign neg (2 ^ k)) neg := by
  simp only [exUnit, exScale, exModify, ideal_fin, Bool.false_and, Bool.false_bne, Nat.cast_pow, Nat.cast_ofNat]
  rw [← zpow_natCast, ← zpow_add₀ two_ne_zero]
  congr 3; push_cast; ring

/-- Two values that cancel leave plus zero. -/
theorem exAdd_cancel {na nb sa sb : Bool} {ma mb : ℕ} {ea eb : ℤ}
    (h : withSign na ((ma : ℚ) * 2 ^ ea) + withSign nb ((mb : ℚ) * 2 ^ eb) = 0) (hs : na = true → nb = false) :
    exAdd false (.fin na ma ea sa) (.fin nb mb eb sb) = (.fin false 0 0 false, 0) := by
  simp only [exAdd]
  split
  · cases na
    · cases nb <;> rfl
    · rw [hs rfl]; rfl
  · have hp : (2 : ℚ) ^ min ea eb ≠ 0 := zpow_ne_zero _ two_ne_zero
    rw [← alignTo_eq na ma (min_le_left ea eb), ← alignTo_eq nb mb (min_le_right ea eb), ← add_mul, mul_eq_zero_iff_right hp] at h
    rw [if_pos (by exact_mod_cast h)]

theorem f32Fma_eq (a b c : Exact) : f32Fma a b c = f32Round (exAdd false (exMul a b).1 c).1 := rfl

/-- The first residue of the algorithms, one minus the significand times the table entry, is zero on a power of two. -/
theorem residue_two_pow (b : ℕ) : f32Fma (exNegate (.fin false (2 ^ b) (-b) false)) f32One exOne = f32Zero := by
  have hprod : (exMul (exNegate (.fin false (2 ^ b) (-b) false)) f32One).1 = .fin true (2 ^ b * 2 ^ 23) (-b + -23) false := by
    simp only [exNegate, exModify, f32One, exMul, Bool.false_and, Bool.false_bne, Bool.bne_false]
  have hcancel : exAdd false (.fin true (2 ^ b * 2 ^ 23) (-b + -23) false) exOne = (.fin false 0 0 false, 0) := by
    refine exAdd_cancel ?_ (fun _ => rfl)
    rw [zpow_add₀ two_ne_zero, zpow_neg, zpow_natCast, withSign_true, withSign_false]
    push_cast
    field_simp
    norm_num
  have hround : f32Round (.fin false 0 0 false) = f32Zero := by decide +kernel
  rw [f32Fma_eq, hprod, hcancel, hround]

theorem f32Rcp_two_pow (neg : Bool) (b : ℕ) (exp : ℤ) :
    f32Rcp neg (2 ^ b) exp = (exModify neg false (exScale exUnit (-(b + exp))), 0) := by
  have htail : (let q := f32Fma f32Zero (f32Fma f32Zero (f32Fma f32Zero exOne exOne) exOne) exOne
      (exFma false f32One (f32Mul f32Zero q) f32One).1) = exUnit := by decide +kernel
  have hj : floorAt (2 ^ b) (-(b : ℤ)) 6 - 64 = 0 := by rw [show (6 : ℤ) = ((6 : ℕ) : ℤ) by rfl, floorAt_two_pow]; norm_num
  simp only [f32Rcp, log2_two_pow, magLog_two_pow, hj, tableQ_zero, residue_two_pow, if_true]
  rw [← htail]

theorem f32Rsq_two_pow (b : ℕ) (exp : ℤ) (he : (b + exp) % 2 = 0) :
    f32Rsq (2 ^ b) exp = (exScale exUnit (-((b + exp) / 2)), 0) := by
  have htail : (let q := f32Fma f32Zero (f32Fma f32Zero (f32Fma f32Zero coefRs4 coefRs3) coefRs2) coefRs1
      (exFma false f32One (f32Mul f32Zero q) f32One).1) = exUnit := by decide +kernel
  have hone : f32Mul f32One f32One = f32One := by decide +kernel
  have hj : floorAt (2 ^ b) (-(b : ℤ)) 5 - 32 = 0 := by rw [show (5 : ℤ) = ((5 : ℕ) : ℤ) by rfl, floorAt_two_pow]; norm_num
  simp only [f32Rsq, log2_two_pow, magLog_two_pow, he, ne_eq, not_true_eq_false, if_false, hj, tableS_zero, hone, residue_two_pow,
    decide_true, decide_false, Bool.not_false, Bool.and_true, if_true]
  rw [← htail]

theorem f32Log2_two_pow (b : ℕ) (exp : ℤ) : f32Log2 (2 ^ b) exp = ((exAdd false f32Zero (exInt (b + exp) 0)).1, 0) := by
  have htail : f32Fma (exNegate f32Zero) (f32Fma f32Zero (f32Fma f32Zero (f32Fma f32Zero (f32Fma f32Zero coefLg5 coefLg4) coefLg3)
      coefLg2) coefLg1) (tableL 0) = f32Zero := by decide +kernel
  have hj : floorAt (2 ^ b) (-(b : ℤ)) 6 - 64 = 0 := by rw [show (6 : ℤ) = ((6 : ℕ) : ℤ) by rfl, floorAt_two_pow]; norm_num
  simp only [f32Log2, log2_two_pow, magLog_two_pow, hj, tableQ_zero, residue_two_pow, htail, if_true]

/-- An integer from −152 to 128 is split by VEXP2 into itself and no rest. -/
theorem f32Exp2_int {neg : Bool} {mag : ℕ} {exp n : ℤ} (h : withSign neg ((mag : ℚ) * 2 ^ exp) = n) (h1 : -152 ≤ n) (h2 : n ≤ 128) :
    f32Exp2 neg mag exp = (exScale exUnit n, 0) := by
  have htail : (let p := f32Mul (.fin false 0 0 false) (f32Fma (.fin false 0 0 false) (f32Fma (.fin false 0 0 false) coefEx3 coefEx2) coefEx1)
      (exFma false f32One p f32One).1) = exUnit := by decide +kernel
  have hv : Exact.fin neg mag exp false ≠ .nan := Exact.noConfusion
  have hi (i : ℤ) : exInt i 0 ≠ .nan := Exact.noConfusion
  have hhi : exLt (exInt 128 0) (.fin neg mag exp false) = false := by
    rw [exLt_eq (hi _) hv, ideal_exInt, ideal_fin, h]
    simp only [idBelow, Bool.false_and, Bool.or_false, zpow_zero, mul_one, Int.cast_lt, decide_eq_false_iff_not, not_lt]
    exact h2
  have hlo : exLt (.fin neg mag exp false) (exInt (-152) 0) = false := by
    rw [exLt_eq hv (hi _), ideal_exInt, ideal_fin, h]
    simp only [idBelow, Bool.false_and, Bool.or_false, zpow_zero, mul_one, Int.cast_lt, decide_eq_false_iff_not, not_lt]
    exact h1
  obtain ⟨d, hd⟩ : ∃ d : ℕ, min exp (-6) = -6 - d := ⟨(-6 - min exp (-6)).toNat, by have := min_le_right exp (-6); omega⟩
  have ha : alignTo (min exp (-6)) neg mag exp / (2 ^ (-6 - min exp (-6)).toNat : ℕ) = n * 64 := by
    have hq := alignTo_eq neg mag (min_le_left exp (-6))
    rw [h, hd] at hq
    have hz : alignTo (-6 - d) neg mag exp = n * 64 * (2 ^ d : ℕ) := by
      rw [zpow_sub₀ two_ne_zero, zpow_natCast] at hq
      have : (alignTo (-6 - d) neg mag exp : ℚ) = n * 64 * 2 ^ d := by rw [← hq]; field_simp; norm_num
      exact_mod_cast this
    rw [hd, hz, show (-6 - (-6 - (d : ℤ))).toNat = d by omega]
    exact Int.mul_ediv_cancel _ (by positivity)
  have hf : exAdd false (.fin neg mag exp false) (exInt (-(n * 64)) (-6)) = (.fin false 0 0 false, 0) := by
    have hsum : withSign neg ((mag : ℚ) * 2 ^ exp) + withSign (decide (-(n * 64) < 0)) ((((-(n * 64)).natAbs : ℕ) : ℚ) * 2 ^ (-6 : ℤ)) = 0 := by
      have := ideal_exInt (-(n * 64)) (-6)
      simp only [exInt, ideal_fin, Ideal.real.injEq] at this
      rw [this.1, h]; push_cast; norm_num; ring
    refine exAdd_cancel hsum (fun hn => ?_)
    subst hn
    have hnn : (0 : ℚ) ≤ mag * 2 ^ exp := by positivity
    have : (n : ℚ) ≤ 0 := by rw [← h, withSign_true]; linarith
    have : n ≤ 0 := by exact_mod_cast this
    rw [decide_eq_false_iff_not]; omega
  have hmod : (n * 64 % 64).toNat = 0 := by omega
  have hdiv : n * 64 / 64 = n := by omega
  simp only [f32Exp2, hhi, hlo, Bool.false_eq_true, if_false, ha, hdiv, hmod, hf, tableE_zero]
  simp only [isZero, decide_true, Bool.not_false, Bool.and_true, if_true]
  rw [← htail]

/-! ### The functions of the narrow types -/

theorem exRsq_two_pow (b : ℕ) (exp : ℤ) (he : (b + exp) % 2 = 0) :
    ∃ R E, exRsq (2 ^ b) exp = .fin false R E false ∧ (R : ℚ) * 2 ^ E = 2 ^ (-((b + exp) / 2)) := by
  obtain ⟨e, hedef⟩ : ∃ e, e = if exp % 2 = 0 then exp else exp - 1 := ⟨_, rfl⟩
  obtain ⟨c, hc, hec⟩ : ∃ c : ℕ, (if exp % 2 = 0 then 2 ^ b else 2 * 2 ^ b) = 2 ^ (2 * c) ∧ (b + exp) / 2 = c + e / 2 := by
    by_cases hx : exp % 2 = 0
    · rw [if_pos hx] at hedef
      exact ⟨b / 2, by rw [if_pos hx]; congr 1; omega, by omega⟩
    · rw [if_neg hx] at hedef
      exact ⟨(b + 1) / 2, by rw [if_neg hx, ← pow_succ']; congr 1; omega, by omega⟩
  have hdiv : 2 ^ (400 + 2 * (2 * c)) / 2 ^ (2 * c) = 2 ^ (200 + c) * 2 ^ (200 + c) := by
    rw [Nat.pow_div (by omega) (by norm_num), ← pow_add]; congr 1; omega
  have hR : exRsq (2 ^ b) exp = .fin false (2 ^ (200 + c)) (-(e / 2) - (200 + 2 * c : ℕ)) false := by
    have hexact : 2 ^ (200 + c) * 2 ^ (200 + c) * 2 ^ (2 * c) = 2 ^ (400 + 2 * (2 * c)) := by
      rw [← pow_add, ← pow_add]; congr 1; omega
    simp only [exRsq, hc, ← hedef, log2_two_pow, hdiv, isqrt_mul_self, hexact, ne_eq, not_true_eq_false, decide_false]
  refine ⟨_, _, hR, ?_⟩
  rw [Nat.cast_pow, Nat.cast_ofNat, ← zpow_natCast, ← zpow_add₀ two_ne_zero, hec]
  congr 1; push_cast; ring

theorem exExp2_int {neg : Bool} {mag : ℕ} {exp n : ℤ} (h : withSign neg ((mag : ℚ) * 2 ^ exp) = n) (h1 : -152 ≤ n) (h2 : n ≤ 128) :
    exExp2 neg mag exp = .fin false 1 n false := by
  obtain ⟨N, hN⟩ : ∃ N : ℕ, N = n.natAbs := ⟨_, rfl⟩
  have hmag : (mag : ℚ) * 2 ^ exp = N := by
    have : |withSign neg ((mag : ℚ) * 2 ^ exp)| = |(n : ℚ)| := by rw [h]
    rw [abs_withSign _ (by positivity)] at this
    rw [this, hN, Nat.cast_natAbs, Int.cast_abs]
  have hn : (if neg then -(N : ℤ) else N) = n := by
    have : ((withSign neg (N : ℤ) : ℤ) : ℚ) = (n : ℚ) := by rw [← h, hmag]; cases neg <;> simp
    exact_mod_cast this
  have hbig : ¬ (10 < magLog mag exp ∧ mag ≠ 0) := by
    rintro ⟨hk, hm⟩
    have hb := ((magIs_exact mag exp).bounds hm).1
    have hmagr := congrArg (Rat.cast (K := ℝ)) hmag
    push_cast at hmagr
    rw [hmagr] at hb
    have h11 : (2 : ℝ) ^ (11 : ℤ) ≤ 2 ^ magLog mag exp := zpow_le_zpow_right₀ one_le_two (by omega)
    have : ((2 ^ 11 : ℕ) : ℝ) ≤ (N : ℕ) := by push_cast; exact le_trans (by exact_mod_cast h11) hb
    have : 2 ^ 11 ≤ N := by exact_mod_cast this
    omega
  by_cases he : 0 ≤ exp
  · obtain ⟨j, rfl⟩ := Int.eq_ofNat_of_zero_le he
    have hNj : mag <<< j = N := by
      rw [Nat.shiftLeft_eq]; rw [zpow_natCast] at hmag; exact_mod_cast hmag
    simp only [exExp2, if_neg hbig, he, decide_true, Bool.true_or, if_true, Int.toNat_natCast, hNj, hn]
  · obtain ⟨j, rfl⟩ : ∃ j : ℕ, exp = -j := ⟨(-exp).toNat, by omega⟩
    have hNj : mag = N * 2 ^ j := by
      rw [zpow_neg, zpow_natCast, ← div_eq_mul_inv, div_eq_iff (by positivity)] at hmag
      exact_mod_cast hmag
    have hshift : mag >>> j = N := by rw [Nat.shiftRight_eq_div_pow, hNj, Nat.mul_div_cancel _ (by positivity)]
    have hmod : mag % 2 ^ j = 0 := by rw [hNj, Nat.mul_mod_left]
    simp only [exExp2, if_neg hbig, he, decide_false, Bool.false_or, if_false, neg_neg, Int.toNat_natCast, hshift, hmod, decide_true,
      if_true, hn]

/-! ### Where a function is exact -/

/-- A function's result without a rest stands for what it is. -/
theorem stands_of_eq {single : Bool} {fn : ℕ} {v u : Exact} {i : Ideal} {fl : ℕ} (h : specialFn single fn v = (u, fl))
    (hr : hasRest u = false) (hi : ideal u = i) : Stands (specialFn single fn v).1 i ∧ (specialFn single fn v).2 = fl := by
  rw [h]; exact ⟨hi ▸ stands_ideal hr, rfl⟩

theorem specialFn_rcp_two_pow (single neg : Bool) (b : ℕ) (exp : ℤ) :
    let v := specialFn single 8 (.fin neg (2 ^ b) exp false)
    Stands v.1 (.real (withSign neg (2 ^ (-(b + exp : ℤ)))) neg) ∧ v.2 = 0 := by
  have hm : 2 ^ b ≠ 0 := by positivity
  cases single
  · obtain ⟨hst, -⟩ := stands_exDiv exOne (.fin neg (2 ^ b) exp false)
    have hval : withSign neg (((2 ^ b : ℕ) : ℚ) * 2 ^ exp) = withSign neg (2 ^ (b + exp : ℤ)) := by
      rw [zpow_add₀ two_ne_zero, zpow_natCast]; push_cast; rfl
    have hne : withSign neg ((2 : ℚ) ^ (b + exp : ℤ)) ≠ 0 := by
      rw [ne_eq, withSign_eq_zero]; positivity
    have hdiv : (idDiv (ideal exOne) (ideal (.fin neg (2 ^ b) exp false))).1 = .real (withSign neg (2 ^ (-(b + exp : ℤ)))) neg := by
      simp only [exOne, ideal_fin, idDiv, hval, if_neg hne]
      rw [zpow_neg]
      cases neg <;> simp [inv_neg]
    simp only [specialFn, hm, if_false, Bool.false_eq_true]
    exact ⟨hdiv ▸ hst, trivial⟩
  · exact stands_of_eq (u := exModify neg false (exScale exUnit (-(b + exp))))
      (by simp only [specialFn, hm, if_false, if_true, f32Rcp_two_pow]) rfl (ideal_exUnit _ _)

theorem specialFn_rsq_two_pow (single : Bool) (b : ℕ) (exp : ℤ) (he : (b + exp) % 2 = 0) :
    let v := specialFn single 9 (.fin false (2 ^ b) exp false)
    Stands v.1 (.real (2 ^ (-((b + exp) / 2))) false) ∧ v.2 = 0 := by
  have hm : 2 ^ b ≠ 0 := by positivity
  cases single
  · obtain ⟨R, E, hR, hval⟩ := exRsq_two_pow b exp he
    exact stands_of_eq (u := .fin false R E false) (by simp only [specialFn, hm, if_false, Bool.false_eq_true, hR]) rfl
      (by rw [ideal_fin, withSign_false, hval])
  · exact stands_of_eq (u := exScale exUnit (-((b + exp) / 2)))
      (by simp only [specialFn, hm, if_false, if_true, Bool.false_eq_true, f32Rsq_two_pow b exp he]) rfl (ideal_exUnit false _)

theorem specialFn_exp2_int (single : Bool) {neg : Bool} {mag : ℕ} {exp n : ℤ} (h : withSign neg ((mag : ℚ) * 2 ^ exp) = n)
    (h1 : -152 ≤ n) (h2 : n ≤ 128) :
    let v := specialFn single 10 (.fin neg mag exp false)
    Stands v.1 (.real (2 ^ n) false) ∧ v.2 = 0 := by
  cases single
  · exact stands_of_eq (u := .fin false 1 n false) (by simp only [specialFn, Bool.false_eq_true, if_false, exExp2_int h h1 h2]) rfl
      (by simp)
  · exact stands_of_eq (u := exScale exUnit n) (by simp only [specialFn, if_true, f32Exp2_int h h1 h2]) rfl (ideal_exUnit false _)

theorem specialFn_log2_two_pow (single : Bool) (b : ℕ) (exp : ℤ) :
    let v := specialFn single 11 (.fin false (2 ^ b) exp false)
    Stands v.1 (.real ((b + exp : ℤ) : ℚ) (decide ((b + exp : ℤ) < 0))) ∧ v.2 = 0 := by
  have hm : 2 ^ b ≠ 0 := by positivity
  cases single
  · exact stands_of_eq (u := exInt (b + exp) 0)
      (by simp only [specialFn, hm, if_false, Bool.false_eq_true, exLog2, log2_two_pow, if_true, magLog_two_pow]) rfl
      (by rw [ideal_exInt, zpow_zero, mul_one])
  · refine stands_of_eq (u := (exAdd false f32Zero (exInt (b + exp) 0)).1)
      (by simp only [specialFn, hm, if_false, if_true, Bool.false_eq_true, f32Log2_two_pow]) (hasRest_exAdd _ _ _) ?_
    rw [(ideal_exAdd _ _ _).1, ideal_exInt, zpow_zero, mul_one]
    generalize (b : ℤ) + exp = n
    by_cases hz : n = 0
    · simp [hz, f32Zero, idAdd]
    · have hzq : ((n : ℤ) : ℚ) ≠ 0 := by exact_mod_cast hz
      simp [f32Zero, idAdd, hzq]

/-! ### The lanes -/

theorem specialLanes_hold : specialLanes := by
  intro s t f mode k a b c ty F r exact' gives h1 h2 hmode ha
  have hx := ideal_operandValue_float h1 (by omega) f.n1 f.a1 a
  have hrest := hasRest_operandValue ty f.n1 f.a1 a
  have hlane (fn : ℕ) (hfn : varithPlain fn = false) := varithLane_float s t f mode k a b c hfn h1
  rw [← hx]
  obtain ⟨v, hv⟩ : ∃ v, v = operandValue ty f.n1 f.a1 a := ⟨_, rfl⟩
  obtain ⟨single, hsingle⟩ : ∃ single, single = decide (ty = 10) := ⟨_, rfl⟩
  -- a lane whose function stands for an ideal result, and one that raises inexact besides on f32 lanes
  have hexact (fn : ℕ) (hfn : fn ∈ [8, 9, 10, 11, 12]) {i : Ideal} {fl : ℕ}
      (h : Stands (specialFn single fn v).1 i ∧ (specialFn single fn v).2 = fl) : exact' fn i fl := by
    have hop : varithPlain fn = false ∧ fpOp fn single (decide (mode = 2)) v (operandValue ty f.n2 f.a2 b)
        (operandValue ty f.n3 f.a3 c) = specialFn single fn v := by
      simp only [List.mem_cons, List.not_mem_nil, or_false] at hfn
      rcases hfn with rfl | rfl | rfl | rfl | rfl <;> exact ⟨rfl, rfl⟩
    simp only [exact', r, hlane fn hop.1]
    refine fpLane_finishes h1 (by omega) ?_ ?_ <;> rw [← hsingle, ← hv, hop.2]
    exacts [h.1, h.2]
  have hgives (fn : ℕ) (hfn : fn ∈ [8, 9, 10, 11, 12]) {i : Ideal} {fl : ℕ}
      (h : Stands (specialFn single fn v).1 i ∧ (specialFn single fn v).2 = fl ||| if single then fNX else 0) : gives fn i fl := by
    cases hs : single
    · exact .inl (hexact fn hfn ⟨h.1, by rw [h.2, hs]; simp⟩)
    · exact .inr ⟨by simpa [hsingle] using hs, hexact fn hfn ⟨h.1, by rw [h.2, hs]; rfl⟩⟩
  rw [← hv] at hrest ⊢
  cases v with
  | nan =>
    intro fn hfn
    exact hgives fn hfn ⟨by trivial, by simp [specialFn]⟩
  | inf neg =>
    refine ⟨hexact 8 (by decide) ⟨stands_zero _ _, rfl⟩, ?_, ?_⟩
    · rintro rfl
      exact ⟨hgives 9 (by decide) ⟨trivial, rfl⟩, hexact 10 (by decide) ⟨stands_zero _ _, rfl⟩, hgives 11 (by decide) ⟨trivial, rfl⟩,
        hgives 12 (by decide) ⟨stands_exNegOne, by simp [specialFn]⟩⟩
    · rintro rfl
      exact ⟨hexact 9 (by decide) ⟨stands_zero _ _, rfl⟩, hgives 10 (by decide) ⟨rfl, by simp [specialFn]⟩,
        hexact 11 (by decide) ⟨rfl, rfl⟩, hgives 12 (by decide) ⟨stands_exOne, by simp [specialFn]⟩⟩
  | fin neg mag exp st =>
    obtain rfl : st = false := hrest
    have hnn : (0 : ℚ) ≤ mag * 2 ^ exp := by positivity
    have hq0 : withSign neg ((mag : ℚ) * 2 ^ exp) = 0 ↔ mag = 0 := by
      rw [withSign_eq_zero, mul_eq_zero_iff_right (zpow_ne_zero _ two_ne_zero), Nat.cast_eq_zero]
    have hpos (h : 0 < withSign neg ((mag : ℚ) * 2 ^ exp)) : neg = false := by
      cases neg
      · rfl
      · exact absurd h (not_lt.mpr (by simpa using hnn))
    refine ⟨fun h => ?_, fun h => ?_, fun n h => ?_, fun n h => ?_, fun n hn1 hn2 h => ?_, fun n h => ?_, fun hty h => ?_⟩
    · obtain rfl := hq0.mp h
      exact ⟨hgives 8 (by decide) ⟨rfl, rfl⟩, hgives 9 (by decide) ⟨rfl, rfl⟩, hgives 11 (by decide) ⟨rfl, rfl⟩,
        hexact 12 (by decide) ⟨stands_zero _ _, rfl⟩⟩
    · have hm : mag ≠ 0 := fun e => h.ne (hq0.mpr e)
      obtain rfl : neg = true := by
        cases neg
        · exact absurd h (not_lt.mpr hnn)
        · rfl
      have h9 : specialFn single 9 (.fin true mag exp false) = (.nan, fNV ||| if single then fNX else 0) := by simp [specialFn, hm]
      have h11 : specialFn single 11 (.fin true mag exp false) = (.nan, fNV ||| if single then fNX else 0) := by simp [specialFn, hm]
      exact ⟨hgives 9 (by decide) ⟨by rw [h9]; trivial, by rw [h9]; rfl⟩, hgives 11 (by decide) ⟨by rw [h11]; trivial, by rw [h11]; rfl⟩⟩
    · rw [abs_withSign _ hnn] at h
      obtain ⟨j, rfl, rfl⟩ := mag_of_two_pow h
      exact hexact 8 (by decide) (specialFn_rcp_two_pow single neg j exp)
    · obtain rfl := hpos (by rw [h]; positivity)
      obtain ⟨j, rfl, hj⟩ := mag_of_two_pow h
      obtain rfl : n = ((j : ℤ) + exp) / 2 := by omega
      exact hexact 9 (by decide) (specialFn_rsq_two_pow single j exp (by omega))
    · exact hexact 10 (by decide) (specialFn_exp2_int single h hn1 hn2)
    · obtain rfl := hpos (by rw [h]; positivity)
      obtain ⟨j, rfl, rfl⟩ := mag_of_two_pow h
      exact hexact 11 (by decide) (specialFn_log2_two_pow single j exp)
    · have hsing : single = true := by simpa [hsingle] using hty
      rw [abs_withSign _ hnn] at h
      have hm : mag ≠ 0 := by rintro rfl; norm_num at h
      have hfl : 16 ≤ floorAt mag exp 0 := le_floorAt (by exact_mod_cast h)
      refine hexact 12 (by decide) ?_
      rw [hsing]
      simp only [specialFn, hm, if_false, if_true, f32Tanh, if_pos hfl]
      cases neg
      · exact ⟨stands_exOne, rfl⟩
      · exact ⟨stands_exNegOne, rfl⟩

/-- Settles O38: the operations on exact values are those on ideal ones, and the model rounds as `Picks` has it. -/
theorem laneArithmetic : Obligations.LaneArithmetic :=
  ⟨integerLanes_hold, integerComparisons_hold, floatLanes_hold, specialLanes_hold, floatComparisons_hold⟩

end Sys2Proof.Proofs
end

section
/-! PROOFS. What a vector instruction of a strand does to the state: its registers, its lanes, where it goes on (R142, R143, R190). -/

namespace Sys2Proof.Proofs

open Machine Oblig

/-! ### Lists of lanes -/

theorem tabulate_go {α : Type} (f : ℕ → α) (n : ℕ) (acc : List α) : tabulate.go f n acc = (List.range n).map f ++ acc := by
  induction n generalizing acc with
  | zero => rfl
  | succ n ih => simp [tabulate.go, ih, List.range_succ]

theorem tabulate_eq {α : Type} (n : ℕ) (f : ℕ → α) : tabulate n f = (List.range n).map f := by
  rw [tabulate, tabulate_go, List.append_nil]

theorem lane_succ (w i v : ℕ) : lane w (i + 1) v = lane w i (v / 2 ^ w) := by
  simp only [lane, Nat.shiftRight_eq_div_pow, Nat.div_div_eq_div_mul, ← pow_add]
  ring_nf

/-- A lane of a register built from its lanes. -/
theorem lane_ofLanes (w j : ℕ) (l : List ℕ) : lane w j (ofLanes w l) = l.getD j 0 % 2 ^ w := by
  induction l generalizing j with
  | nil => simp [ofLanes, lane]
  | cons x l ih =>
    have hw : 0 < 2 ^ w := Nat.two_pow_pos w
    have hx : x % 2 ^ w < 2 ^ w := Nat.mod_lt _ hw
    cases j with
    | zero => simp [ofLanes, lane]
    | succ j =>
      rw [lane_succ, ofLanes, Nat.add_mul_div_left _ _ hw, Nat.div_eq_of_lt hx, Nat.zero_add, ih]
      rfl

theorem ofLanes_lt (w : ℕ) (l : List ℕ) : ofLanes w l < 2 ^ (w * l.length) := by
  induction l with
  | nil => simp [ofLanes]
  | cons x l ih =>
    have hx : x % 2 ^ w < 2 ^ w := Nat.mod_lt _ (Nat.two_pow_pos w)
    have hmul : 2 ^ w * (ofLanes w l + 1) ≤ 2 ^ w * 2 ^ (w * l.length) := Nat.mul_le_mul_left _ ih
    calc ofLanes w (x :: l) < 2 ^ w * (ofLanes w l + 1) := by rw [ofLanes, mul_add]; omega
      _ ≤ 2 ^ (w * (x :: l).length) := by rwa [← pow_add, add_comm w, ← Nat.mul_succ] at hmul

/-- A value is made of its lanes. -/
theorem ofLanes_map_lane (w k v : ℕ) : ofLanes w ((List.range k).map (fun i => lane w i v)) = v % 2 ^ (w * k) := by
  induction k generalizing v with
  | zero => simp [ofLanes, Nat.mod_one]
  | succ k ih =>
    rw [List.range_succ_eq_map, List.map_cons, List.map_map, ofLanes]
    have hmap : (List.range k).map ((fun i => lane w i v) ∘ Nat.succ) = (List.range k).map (fun i => lane w i (v / 2 ^ w)) :=
      List.map_congr_left (fun i _ => lane_succ w i v)
    rw [hmap, ih, mul_add, mul_one, add_comm (w * k), pow_add, Nat.mod_mul]
    simp [lane]

theorem lane_mod_self (w i v : ℕ) : lane w i v % 2 ^ w = lane w i v := Nat.mod_mod _ _

/-- The conditions of a list are those of its members. -/
theorem allFlags_testBit (l : List (ℕ × ℕ)) (b : ℕ) : (allFlags l).testBit b = true ↔ ∃ r ∈ l, r.2.testBit b = true := by
  have fold (l : List (ℕ × ℕ)) (a : ℕ) :
      (l.foldl (fun acc r => acc ||| r.2) a).testBit b = true ↔ a.testBit b = true ∨ ∃ r ∈ l, r.2.testBit b = true := by
    induction l generalizing a with
    | nil => simp
    | cons x l ih => simp [ih, or_assoc]
  simpa [allFlags] using fold l 0

/-! ### Vector registers -/

theorem tget_vSet (t : Strand) (r j x : ℕ) : tget 0 (vSet t r x).v j = if j = r then BitVec.ofNat 512 x else tget 0 t.v j :=
  tget_tset _ _ _ _ _

theorem vSetGroup_frame (t : Strand) (b k x : ℕ) : vSetGroup t b k x = { t with v := (vSetGroup t b k x).v } :=
  forUpTo_keeps (fun u : Strand => u = { t with v := u.v }) k t _ rfl (fun i u hu => by rw [hu]; rfl)

/-- What a register holds after a group has been written. -/
theorem tget_vSetGroup (t : Strand) (b k x r : ℕ) :
    tget 0 (vSetGroup t b k x).v r = if b ≤ r ∧ r < b + k then BitVec.ofNat 512 (lane 512 (r - b) x) else tget 0 t.v r := by
  unfold vSetGroup
  induction k with
  | zero => rw [if_neg (by omega)]; rfl
  | succ k ih =>
    rw [forUpTo, tget_vSet, ih]
    by_cases hr : r = b + k
    · subst hr
      rw [if_pos rfl, if_pos (by omega), Nat.add_sub_cancel_left]
    · rw [if_neg hr]
      by_cases hin : b ≤ r ∧ r < b + k
      · rw [if_pos hin, if_pos (by omega)]
      · rw [if_neg hin, if_neg (by omega)]

theorem vGroup_vSetGroup (t : Strand) (b k x : ℕ) : vGroup (vSetGroup t b k x) b k = x % 2 ^ (512 * k) := by
  rw [vGroup, tabulate_eq, ← ofLanes_map_lane]
  congr 1
  refine List.map_congr_left (fun i hi => ?_)
  have hik : i < k := List.mem_range.mp hi
  rw [vGet, tget_vSetGroup, if_pos (by omega), BitVec.toNat_ofNat, Nat.add_sub_cancel_left, lane_mod_self]

theorem vGet_of_v {t u : Strand} (h : t.v = u.v) (r : ℕ) : vGet t r = vGet u r := by rw [vGet, vGet, h]

theorem vGroup_of_v {t u : Strand} (h : t.v = u.v) (b k : ℕ) : vGroup t b k = vGroup u b k := by simp only [vGroup, vGet, h]

theorem vGet_vSet_self (t : Strand) (r x : ℕ) : vGet (vSet t r x) r = x % 2 ^ 512 := by
  rw [vGet, tget_vSet, if_pos rfl, BitVec.toNat_ofNat]

/-! ### Naming registers: the checks and the blocks that wake -/

/-- Of a group list, every register is mapped. -/
def GroupsMapped (t : Strand) (gs : List (ℕ × ℕ)) : Prop := ∀ g ∈ gs, g.1 + g.2 ≤ 8 * t.vblocks

theorem unmapped_none {t : Strand} {gs : List (ℕ × ℕ)} (h : GroupsMapped t gs) : unmapped t gs = none := by
  have hregs : ∀ r ∈ groupRegs gs, ¬ 8 * t.vblocks ≤ r := by
    intro r hr
    simp only [groupRegs, List.mem_flatMap, List.mem_map, List.mem_range] at hr
    obtain ⟨g, hg, i, hi, rfl⟩ := hr
    have := h g hg
    omega
  unfold unmapped
  generalize groupRegs gs = l at hregs
  induction l with
  | nil => rfl
  | cons a l ih => rw [List.foldl_cons, if_neg (hregs a (by simp)), ih (fun r hr => hregs r (by simp [hr]))]

/-- Waking registers changes cores alone. -/
theorem wakeRegs_cores (s : State) (t : Strand) (gs : List (ℕ × ℕ)) : ∃ c, wakeRegs s t gs = { s with cores := c } :=
  foldl_keeps (fun u : State => ∃ c, u = { s with cores := c }) _ _ _ ⟨s.cores, rfl⟩ (fun u r ⟨c, h⟩ => by rw [h]; exact ⟨_, rfl⟩)

theorem wakeRegs_issues {s : State} {t : Strand} (gs : List (ℕ × ℕ)) (h : Issues s t) : Issues (wakeRegs s t gs) t := by
  obtain ⟨c, hw⟩ := wakeRegs_cores s t gs
  rw [hw]
  exact h

theorem laneDraw_wakeRegs (s : State) (t : Strand) (gs : List (ℕ × ℕ)) (f : X96) (mode i : ℕ) :
    laneDraw (wakeRegs s t gs) t f mode i = laneDraw s t f mode i := by
  obtain ⟨c, hw⟩ := wakeRegs_cores s t gs
  rw [hw]
  rfl

/-! ### Going on -/

/-- What the end of an instruction looks at, apart from what the instruction itself writes (R133). -/
def SameFlow (t u : Strand) : Prop :=
  u.pc = t.pc ∧ u.lpcount = t.lpcount ∧ u.lpend = t.lpend ∧ u.lpstart = t.lpstart ∧ u.rep = t.rep

theorem fallThrough_flow (u : Strand) (a : Word) :
    (fallThrough u a).pc = (if u.lpcount ≠ 0 ∧ a = u.lpend ∧ u.lpcount ≠ 1 then u.lpstart else a) ∧
    (fallThrough u a).lpcount = (if u.lpcount ≠ 0 ∧ a = u.lpend then u.lpcount - 1 else u.lpcount) ∧
    (fallThrough u a).rep = u.rep := by
  have hone : u.lpcount - 1 = 0 ↔ u.lpcount = 1 := sub_eq_zero
  unfold fallThrough
  by_cases hend : u.lpcount ≠ 0 ∧ a = u.lpend
  · have hend' : (u.lpcount ≠ 0 && a = u.lpend) = true := by simpa using hend
    rw [if_pos hend', if_pos hend]
    obtain ⟨hcount, rfl⟩ := hend
    refine ⟨?_, rfl, rfl⟩
    by_cases h1 : u.lpcount = 1
    · rw [if_neg (fun h => h.2.2 h1)]
      exact if_neg (not_not_intro (hone.mpr h1))
    · rw [if_pos ⟨hcount, rfl, h1⟩]
      exact if_pos (fun h => h1 (hone.mp h))
  · have hend' : ¬ (u.lpcount ≠ 0 && a = u.lpend) = true := by simpa using hend
    rw [if_neg hend', if_neg hend, if_neg (fun h => hend ⟨h.1, h.2.1⟩)]
    exact ⟨rfl, rfl, rfl⟩

theorem goesOn_advance {t u : Strand} (len : ℕ) (h : SameFlow t u) : GoesOn t (advance u len .seq) len := by
  obtain ⟨hpc, hcount, hend, hstart, hrep⟩ := h
  intro hnone
  rw [hnone] at hrep
  obtain ⟨fpc, fcount, frep⟩ := fallThrough_flow u (t.pc + BitVec.ofNat 64 len)
  simp only [advance, hrep, hpc, fpc, fcount, frep, hcount, hend, hstart, seqPc, seqCount, endsBody, Bool.and_eq_true,
    decide_eq_true_eq, and_assoc, and_self]

/-- The strand that issues writes its own state and goes on. -/
theorem nextStrand_write {s : State} {t : Strand} (len : ℕ) (g : Strand → Strand) (h : Issues s t) (hg : ∀ u, (g u).key = u.key) :
    NextStrand s (retire len (writeStrand s t g)) t.key (advance (g t) len .seq) := by
  obtain ⟨hcur, hfind⟩ := h
  simp only [NextStrand, writeStrand, retire, complete, setStrand_cur, hcur]
  rw [setStrand_setStrand s t.key g _ (fun u hu => by rw [hg, hu])]
  exact congrArg _ (setStrand_congr hfind rfl)

/-- A strand's function that changes the vector registers and ORs conditions, and nothing else. -/
theorem vecWrites_write {s : State} {t : Strand} (len vd k fl : ℕ) (p : Strand → Prop) (g : Strand → Strand) (h : Issues s t)
    (hg : ∀ u, g u = { u with v := (g u).v, vxflags := u.vxflags ||| BitVec.ofNat 64 (fl % 32) })
    (hothers : ∀ r, r < vd ∨ vd + k ≤ r → tget 0 (g t).v r = tget 0 t.v r)
    (hp : ∀ u : Strand, u.v = (g t).v → p u) : VecWrites s (retire len (writeStrand s t g)) t len vd k fl p := by
  have hadv := advance_frame (g t) len .seq
  have hv : (advance (g t) len .seq).v = (g t).v := by rw [hadv]
  refine ⟨_, nextStrand_write len g h (fun u => by rw [hg]), goesOn_advance len ?_, ?_, fun r hr => ?_, hp _ hv⟩
  · rw [hg]
    exact ⟨rfl, rfl, rfl, rfl, rfl⟩
  · rw [hv, hadv, hg]
  · rw [hv]
    exact hothers r hr

/-- The strand that issues writes a GPR. -/
theorem gprWrites_write {s : State} {t : Strand} (len : ℕ) {rd : ℕ} (v : Word) (h : Issues s t) (hrd : rd < 32) :
    GprWrites s (retire len (writeStrand s t (fun u => sx u rd v))) t len rd v := by
  have hadv := advance_frame (sx t rd v) len .seq
  have hsx : sx t rd v = { t with x := (sx t rd v).x, dead := (sx t rd v).dead } := by
    unfold sx; split <;> rfl
  refine ⟨_, nextStrand_write len _ h (fun u => sx_key u rd v), goesOn_advance len ?_, ?_, fun r hr => ?_⟩
  · rw [hsx]
    exact ⟨rfl, rfl, rfl, rfl, rfl⟩
  · rw [OnlyRegs, hadv, hsx]
  · rw [hadv]
    exact gx_sx t rd r v hrd hr

/-- A conversion into a register group. -/
theorem vecWrites_convGroup {s : State} {t : Strand} (vd k w n : ℕ) (f : X96) (g : ℕ → ℕ × ℕ) (h : Issues s t)
    (hn : w * n ≤ 512 * k) :
    ∃ fl, VecWrites s (retire 12 (convGroup s t vd k w n f g)) t 12 vd k fl (fun t' => ∀ j < n,
        lane w j (vGroup t' vd k) = if activeLane t f j then (g j).1 % 2 ^ w else lane w j (vGroup t vd k)) ∧
      ∀ b, fl.testBit b = true ↔ ∃ j < n, activeLane t f j = true ∧ (g j).2.testBit b = true := by
  let res := (List.range n).map (fun i => if activeLane t f i then g i else (lane w i (vGroup t vd k), 0))
  have hconv : convGroup s t vd k w n f g =
      writeStrand s t (fun u => orFlags (vSetGroup u vd k (ofLanes w (res.map (·.1)))) (allFlags res)) := by
    simp only [convGroup, tabulate_eq, res]
  refine ⟨allFlags res, ?_, fun b => ?_⟩
  · rw [hconv]
    refine vecWrites_write 12 vd k _ _ _ h (fun u => ?_) (fun r hr => ?_) (fun u hu j hj => ?_)
    · rw [orFlags, vSetGroup_frame]
    · exact (tget_vSetGroup _ _ _ _ _).trans (if_neg (by omega))
    · have hlen : (res.map (·.1)).length = n := by simp [res]
      have hlt : ofLanes w (res.map (·.1)) < 2 ^ (512 * k) :=
        (ofLanes_lt w _).trans_le (by rw [hlen]; exact Nat.pow_le_pow_right (by decide) hn)
      have hgroup : vGroup u vd k = ofLanes w (res.map (·.1)) := by
        rw [vGroup_of_v (u := vSetGroup t vd k (ofLanes w (res.map (·.1)))) hu, vGroup_vSetGroup, Nat.mod_eq_of_lt hlt]
      rw [hgroup, lane_ofLanes]
      simp only [res, List.map_map, List.getD_eq_getElem?_getD, List.getElem?_map, List.getElem?_range hj, Option.map_some,
        Option.getD_some, Function.comp_apply]
      split
      · rfl
      · exact lane_mod_self w j _
  · rw [allFlags_testBit]
    simp only [res, List.mem_map, List.mem_range]
    constructor
    · rintro ⟨r, ⟨j, hj, rfl⟩, hb⟩
      by_cases ha : activeLane t f j = true
      · exact ⟨j, hj, ha, by simpa [ha] using hb⟩
      · simp [ha] at hb
    · rintro ⟨j, hj, ha, hb⟩
      exact ⟨_, ⟨j, hj, rfl⟩, by simpa [ha] using hb⟩

end Sys2Proof.Proofs
end

section
/-! PROOFS. VCONV: conversions into registers, packings, and random lanes (R43, R154 to R161). -/

namespace Sys2Proof.Proofs

open Machine Oblig

/-! ### What an instruction of VCONV does -/

/-- A well-formed VCONV whose mode resolves and whose registers are mapped. -/
theorem vconv_eq {s : State} {t : Strand} {f : X96} {mode : ℕ} {i : Instr} {gs : List (ℕ × ℕ)} (g : State → Strand → ℕ → Res)
    (h : Issues s t) (hm : resolveMode t f.rm.toNat = some mode) (hok : formOk i = true) (hlen : instrLen i = 12)
    (hgs : GroupsMapped t gs) : vconv f i s gs g = retire 12 (g (wakeRegs s t gs) t mode) := by
  rw [vconv, runStrand_eq _ h.1 h.2 hok, hlen]
  simp only [hm, withRegs, unmapped_none hgs]

theorem groupsMapped_one {t : Strand} {a k : ℕ} (ha : a + k ≤ 8 * t.vblocks) : GroupsMapped t [(a, k)] := by
  simp [GroupsMapped, ha]

theorem groupsMapped_two {t : Strand} {a b k m : ℕ} (ha : a + k ≤ 8 * t.vblocks) (hb : b + m ≤ 8 * t.vblocks) :
    GroupsMapped t [(a, k), (b, m)] := by
  simp [GroupsMapped, ha, hb]

/-- What is said of a conversion into a register group: its lanes and the conditions of the active ones. -/
def ConvertsGroup (s : State) (t : Strand) (f : X96) (i : Instr) (vd k w n : ℕ) (conv : ℕ → ℕ × ℕ) : Prop :=
  ∃ fl gs, VecWrites (wakeRegs s t gs) (exec i s) t 12 vd k fl (fun t' => ∀ j < n,
      lane w j (vGroup t' vd k) = if activeLane t f j then (conv j).1 % 2 ^ w else lane w j (vGroup t vd k)) ∧
    ∀ b, fl.testBit b = true ↔ ∃ j < n, activeLane t f j = true ∧ (conv j).2.testBit b = true

/-- An instruction whose meaning is a conversion into a register group, lane j of it with the draw of lane j. -/
theorem convertsGroup_of_vconv {s : State} {t : Strand} {f : X96} {mode : ℕ} {i : Instr} {gs : List (ℕ × ℕ)} {vd k w n : ℕ}
    (conv : Strand → ℕ → (ℕ → ℕ) → ℕ → ℕ × ℕ) (h : Issues s t) (hm : resolveMode t f.rm.toNat = some mode) (hok : formOk i = true)
    (hlen : instrLen i = 12) (hgs : GroupsMapped t gs) (hn : w * n ≤ 512 * k)
    (hexec : exec i s = vconv f i s gs (fun s1 t mode => convGroup s1 t vd k w n f (conv t mode (laneDraw s1 t f mode)))) :
    ConvertsGroup s t f i vd k w n (conv t mode (laneDraw s t f mode)) := by
  have hdraw : laneDraw (wakeRegs s t gs) t f mode = laneDraw s t f mode := funext (laneDraw_wakeRegs s t gs f mode)
  obtain ⟨fl, hw, hfl⟩ := vecWrites_convGroup vd k w n f (conv t mode (laneDraw s t f mode)) (wakeRegs_issues gs h) hn
  refine ⟨fl, gs, ?_, hfl⟩
  rw [hexec, vconv_eq _ h hm hok hlen hgs, hdraw]
  exact hw

/-! ### Widths -/

theorem tyWidth_pow (ty : ℕ) : ∃ a ≤ 9, tyWidth ty = 2 ^ a := by
  unfold tyWidth
  have h4 : ty % 4 < 4 := Nat.mod_lt _ (by decide)
  split
  · exact ⟨3 + ty % 4, by omega, by rw [Nat.shiftLeft_eq, pow_add]; rfl⟩
  · split
    · exact ⟨4, by decide, rfl⟩
    · split
      · exact ⟨5, by decide, rfl⟩
      · exact ⟨6, by decide, rfl⟩

/-- Lanes of a width that divides 512, as many as the registers of the group hold of the narrower width. -/
theorem group_lanes {w v : ℕ} (hw : ∃ a ≤ 9, w = 2 ^ a) (hv : ∃ a ≤ 9, v = 2 ^ a) :
    w * (512 / min w v) ≤ 512 * (w / min w v) := by
  obtain ⟨a, ha, rfl⟩ := hw
  obtain ⟨b, hb, rfl⟩ := hv
  have hmin : min (2 ^ a) (2 ^ b) = 2 ^ min a b := ((pow_right_mono₀ (one_le_two (α := ℕ))).map_min).symm
  have h512 : 512 / 2 ^ min a b = 2 ^ (9 - min a b) := Nat.pow_div (x := 2) (m := 9) ((min_le_left a b).trans ha) (by decide)
  rw [hmin, h512, Nat.pow_div (min_le_left a b) (by decide), ← pow_add, show 512 = 2 ^ 9 from rfl, ← pow_add]
  exact Nat.pow_le_pow_right (by decide) (by omega)

theorem vcvtWidths_lanes (f : X96) : (vcvtWidths f).1 * (512 / min (vcvtWidths f).1 (vcvtWidths f).2) ≤
    512 * ((vcvtWidths f).1 / min (vcvtWidths f).1 (vcvtWidths f).2) := by
  have h8 : ∃ a ≤ 9, 8 = 2 ^ a := ⟨3, by decide, rfl⟩
  refine group_lanes ?_ ?_
  · simp only [vcvtWidths]
    split
    · exact tyWidth_pow _
    · split
      · exact tyWidth_pow _
      · exact h8
  · simp only [vcvtWidths]
    split
    · exact tyWidth_pow _
    · split
      · exact h8
      · exact tyWidth_pow _

theorem group32_lanes {ty : ℕ} (h : tyFloat ty = true) : tyWidth ty * 32 ≤ 512 * group32 (tyWidth ty) := by
  simp only [tyFloat, Bool.and_eq_true, decide_eq_true_eq] at h
  obtain ⟨hlo, hhi⟩ := h
  interval_cases ty <;> decide

/-! ### Encoding checks -/

theorem float_of_vunpkmx {f : X96} (h : formOk (.vunpkmx f) = true) : tyFloat f.ty.toNat = true := by
  have h' : vconvOk 2 f = true := h
  rw [vconvOk, if_neg (by decide)] at h'
  simp only [Bool.and_eq_true] at h'
  tauto

theorem float_of_vfrombsi {f : X96} (h : formOk (.vfrombsi f) = true) : tyFloat f.ty.toNat = true := by
  have h' : vconvOk 5 f = true := h
  rw [vconvOk, if_neg (by decide)] at h'
  simp only [Bool.and_eq_true] at h'
  tauto

theorem isGpr_of_vmxexp {f : X96} (h : formOk (.vmxexp f) = true) : f.vd.toNat < 32 := by
  have h' : vconvOk 3 f = true := h
  rw [vconvOk, if_neg (by decide)] at h'
  simp only [Bool.and_eq_true] at h'
  have hg : isGpr f.vd = true := by tauto
  simpa [isGpr] using hg

/-! ### The conversions -/

theorem vcvt_converts {s : State} {t : Strand} {f : X96} {mode : ℕ} (h : Issues s t) (hm : resolveMode t f.rm.toNat = some mode)
    (hok : formOk (.vcvt f) = true) :
    let d := (vcvtWidths f).1
    let r := (vcvtWidths f).2
    let m := min d r
    f.vd.toNat + d / m ≤ 8 * t.vblocks → f.vs1.toNat + r / m ≤ 8 * t.vblocks →
    ConvertsGroup s t f (.vcvt f) f.vd.toNat (d / m) d (512 / m) (fun j =>
      vcvtLane f (vcvtTypes f).1 (vcvtTypes f).2 mode (laneDraw s t f mode j) (lane r j (vGroup t f.vs1.toNat (r / m)))) := by
  intro d r m hd hs
  exact convertsGroup_of_vconv (fun t mode draw j =>
    vcvtLane f (vcvtTypes f).1 (vcvtTypes f).2 mode (draw j) (lane r j (vGroup t f.vs1.toNat (r / m))))
    h hm hok rfl (groupsMapped_two hd hs) (vcvtWidths_lanes f) rfl

theorem vunpkmx_converts {s : State} {t : Strand} {f : X96} {mode : ℕ} (h : Issues s t) (hm : resolveMode t f.rm.toNat = some mode)
    (hok : formOk (.vunpkmx f) = true) :
    let w := tyWidth f.ty.toNat
    f.vd.toNat + group32 w ≤ 8 * t.vblocks → f.vs1.toNat + 1 ≤ 8 * t.vblocks →
    ConvertsGroup s t f (.vunpkmx f) f.vd.toNat (group32 w) w 32 (fun j =>
      convertTo (tyNum f.ty.toNat) mode (laneDraw s t f mode j) f.sat true
        (exModify f.n1 f.a1 (mxValue f.aux.toNat (vGet t f.vs1.toNat) j))) := by
  intro w hd hs
  exact convertsGroup_of_vconv (fun t mode draw j =>
    convertTo (tyNum f.ty.toNat) mode (draw j) f.sat true (exModify f.n1 f.a1 (mxValue f.aux.toNat (vGet t f.vs1.toNat) j)))
    h hm hok rfl (groupsMapped_two hd hs) (group32_lanes (float_of_vunpkmx hok)) rfl

theorem vtobsi_converts {s : State} {t : Strand} {f : X96} {mode : ℕ} (h : Issues s t) (hm : resolveMode t f.rm.toNat = some mode)
    (hok : formOk (.vtobsi f) = true) :
    let g := group32 (tyWidth f.ty.toNat)
    f.vd.toNat + 4 ≤ 8 * t.vblocks → f.vs1.toNat + g ≤ 8 * t.vblocks →
    ConvertsGroup s t f (.vtobsi f) f.vd.toNat 4 64 32 (fun j =>
      convertTo (.int true 64) mode (laneDraw s t f mode j) f.sat false
        (exScale (operandValue f.ty.toNat f.n1 f.a1 (lane (tyWidth f.ty.toNat) j (vGroup t f.vs1.toNat g))) (-(bsiExp t f)))) := by
  intro g hd hs
  exact convertsGroup_of_vconv (fun t mode draw j => convertTo (.int true 64) mode (draw j) f.sat false
      (exScale (operandValue f.ty.toNat f.n1 f.a1 (lane (tyWidth f.ty.toNat) j (vGroup t f.vs1.toNat g))) (-(bsiExp t f))))
    h hm hok rfl (groupsMapped_two hd hs) (by decide) rfl

theorem vfrombsi_converts {s : State} {t : Strand} {f : X96} {mode : ℕ} (h : Issues s t) (hm : resolveMode t f.rm.toNat = some mode)
    (hok : formOk (.vfrombsi f) = true) :
    let w := tyWidth f.ty.toNat
    f.vd.toNat + group32 w ≤ 8 * t.vblocks → f.vs1.toNat + 4 ≤ 8 * t.vblocks →
    ConvertsGroup s t f (.vfrombsi f) f.vd.toNat (group32 w) w 32 (fun j =>
      convertTo (tyNum f.ty.toNat) mode (laneDraw s t f mode j) f.sat true
        (exInt (sint 64 (modInt true f.n1 f.a1 64 (lane 64 j (vGroup t f.vs1.toNat 4)))) (bsiExp t f))) := by
  intro w hd hs
  exact convertsGroup_of_vconv (fun t mode draw j => convertTo (tyNum f.ty.toNat) mode (draw j) f.sat true
      (exInt (sint 64 (modInt true f.n1 f.a1 64 (lane 64 j (vGroup t f.vs1.toNat 4)))) (bsiExp t f)))
    h hm hok rfl (groupsMapped_two hd hs) (group32_lanes (float_of_vfrombsi hok)) rfl

/-! ### Packings -/

theorem packSources_eq (t : Strand) (f : X96) : packSources t f = (List.range 32).map (fun j =>
    if activeLane t f j then operandValue f.ty.toNat f.n1 f.a1
      (lane (tyWidth f.ty.toNat) j (vGroup t f.vs1.toNat (group32 (tyWidth f.ty.toNat)))) else exZero) := by
  rw [packSources, tabulate_eq]

theorem vpackmx_packs {s : State} {t : Strand} {f : X96} {mode : ℕ} (h : Issues s t) (hm : resolveMode t f.rm.toNat = some mode)
    (hok : formOk (.vpackmx f) = true) (hd : f.vd.toNat + 1 ≤ 8 * t.vblocks)
    (hs : f.vs1.toNat + group32 (tyWidth f.ty.toNat) ≤ 8 * t.vblocks) :
    let b := mxPack f.aux.toNat mode f.sat (laneDraw s t f mode) (activeLane t f) (packSources t f)
    ∃ gs, VecWrites (wakeRegs s t gs) (exec (.vpackmx f) s) t 12 f.vd.toNat 1 b.2 (fun t' => vGet t' f.vd.toNat = b.1 % 2 ^ 512) := by
  intro b
  let gs := [(f.vd.toNat, 1), (f.vs1.toNat, group32 (tyWidth f.ty.toNat))]
  have hdraw : laneDraw (wakeRegs s t gs) t f mode = laneDraw s t f mode := funext (laneDraw_wakeRegs s t gs f mode)
  have hexec : exec (.vpackmx f) s = retire 12 (writeStrand (wakeRegs s t gs) t (fun u => orFlags (vSet u f.vd.toNat b.1) b.2)) := by
    refine (vconv_eq _ h hm hok rfl (groupsMapped_two hd hs)).trans ?_
    simp only [gs] at hdraw ⊢
    rw [hdraw]
  refine ⟨gs, ?_⟩
  rw [hexec]
  refine vecWrites_write 12 _ _ _ _ _ (wakeRegs_issues gs h) (fun u => rfl) (fun r hr => ?_) (fun u hu => ?_)
  · exact (tget_vSet _ _ _ _).trans (if_neg (by omega))
  · rw [vGet_of_v (u := vSet t f.vd.toNat b.1) hu, vGet_vSet_self]

theorem vmxexp_writes {s : State} {t : Strand} {f : X96} {mode : ℕ} (h : Issues s t) (hm : resolveMode t f.rm.toNat = some mode)
    (hok : formOk (.vmxexp f) = true) (hs : f.vs1.toNat + group32 (tyWidth f.ty.toNat) ≤ 8 * t.vblocks) :
    ∃ gs, GprWrites (wakeRegs s t gs) (exec (.vmxexp f) s) t 12 f.vd.toNat
      (BitVec.ofNat 64 (mxScaleOf f.aux.toNat (packSources t f))) := by
  let gs := [(f.vs1.toNat, group32 (tyWidth f.ty.toNat))]
  have hexec : exec (.vmxexp f) s = retire 12 (writeStrand (wakeRegs s t gs) t (fun u =>
      sx u f.vd.toNat (BitVec.ofNat 64 (mxScaleOf f.aux.toNat (packSources t f))))) :=
    vconv_eq _ h hm hok rfl (groupsMapped_one hs)
  refine ⟨gs, ?_⟩
  rw [hexec]
  exact gprWrites_write 12 _ (wakeRegs_issues gs h) (isGpr_of_vmxexp hok)

/-- VCVT, VUNPKMX, VTOBSI, VFROMBSI, VPACKMX and VMXEXP. -/
theorem conversions_hold : conversions := by
  intro s t f mode h hm
  refine ⟨fun hok => vcvt_converts h hm hok, fun hok => vunpkmx_converts h hm hok, fun hok => vtobsi_converts h hm hok,
    fun hok => vfrombsi_converts h hm hok, fun hok hd hs => ?_, fun hok hs => ?_⟩
  · have := vpackmx_packs h hm hok hd hs
    rwa [packSources_eq] at this
  · have := vmxexp_writes h hm hok hs
    rwa [packSources_eq] at this

/-! ### Random lanes -/

/-- A fold that takes a value of its own, counted, where a lane is active, and another elsewhere. -/
theorem foldl_draws {α : Type} (act : ℕ → Bool) (v : Word → α) (old : ℕ → α) (c : Word) (n : ℕ) :
    (List.range n).foldl (fun (acc : List α × Word) i =>
        if act i then (acc.1 ++ [v acc.2], acc.2 + 1) else (acc.1 ++ [old i], acc.2)) ([], c) =
      ((List.range n).map (fun i => if act i then v (c + BitVec.ofNat 64 ((List.range i).filter act).length) else old i),
        c + BitVec.ofNat 64 ((List.range n).filter act).length) := by
  induction n with
  | zero => simp
  | succ n ih =>
    rw [List.range_succ, List.foldl_append, ih, List.map_append, List.filter_append]
    by_cases hn : act n = true
    · simp [hn, BitVec.ofNat_add, BitVec.add_assoc]
    · simp [hn]

/-- The value of a draw of VRAND. -/
def randValue (s : State) (t : Strand) (f : X96) (c : Word) : ℕ :=
  let d := drawOf (runOf s t.key.run).seed 0xFFFFFFFF t.key.gls (c.toNat % 2 ^ 32) (c.toNat / 2 ^ 32)
  if f.ty = 10 then (convertTo fp32 0 0 false true (.fin false (d >>> 8) (-24) false)).1 else d

/-- The draws before lane i. -/
def drawsBelow (t : Strand) (f : X96) (i : ℕ) : Word := BitVec.ofNat 64 ((List.range i).filter (activeLane t f)).length

theorem randLanes_eq (s : State) (t : Strand) (f : X96) :
    randLanes s t f = ((List.range 16).map (fun i => if activeLane t f i then randValue s t f (t.draw + drawsBelow t f i)
      else lane 32 i (vGet t f.vd.toNat)), t.draw + drawsBelow t f 16) :=
  foldl_draws (activeLane t f) (randValue s t f) (fun i => lane 32 i (vGet t f.vd.toNat)) t.draw 16

/-- What VRAND makes of the strand. -/
def afterVrand (s : State) (t u : Strand) (f : X96) : Strand :=
  { vSet u f.vd.toNat (ofLanes 32 (randLanes s t f).1) with draw := (randLanes s t f).2 }

theorem exec_vrand {s : State} {t : Strand} {f : X96} {mode : ℕ} (h : Issues s t) (hm : resolveMode t f.rm.toNat = some mode)
    (hok : formOk (.vrand f) = true) (hvd : f.vd.toNat + 1 ≤ 8 * t.vblocks) :
    exec (.vrand f) s = retire 12 (writeStrand (wakeRegs s t [(f.vd.toNat, 1)]) t (fun u =>
      afterVrand (wakeRegs s t [(f.vd.toNat, 1)]) t u f)) :=
  vconv_eq _ h hm hok rfl (groupsMapped_one hvd)

theorem randValue_wakeRegs (s : State) (t : Strand) (gs : List (ℕ × ℕ)) (f : X96) (c : Word) :
    randValue (wakeRegs s t gs) t f c = randValue s t f c := by
  obtain ⟨cores, hw⟩ := wakeRegs_cores s t gs
  rw [hw]
  rfl

theorem randLanes_wakeRegs (s : State) (t : Strand) (gs : List (ℕ × ℕ)) (f : X96) :
    randLanes (wakeRegs s t gs) t f = randLanes s t f := by
  simp only [randLanes_eq, randValue_wakeRegs]

theorem afterVrand_wakeRegs (s : State) (t u : Strand) (gs : List (ℕ × ℕ)) (f : X96) :
    afterVrand (wakeRegs s t gs) t u f = afterVrand s t u f := by
  rw [afterVrand, randLanes_wakeRegs, afterVrand]

/-- A lane of the strand after VRAND. -/
theorem vlaneOf_afterVrand (s : State) (t : Strand) (f : X96) {i : ℕ} (hi : i < 16) :
    vlaneOf (afterVrand s t t f) 32 f.vd i =
      if activeLane t f i then randValue s t f (t.draw + drawsBelow t f i) % 2 ^ 32 else vlaneOf t 32 f.vd i := by
  have hlt : ofLanes 32 (randLanes s t f).1 < 2 ^ 512 := by
    have hlt' := ofLanes_lt 32 (randLanes s t f).1
    rwa [show (randLanes s t f).1.length = 16 by rw [randLanes_eq]; simp] at hlt'
  have hget : vGet (afterVrand s t t f) f.vd.toNat = ofLanes 32 (randLanes s t f).1 :=
    (vGet_vSet_self t _ _).trans (Nat.mod_eq_of_lt hlt)
  rw [vlaneOf, hget, lane_ofLanes, randLanes_eq]
  simp only [List.getD_eq_getElem?_getD, List.getElem?_map, List.getElem?_range hi, Option.map_some, Option.getD_some]
  split
  · rfl
  · exact lane_mod_self _ _ _

theorem randomLanes_hold : randomLanes := by
  intro s t f mode h hm hok hmap below c d
  have hvd : f.vd.toNat + 1 ≤ 8 * t.vblocks := hmap f.vd (by simp)
  have hnext := nextStrand_write 12 (fun u => afterVrand (wakeRegs s t [(f.vd.toNat, 1)]) t u f)
    (wakeRegs_issues [(f.vd.toNat, 1)] h) (fun u => rfl)
  rw [← exec_vrand h hm hok hvd] at hnext
  simp only [afterVrand_wakeRegs] at hnext
  have hadv := advance_frame (afterVrand s t t f) 12 .seq
  have hdraw : (afterVrand s t t f).draw = t.draw + BitVec.ofNat 64 (below 16) := congrArg Prod.snd (randLanes_eq s t f)
  have hv : (advance (afterVrand s t t f) 12 .seq).v = (afterVrand s t t f).v := by rw [hadv]
  have hlane {i : ℕ} (hi : i < 16) : vlaneOf (advance (afterVrand s t t f) 12 .seq) 32 f.vd i =
      if activeLane t f i then randValue s t f (t.draw + drawsBelow t f i) % 2 ^ 32 else vlaneOf t 32 f.vd i := by
    rw [← vlaneOf_afterVrand s t f hi, vlaneOf, vlaneOf, vGet_of_v hv]
  refine ⟨_, hnext, goesOn_advance 12 ⟨rfl, rfl, rfl, rfl, rfl⟩, ?_, fun r hr => ?_, fun i hi ha => ?_,
    fun i hi ha => ⟨fun hty => ?_, fun hty => ?_⟩⟩
  · rw [← hdraw, hadv]
    rfl
  · exact (congrArg (fun v => tget 0 v r) hv).trans ((tget_vSet _ _ _ _).trans (if_neg hr))
  · exact (hlane hi).trans (if_neg (by simp [ha]))
  · refine (hlane hi).trans ?_
    rw [if_pos ha, randValue, if_neg (by simp [hty])]
    rfl
  · refine (hlane hi).trans ?_
    rw [if_pos ha, randValue, if_pos hty, Nat.shiftRight_eq_div_pow]
    rfl

/-- Settles O35: conversions by the lanes of their group, each VCVT lane by the rounding of the exact value, random lanes by the
fold of the draws. -/
theorem conversionResults : Obligations.ConversionResults := ⟨conversions_hold, convertedLanes_hold, randomLanes_hold⟩

end Sys2Proof.Proofs
end

section
/-! PROOFS. Writes at a home: what bytes read afterwards, and what a write leaves as it was (R123, R190, R205, R317, R391). -/

namespace Sys2Proof.Proofs

open Machine Oblig

/-! ### Bytes and numbers -/

theorem leBytes_length (n v : ℕ) : (leBytes n v).length = n := by
  induction n generalizing v with
  | zero => rfl
  | succ n ih => simp [leBytes, ih]

theorem leNat_leBytes (n v : ℕ) : leNat (leBytes n v) = v % 2 ^ (8 * n) := by
  induction n generalizing v with
  | zero => simp [leBytes, leNat, Nat.mod_one]
  | succ n ih =>
    rw [leBytes, leNat, ih, BitVec.toNat_ofNat, Nat.shiftRight_eq_div_pow, mul_add, mul_one, add_comm (8 * n), pow_add, Nat.mod_mul]
    rfl

/-! ### What a write at a home leaves -/

/-- From s to u, of strands only reservations differ, and no cluster and not the party that issues: what a write at a home and a
wake leave. -/
structure HomeOnly (s u : State) : Prop where
  cur : u.cur = s.cur
  clusters : u.clusters = s.clusters
  strands : ∀ k t, findStrand s k = some t → ∃ r, findStrand u k = some { t with resv := r }

theorem HomeOnly.refl (s : State) : HomeOnly s s := ⟨rfl, rfl, fun _ t h => ⟨t.resv, h⟩⟩

theorem HomeOnly.trans {s u v : State} (h : HomeOnly s u) (h' : HomeOnly u v) : HomeOnly s v where
  cur := h'.cur.trans h.cur
  clusters := h'.clusters.trans h.clusters
  strands := fun k t ht => by
    obtain ⟨r, hr⟩ := h.strands k t ht
    obtain ⟨r', hr'⟩ := h'.strands k _ hr
    exact ⟨r', hr'⟩

/-- A change of anything but strands, clusters and the party. -/
theorem HomeOnly.of_eq {s u : State} (hs : u.strands = s.strands) (hc : u.clusters = s.clusters) (hcur : u.cur = s.cur) : HomeOnly s u :=
  ⟨hcur, hc, fun k t h => ⟨t.resv, by rw [findStrand, hs]; exact h⟩⟩

theorem findStrand_breakResv (s : State) (sp : Space) (a n : ℕ) (k : StrandKey) :
    findStrand (breakResv s sp a n) k = (findStrand s k).map (fun t => { t with resv := dropResv sp a n t.resv }) := by
  simp only [findStrand, breakResv, List.find?_map]
  rfl

theorem homeOnly_breakResv (s : State) (sp : Space) (a n : ℕ) : HomeOnly s (breakResv s sp a n) :=
  ⟨rfl, rfl, fun k t h => ⟨_, by rw [findStrand_breakResv, h]; rfl⟩⟩

theorem homeOnly_poke (s : State) (sp : Space) (a : ℕ) (bs : List Byte) : HomeOnly s (poke s sp a bs) :=
  .of_eq (by simp [poke]) (by simp [poke]) (by simp [poke])

theorem homeOnly_pokeKeep (s : State) (sp : Space) (a : ℕ) (bs : List Byte) : HomeOnly s (pokeKeep s sp a bs) :=
  .of_eq (by simp [pokeKeep]) (by simp [pokeKeep]) (by simp [pokeKeep])

/-- A new owner changes cores and owners alone. -/
theorem setOwner_parts (s : State) (who a n : ℕ) : ∃ c o, setOwner s who a n = { s with cores := c, owner := o } := by
  unfold setOwner
  split
  · exact ⟨s.cores, s.owner, rfl⟩
  · refine forUpTo_keeps (fun u : State => ∃ c o, u = { s with cores := c, owner := o }) _ _ _ ⟨s.cores, s.owner, rfl⟩ ?_
    rintro i _ ⟨c, o, rfl⟩
    dsimp only
    split
    · exact ⟨_, _, rfl⟩
    · exact ⟨_, _, rfl⟩

theorem homeOnly_setOwner (s : State) (who a n : ℕ) : HomeOnly s (setOwner s who a n) := by
  obtain ⟨c, o, h⟩ := setOwner_parts s who a n
  rw [h]
  exact .of_eq rfl rfl rfl

theorem homeOnly_writeHome (s : State) (sp : Space) (a : ℕ) (bs : List Byte) : HomeOnly s (writeHome s sp a bs) := by
  have h := (homeOnly_poke s sp a bs).trans (homeOnly_breakResv _ sp a bs.length)
  unfold writeHome
  split
  · exact h.trans (homeOnly_setOwner _ _ _ _)
  · exact h

theorem homeOnly_updateHome (s : State) (sp : Space) (a : ℕ) (bs : List Byte) : HomeOnly s (updateHome s sp a bs) := by
  have h := (homeOnly_pokeKeep s sp a bs).trans (homeOnly_breakResv _ sp a bs.length)
  unfold updateHome
  split
  · exact h.trans (homeOnly_setOwner _ _ _ _)
  · exact h

theorem homeOnly_writeLocs (s : State) (ls : List Loc) (bs : List Byte) : HomeOnly s (writeLocs s ls bs) := by
  unfold writeLocs
  generalize runs ls = rs
  induction rs generalizing s bs with
  | nil => exact .refl s
  | cons r rs ih => exact (homeOnly_writeHome s _ _ _).trans (ih _ _)

/-! ### Waking -/

/-- From s to u only cores differ. -/
def CoresOnly (s u : State) : Prop := ∃ c, u = { s with cores := c }

theorem CoresOnly.homeOnly {s u : State} (h : CoresOnly s u) : HomeOnly s u := by
  obtain ⟨c, rfl⟩ := h
  exact .of_eq rfl rfl rfl

theorem CoresOnly.peek {s u : State} (h : CoresOnly s u) (sp : Space) (a : ℕ) : Machine.peek u sp a = Machine.peek s sp a := by
  obtain ⟨c, rfl⟩ := h
  cases sp <;> rfl

theorem CoresOnly.poisoned {s u : State} (h : CoresOnly s u) (sp : Space) (a n : ℕ) :
    Machine.poisoned u sp a n = Machine.poisoned s sp a n := by
  obtain ⟨c, rfl⟩ := h
  cases sp <;> rfl

theorem CoresOnly.foldl {α : Type} {s : State} (f : State → α → State) (hf : ∀ u a, CoresOnly u (f u a)) (l : List α) :
    CoresOnly s (l.foldl f s) := by
  refine foldl_keeps (CoresOnly s) l s f ⟨s.cores, rfl⟩ ?_
  rintro _ a ⟨c, rfl⟩
  obtain ⟨c', h'⟩ := hf { s with cores := c } a
  exact ⟨c', h'⟩

theorem coresOnly_wakeLoc (s : State) (l : Loc) : CoresOnly s (wakeLoc s l) := by
  unfold wakeLoc
  split
  · exact ⟨_, rfl⟩
  · exact ⟨s.cores, rfl⟩

theorem coresOnly_wakeLocs (s : State) (ls : List Loc) : CoresOnly s (wakeLocs s ls) :=
  CoresOnly.foldl _ (fun _ _ => CoresOnly.foldl _ (fun v _ => coresOnly_wakeLoc v _) _) _

/-! ### What bytes read after a write -/

theorem peek_breakResv (s : State) (sp sp' : Space) (a n j : ℕ) : peek (breakResv s sp a n) sp' j = peek s sp' j := by
  cases sp' <;> rfl

theorem peek_setOwner (s : State) (who a n : ℕ) (sp : Space) (j : ℕ) : peek (setOwner s who a n) sp j = peek s sp j := by
  obtain ⟨c, o, h⟩ := setOwner_parts s who a n
  rw [h]
  cases sp <;> rfl

theorem peek_writeHome (s : State) (sp sp' : Space) (a j : ℕ) (bs : List Byte) :
    peek (writeHome s sp a bs) sp' j = if sp' = sp ∧ a ≤ j ∧ j < a + bs.length then bs.getD (j - a) 0 else peek s sp' j := by
  rw [← peek_poke, ← peek_breakResv (poke s sp a bs) sp sp' a bs.length j]
  unfold writeHome
  split
  · exact peek_setOwner _ _ _ _ _ _
  · rfl

theorem peek_updateHome (s : State) (sp sp' : Space) (a j : ℕ) (bs : List Byte) :
    peek (updateHome s sp a bs) sp' j = if sp' = sp ∧ a ≤ j ∧ j < a + bs.length then bs.getD (j - a) 0 else peek s sp' j := by
  rw [← peek_pokeKeep, ← peek_breakResv (pokeKeep s sp a bs) sp sp' a bs.length j]
  unfold updateHome
  split
  · exact peek_setOwner _ _ _ _ _ _
  · rfl

/-- The bytes of a run, lowest first. -/
def runLocs (r : Space × ℕ × ℕ) : List Loc := (List.range r.2.2).map (fun i => (r.1, r.2.1 + i))

theorem mem_runLocs (r : Space × ℕ × ℕ) (l : Loc) : l ∈ runLocs r ↔ l.1 = r.1 ∧ r.2.1 ≤ l.2 ∧ l.2 < r.2.1 + r.2.2 := by
  obtain ⟨sp, a⟩ := l
  simp only [runLocs, List.mem_map, List.mem_range, Prod.mk.injEq]
  constructor
  · rintro ⟨i, hi, hsp, rfl⟩
    exact ⟨hsp.symm, by omega, by omega⟩
  · rintro ⟨hsp, hlo, hhi⟩
    exact ⟨a - r.2.1, by omega, hsp.symm, by omega⟩

theorem runLocs_length (r : Space × ℕ × ℕ) : (runLocs r).length = r.2.2 := by rw [runLocs, List.length_map, List.length_range]

/-- Runs hold the located bytes, in their order. -/
theorem flatMap_runs (ls : List Loc) : (runs ls).flatMap runLocs = ls := by
  induction ls with
  | nil => rfl
  | cons l ls ih =>
    obtain ⟨sp, a⟩ := l
    have hone : runLocs (sp, a, 1) = [(sp, a)] := rfl
    simp only [runs]
    split
    · next sp2 b n r hr =>
      rw [hr] at ih
      split
      · next hnext =>
        obtain ⟨rfl, rfl⟩ : sp = sp2 ∧ b = a + 1 := by simpa using hnext
        have hcons : runLocs (sp, a, n + 1) = (sp, a) :: runLocs (sp, a + 1, n) := by
          simp only [runLocs, List.range_succ_eq_map, List.map_cons, List.map_map, Nat.add_zero, List.cons.injEq, true_and]
          exact List.map_congr_left (fun i _ => by simp only [Function.comp_apply, Prod.mk.injEq, true_and]; omega)
        rw [List.flatMap_cons, hcons, ← ih, List.flatMap_cons, List.cons_append]
      · rw [List.flatMap_cons, hone, ih, List.singleton_append]
    · next hr =>
      rw [hr] at ih
      rw [List.flatMap_cons, hone, List.flatMap_nil, ← ih, List.flatMap_nil, List.append_nil]

/-- What the byte of a location is. -/
def peekLoc (s : State) (l : Loc) : Byte := peek s l.1 l.2

theorem map_peekLoc_writeHome (s : State) (r : Space × ℕ × ℕ) (bs : List Byte) (h : bs.length = r.2.2) :
    (runLocs r).map (peekLoc (writeHome s r.1 r.2.1 bs)) = bs := by
  refine List.ext_getElem (by simp [runLocs, h]) (fun i hi hb => ?_)
  simp only [runLocs, List.map_map, List.getElem_map, List.getElem_range, Function.comp_apply, peekLoc]
  rw [peek_writeHome, if_pos ⟨rfl, by omega, by omega⟩, Nat.add_sub_cancel_left, List.getD_eq_getElem _ _ hb]

theorem peek_writeRuns_of_notMem (rs : List (Space × ℕ × ℕ)) (bs : List Byte) (s : State) (l : Loc)
    (hlen : bs.length = (rs.flatMap runLocs).length) (h : l ∉ rs.flatMap runLocs) :
    peekLoc (writeRuns writeHome rs bs s) l = peekLoc s l := by
  induction rs generalizing bs s with
  | nil => rfl
  | cons r rs ih =>
    obtain ⟨sp, a, n⟩ := r
    have hrun : (runLocs (sp, a, n)).length = n := runLocs_length _
    rw [List.flatMap_cons, List.mem_append, not_or, mem_runLocs] at h
    obtain ⟨hr, hrs⟩ := h
    rw [List.flatMap_cons, List.length_append, hrun] at hlen
    rw [writeRuns, ih _ _ (by rw [List.length_drop]; omega) hrs, peekLoc, peek_writeHome, if_neg, peekLoc]
    rw [List.length_take, Nat.min_eq_left (by omega)]
    exact hr

theorem map_peekLoc_writeRuns (rs : List (Space × ℕ × ℕ)) (bs : List Byte) (s : State)
    (hlen : bs.length = (rs.flatMap runLocs).length) (h : (rs.flatMap runLocs).Nodup) :
    (rs.flatMap runLocs).map (peekLoc (writeRuns writeHome rs bs s)) = bs := by
  induction rs generalizing bs s with
  | nil => exact (List.length_eq_zero_iff.mp hlen).symm
  | cons r rs ih =>
    obtain ⟨sp, a, n⟩ := r
    have hrun : (runLocs (sp, a, n)).length = n := runLocs_length _
    rw [List.flatMap_cons, List.length_append, hrun] at hlen
    rw [List.flatMap_cons, List.nodup_append] at h
    obtain ⟨-, hrs, hdisj⟩ := h
    have hdrop : (bs.drop n).length = (rs.flatMap runLocs).length := by rw [List.length_drop]; omega
    rw [List.flatMap_cons, List.map_append, writeRuns, ih _ _ hdrop hrs]
    have hown := map_peekLoc_writeHome s (sp, a, n) (bs.take n) (by rw [List.length_take]; exact Nat.min_eq_left (by omega))
    have hfirst : (runLocs (sp, a, n)).map (peekLoc (writeRuns writeHome rs (bs.drop n) (writeHome s sp a (bs.take n)))) =
        (runLocs (sp, a, n)).map (peekLoc (writeHome s sp a (bs.take n))) :=
      List.map_congr_left (fun l hl => peek_writeRuns_of_notMem rs _ _ l hdrop (fun hm => hdisj l hl l hm rfl))
    rw [hfirst, hown, List.take_append_drop]

/-- Distinct located bytes read what has been written to them. -/
theorem map_peekLoc_writeLocs (s : State) (ls : List Loc) (bs : List Byte) (hlen : bs.length = ls.length) (h : ls.Nodup) :
    ls.map (peekLoc (writeLocs s ls bs)) = bs := by
  have hruns := flatMap_runs ls
  have := map_peekLoc_writeRuns (runs ls) bs s (by rw [hruns, hlen]) (by rwa [hruns])
  rwa [hruns] at this

theorem peekLoc_writeLocs_of_notMem (s : State) (ls : List Loc) (bs : List Byte) (l : Loc) (hlen : bs.length = ls.length) (h : l ∉ ls) :
    peekLoc (writeLocs s ls bs) l = peekLoc s l :=
  peek_writeRuns_of_notMem (runs ls) bs s l (by rw [flatMap_runs, hlen]) (by rwa [flatMap_runs])

/-! ### Poison after a write -/

/-- No byte is poisoned in u that is not in s. -/
def NoNewPoison (s u : State) : Prop := ∀ sp a n, poisoned s sp a n = false → poisoned u sp a n = false

theorem NoNewPoison.trans {s u v : State} (h : NoNewPoison s u) (h' : NoNewPoison u v) : NoNewPoison s v :=
  fun sp a n hp => h' sp a n (h sp a n hp)

theorem CoresOnly.noNewPoison {s u : State} (h : CoresOnly s u) : NoNewPoison s u := fun sp a n hp => by rwa [h.poisoned]

theorem noNewPoison_of_badOf {s u : State} (h : ∀ sp, badOf u sp ⊆ badOf s sp) : NoNewPoison s u := by
  intro sp a n hp
  rw [poisoned, Bool.and_eq_false_iff] at hp ⊢
  refine hp.imp_right (fun hany => ?_)
  rw [List.any_eq_false] at hany ⊢
  exact fun e he => hany e (h sp he)

theorem badOf_setOwner (s : State) (who a n : ℕ) (sp : Space) : badOf (setOwner s who a n) sp = badOf s sp := by
  obtain ⟨c, o, h⟩ := setOwner_parts s who a n
  rw [h]
  cases sp <;> rfl

theorem badOf_writeHome (s : State) (sp sp' : Space) (a : ℕ) (bs : List Byte) :
    badOf (writeHome s sp a bs) sp' = if sp' = sp then clearPoison (badOf s sp) a bs.length else badOf s sp' := by
  have hbreak : badOf (breakResv (poke s sp a bs) sp a bs.length) sp' =
      if sp' = sp then clearPoison (badOf s sp) a bs.length else badOf s sp' := by
    cases sp <;> cases sp' <;> rfl
  unfold writeHome
  split
  · rw [badOf_setOwner, hbreak]
  · exact hbreak

theorem noNewPoison_writeHome (s : State) (sp : Space) (a : ℕ) (bs : List Byte) : NoNewPoison s (writeHome s sp a bs) := by
  refine noNewPoison_of_badOf (fun sp' => ?_)
  rw [badOf_writeHome]
  split
  · next h => rw [h]; exact fun e he => List.mem_of_mem_filter he
  · exact fun _ h => h

theorem noNewPoison_updateHome (s : State) (sp : Space) (a : ℕ) (bs : List Byte) : NoNewPoison s (updateHome s sp a bs) := by
  refine noNewPoison_of_badOf (fun sp' => ?_)
  have hbreak : badOf (breakResv (pokeKeep s sp a bs) sp a bs.length) sp' = badOf s sp' := by cases sp <;> cases sp' <;> rfl
  unfold updateHome
  split
  · rw [badOf_setOwner, hbreak]; exact fun _ h => h
  · rw [hbreak]; exact fun _ h => h

theorem noNewPoison_writeLocs (s : State) (ls : List Loc) (bs : List Byte) : NoNewPoison s (writeLocs s ls bs) := by
  unfold writeLocs
  generalize runs ls = rs
  induction rs generalizing s bs with
  | nil => exact fun _ _ _ h => h
  | cons r rs ih => exact (noNewPoison_writeHome s _ _ _).trans (ih _ _)

/-! ### Scratch ranges -/

theorem scratchLocs_eq (core : ℕ) (gs : List ℕ) (off n : ℕ) :
    scratchLocs core gs off n = (List.range n).map (fun i => (Space.spad, scratchAddr core gs (off + i))) := tabulate_eq _ _

theorem scratchLocs_length (core : ℕ) (gs : List ℕ) (off n : ℕ) : (scratchLocs core gs off n).length = n := by
  rw [scratchLocs_eq, List.length_map, List.length_range]

theorem spad_of_mem_scratchLocs {core : ℕ} {gs : List ℕ} {off n : ℕ} {l : Loc} (h : l ∈ scratchLocs core gs off n) : l.1 = .spad := by
  rw [scratchLocs_eq, List.mem_map] at h
  obtain ⟨i, -, rfl⟩ := h
  rfl

/-- The STATE word of a request block stands in one granule: its bytes are distinct. -/
theorem stateWord_nodup (core : ℕ) (gs : List ℕ) (off : ℕ) (h : off % 64 = 0) : (scratchLocs core gs (off + 4) 4).Nodup := by
  have haddr (i : ℕ) (hi : i < 4) : scratchAddr core gs (off + 4 + i) =
      core * 196608 + gs.getD (off / 12288) 0 * 12288 + (off % 12288 + 4 + i) := by
    have hgran : (off + 4 + i) / 12288 = off / 12288 := by omega
    have hoff : (off + 4 + i) % 12288 = off % 12288 + 4 + i := by omega
    show core * 196608 + gs.getD ((off + 4 + i) / 12288) 0 * 12288 + (off + 4 + i) % 12288 = _
    rw [hgran, hoff]
  rw [scratchLocs_eq]
  refine List.Nodup.map_on (fun i hi j hj he => ?_) List.nodup_range
  have he' := (Prod.mk.injEq ..).mp he |>.2
  rw [haddr i (List.mem_range.mp hi), haddr j (List.mem_range.mp hj)] at he'
  omega

end Sys2Proof.Proofs
end

section
/-! PROOFS. XREQ, XPOLL and XWAIT (R228 to R235). -/

namespace Sys2Proof.Proofs

open Machine Oblig

/-! ### Loads of scratch bytes -/

theorem segCheck_scratch {t : Strand} {ea : Word} {n : ℕ} {acc : Access} {eng wgt : Bool} {tg : Target}
    (hk : dKind (segOf t ea) = kScratch) (h : segCheck t ea n acc eng wgt = .ok tg) : tg = .scratch (offOf ea) := by
  have hpeer : (kScratch = kPeer) = False := eq_false (by decide)
  have hweight : (kScratch = kWeight) = False := eq_false (by decide)
  unfold segCheck at h
  simp only [hk, hpeer, hweight, decide_false, Bool.false_and, Bool.false_eq_true, if_false, if_true] at h
  split at h
  · cases h
  · split at h
    · cases h
    · split at h
      · cases h
      · exact (Except.ok.inj h).symm

theorem locate_scratch {s s1 : State} {t : Strand} {ea : Word} {n : ℕ} {acc : Access} {ls : List Loc}
    (hk : dKind (segOf t ea) = kScratch) (h : locate s t ea n acc = .ok (ls, s1)) :
    ls = scratchLocs t.core t.granules (offOf ea) n ∧ s1 = s := by
  unfold locate at h
  cases hseg : segCheck t ea n acc false false with
  | error e => simp [hseg] at h
  | ok tg =>
    rw [hseg, segCheck_scratch hk hseg] at h
    dsimp only [unlessHeld] at h
    split at h
    · cases h
    · obtain ⟨rfl, rfl⟩ := (Prod.mk.injEq ..).mp (Except.ok.inj h)
      exact ⟨rfl, rfl⟩

theorem devWords_of_spad {ls : List Loc} (h : ∀ l ∈ ls, l.1 = .spad) : devWords ls = [] := by
  have hnone : ls.filter (fun l => decide (l.1 = .dev)) = [] := List.filter_eq_nil_iff.mpr (fun l hl => by simp [h l hl])
  rw [devWords, hnone]
  rfl

/-- A load of scratch bytes changes cores alone: the granules that wake. -/
theorem loadLocs_scratch {s s1 : State} {core : ℕ} {ls : List Loc} {bs : List Byte} (hls : ∀ l ∈ ls, l.1 = .spad)
    (h : loadLocs core s ls = some (bs, s1)) : CoresOnly s s1 := by
  unfold loadLocs at h
  rw [devWords_of_spad hls] at h
  have hlines : l1Lines core [] ((([] : List ℕ).map (· / 8)).eraseDups) s = some s := rfl
  simp only [hlines] at h
  split at h
  · cases h
  · obtain ⟨-, rfl⟩ := (Prod.mk.injEq ..).mp (Option.some.inj h)
    exact CoresOnly.foldl _ coresOnly_wakeLoc _

theorem loadAs_scratch {s s1 : State} {t : Strand} {ea : Word} {n : ℕ} {bs : List Byte} (hk : dKind (segOf t ea) = kScratch)
    (h : loadAs s t ea n = .ok (bs, s1)) : CoresOnly s s1 := by
  unfold loadAs at h
  cases hloc : locate s t ea n .load with
  | error e => simp [hloc] at h
  | ok r =>
    obtain ⟨ls, s2⟩ := r
    obtain ⟨rfl, rfl⟩ := locate_scratch hk hloc
    rw [hloc] at h
    dsimp only at h
    split at h
    · cases h
    · next r hr =>
      rw [Except.ok.inj h] at hr
      exact loadLocs_scratch (fun l hl => spad_of_mem_scratchLocs hl) hr

/-! ### A GPR written at the end of an instruction -/

/-- What reading a GPR looks at, the life, and where the strand stands, are as they were. -/
structure SameParty (t u : Strand) : Prop where
  x : u.x = t.x
  dead : u.dead = t.dead
  life : u.life = t.life
  flow : SameFlow t u

theorem gx_congr {t u : Strand} (hx : u.x = t.x) (hd : u.dead = t.dead) (r : ℕ) : gx u r = gx t r := by rw [gx, gx, hx, hd]

theorem sx_parts (t : Strand) (r : ℕ) (v : Word) : sx t r v = { t with x := (sx t r v).x, dead := (sx t r v).dead } := by
  unfold sx
  split <;> rfl

theorem gpr_truncate {rd : BitVec 6} (h : rd.toNat < 32) : (rd.truncate 5).toNat = rd.toNat := by
  rw [BitVec.truncate_eq_setWidth, BitVec.toNat_setWidth, Nat.mod_eq_of_lt (by simpa using h)]

/-- What the strand that issues has become where it has written a GPR and goes on. -/
def wroteGpr (rd : ℕ) (v : Word) (len : ℕ) (t : Strand) : Strand := advance (sx t rd v) len .seq

/-- The end of an instruction that writes a GPR of the strand. -/
theorem retire_gpr {u : State} {k : StrandKey} (rd : ℕ) (v : Word) (len : ℕ) (hcur : u.cur = .strand k) :
    retire len (.ok (setStrand u k (fun t => sx t rd v)) .seq) = .next (setStrand u k (wroteGpr rd v len)) := by
  simp only [retire, complete, setStrand_cur, hcur]
  rw [setStrand_setStrand u k _ _ (fun t ht => by rw [sx_key, ht])]
  rfl

theorem regStep_gpr {s u : State} {t t1 : Strand} {rd : BitVec 6} (v : Word) (len : ℕ) (h : Issues s t) (hrd : rd.toNat < 32)
    (hcur : u.cur = s.cur) (hfind : findStrand u t.key = some t1) (hsame : SameParty t t1) :
    RegStep s (setStrand u t.key (wroteGpr rd.toNat v len)) (rd.truncate 5) v len := by
  obtain ⟨hscur, hsfind⟩ := h
  have hkey : ∀ w : Strand, w.key = t.key → (wroteGpr rd.toNat v len w).key = t.key := fun w hw => by
    rw [wroteGpr, advance_key, sx_key, hw]
  have hfind' : findStrand (setStrand u t.key (wroteGpr rd.toNat v len)) t.key = some (wroteGpr rd.toNat v len t1) := by
    rw [findStrand_setStrand u t.key _ hkey, hfind]
    rfl
  have hadv := advance_frame (sx t1 rd.toNat v) len .seq
  have hsx := sx_parts t1 rd.toNat v
  refine ⟨hcur, fun r => ?_, ?_⟩
  · have hread : xGet (setStrand u t.key (wroteGpr rd.toNat v len)) r = gx (sx t1 rd.toNat v) r.toNat := by
      simp only [xGet, setStrand_cur, hcur, hscur, strandOf_eq hfind', wroteGpr]
      rw [hadv]
      exact gx_congr rfl rfl _
    have hbase : xGet s r = gx t1 r.toNat := by
      simp only [xGet, hscur, strandOf_eq hsfind]
      exact (gx_congr hsame.x hsame.dead _).symm
    have hiff : (r = rd.truncate 5 ∧ rd.truncate 5 ≠ 0) ↔ (r.toNat = rd.toNat ∧ rd.toNat ≠ 0) := by
      rw [← BitVec.toNat_inj, gpr_truncate hrd, ne_eq, ← BitVec.toNat_inj, gpr_truncate hrd]
      rfl
    rw [hread, hbase, gx_sx t1 rd.toNat r.toNat v hrd r.isLt]
    simp only [hiff]
  · rw [hscur]
    refine ⟨t, _, hsfind, hfind', goesOn_advance len ?_, ?_⟩
    · rw [hsx]
      exact hsame.flow
    · rw [wroteGpr, hadv, hsx]
      exact hsame.life

theorem HomeOnly.sameParty {s u : State} {t : Strand} (hu : HomeOnly s u) (h : findStrand s t.key = some t) :
    ∃ t1, findStrand u t.key = some t1 ∧ SameParty t t1 := by
  obtain ⟨r, hr⟩ := hu.strands _ _ h
  exact ⟨_, hr, rfl, rfl, rfl, rfl, rfl, rfl, rfl, rfl⟩

theorem peek_setStrand (s : State) (k : StrandKey) (g : Strand → Strand) (sp : Space) (a : ℕ) :
    peek (setStrand s k g) sp a = peek s sp a := by
  cases sp <;> rfl

/-- An instruction that reads, writes one GPR, and goes on. -/
theorem regOnly_of_cores {s u : State} {t : Strand} {rd : BitVec 6} (v : Word) {o : Answer} (h : Issues s t) (hrd : rd.toNat < 32)
    (hu : CoresOnly s u) (ho : o = retire 12 (.ok (setStrand u t.key (fun t => sx t rd.toNat v)) .seq)) : RegOnly s o rd v := by
  obtain ⟨t1, hfind, hsame⟩ := hu.homeOnly.sameParty h.2
  have hcur : u.cur = s.cur := hu.homeOnly.cur
  refine ⟨_, ho.trans (retire_gpr _ _ _ (hcur.trans h.1)), regStep_gpr v 12 h hrd hcur hfind hsame, fun sp a => ?_⟩
  rw [peek_setStrand, hu.peek]

/-! ### The checks of XFORM -/

theorem gpr_of_xformOk {fn : ℕ} {f : X96} (h : xformOk fn f = true) : f.vd.toNat < 32 := by
  have hg : isGpr f.vd = true := by
    simp only [xformOk, Bool.and_eq_true] at h
    exact h.1.2
  simpa [isGpr] using hg

/-- STATE as XPOLL and XWAIT see it. -/
theorem xState_eq (s : State) (t : Strand) (ptr : Word) :
    xState s t ptr = match (clusterOf s (t.core / 8)).xq.find? (fun q => q.key = t.key ∧ q.ptr = BitVec.ofNat 64 (2 ^ 60 + ptr.toNat % 2 ^ 60)) with
      | some q => q.state
      | none => leNat ((scratchLocs t.core t.granules (ptr.toNat % 2 ^ 60 + 4) 4).map (fun l => peek s l.1 l.2)) := by
  have hfind : (xformsOf s t).find? (fun q => q.ptr = blockPtr ptr) =
      (clusterOf s (t.core / 8)).xq.find? (fun q => q.key = t.key ∧ q.ptr = BitVec.ofNat 64 (2 ^ 60 + ptr.toNat % 2 ^ 60)) := by
    rw [xformsOf, List.find?_filter]
    congr 1
    funext q
    simp only [Bool.decide_and, decide_eq_true_eq]
    rfl
  rw [xState, hfind]
  cases (clusterOf s (t.core / 8)).xq.find? (fun q => q.key = t.key ∧ q.ptr = BitVec.ofNat 64 (2 ^ 60 + ptr.toNat % 2 ^ 60)) with
  | none => rfl
  | some q => rfl

theorem xBlockRead_ok {s s1 : State} {t : Strand} {ptr : Word} {bs : List Byte} (hk : dKind (segOf t ptr) = 1)
    (h : loadAs s t ptr 64 = .ok (bs, s1)) : xBlockRead s t ptr = .ok s1 := by
  rw [xBlockRead, if_neg (show ¬ dKind (segOf t ptr) ≠ kScratch from not_not_intro hk), h]

/-! ### XPOLL and XWAIT -/

theorem xpoll_answers {s s1 : State} {t : Strand} {f : X96} {bs : List Byte} (h : Issues s t) (ha : activeScalar t f = true)
    (hok : formOk (.xpoll f) = true) (hk : dKind (segOf t (xPointer t f)) = 1) (hl : loadAs s t (xPointer t f) 64 = .ok (bs, s1)) :
    RegOnly s (exec (.xpoll f) s) f.vd (BitVec.ofNat 64 (xState s t (xPointer t f))) := by
  refine regOnly_of_cores _ h (gpr_of_xformOk (fn := 1) hok) (loadAs_scratch hk hl) ?_
  refine (runStrand_eq _ h.1 h.2 hok).trans ?_
  simp only [ha, Bool.not_true, Bool.false_eq_true, if_false, xBlockRead_ok hk hl]
  rfl

theorem exec_xwait {s s1 : State} {t : Strand} {f : X96} {bs : List Byte} (h : Issues s t) (ha : activeScalar t f = true)
    (hok : formOk (.xwait f) = true) (hk : dKind (segOf t (xPointer t f)) = 1) (hl : loadAs s t (xPointer t f) 64 = .ok (bs, s1)) :
    exec (.xwait f) s = retire 12 (
      if xState s t (xPointer t f) = 1 || xState s t (xPointer t f) = 2 then .wait s1 (.xwait (f.vd.truncate 5) (xPointer t f))
      else if xState s t (xPointer t f) = 5 then .trap s1 (xError t (xPointer t f))
      else .ok (setStrand (if xState s t (xPointer t f) = 0 then s1 else acquire s1 t.core) t.key (fun u =>
        sx u f.vd.toNat (BitVec.ofNat 64 (xState s t (xPointer t f))))) .seq) := by
  refine (runStrand_eq _ h.1 h.2 hok).trans ?_
  simp only [ha, Bool.not_true, Bool.false_eq_true, if_false, waitXform, xBlockRead_ok hk hl,
    gpr_truncate (gpr_of_xformOk (fn := 2) hok)]
  rfl

theorem blocks_blockCur {s : State} {t : Strand} (len : ℕ) (w : Wait) (h : Issues s t) :
    Blocks (blockCur s len w) t ∧ SameBytes s (blockCur s len w) := by
  obtain ⟨hcur, hfind⟩ := h
  have hblock : blockCur s len w = setStrand s t.key (fun t => { t with
      life := .blocked, wait := some (len, w), waitSince := now s t.core, blockedAt := now s t.core }) := by
    simp only [blockCur, hcur]
  rw [hblock]
  refine ⟨⟨{ t with life := .blocked, wait := some (len, w), waitSince := now s t.core, blockedAt := now s t.core }, ?_, rfl, rfl, rfl⟩,
    fun sp a => peek_setStrand _ _ _ _ _⟩
  refine (findStrand_setStrand s t.key _ ?_).trans ?_
  · exact fun _ hu => hu
  · rw [hfind]
    rfl

theorem CoresOnly.issues {s u : State} {t : Strand} (hc : CoresOnly s u) (h : Issues s t) : Issues u t := by
  obtain ⟨c, rfl⟩ := hc
  exact h

theorem acquire_coresOnly (s : State) (core : ℕ) : CoresOnly s (acquire s core) := ⟨_, rfl⟩

/-- After an acquire a core's L1 holds words that the core owns, and no other. -/
theorem own_of_mem_acquire (s : State) (core : ℕ) : ∀ e ∈ (coreOf (acquire s core) core).l1, e.2.own = true := by
  intro e he
  simp only [acquire, setCore, coreOf, tget_tins_self, List.mem_map, List.mem_filter] at he
  obtain ⟨w, ⟨-, hown⟩, rfl⟩ := he
  split
  · exact hown
  · exact hown

theorem setCore_setCore (s : State) (k : ℕ) (f g : Core → Core) : setCore (setCore s k f) k g = setCore s k (fun c => g (f c)) := by
  simp only [setCore, tget_tins_self, tins_tins]

/-- A strand that takes a trap of which nothing is logged. -/
theorem traps_trapCur {s : State} {t : Strand} (len : ℕ) (tr : Trap) (h : Issues s t) (hnote : tr.note = none) (hstall : tr.stall = false) :
    Traps s (retire len (.trap s tr)) t tr.cause tr.tval tr.fetch := by
  obtain ⟨hcur, hfind⟩ := h
  have hpacket : packetOf s t tr = packetFor s t tr.cause tr.tval tr.fetch := by
    simp only [packetOf, packetFor, Packet.mk.injEq, true_and, and_true]
    exact ⟨(Nat.add_assoc _ _ _).symm, rfl⟩
  have hsaving (p : Packet) (g : Strand → Strand) : setCore (setStrand (clearSaving s t) t.key g) t.core (fun c => { c with outq := c.outq ++ [p] }) =
      setCore (setStrand s t.key g) t.core (fun c => { c with
        outq := c.outq ++ [p], savingBits := if t.saving.isSome then c.savingBits &&& ~~~(1#4 <<< (t.slot % 4)) else c.savingBits }) := by
    by_cases hs : t.saving.isSome = true
    · simp only [clearSaving, hs, if_true]
      exact setCore_setCore (setStrand s t.key g) t.core (fun c => { c with savingBits := setBit4 c.savingBits (slotBit t) false })
        (fun c => { c with outq := c.outq ++ [p] })
    · simp only [clearSaving, hs, if_false, Bool.false_eq_true]
  refine ⟨freeze s t tr, ?_, ?_, fun hrep hrec => ?_⟩
  · have hframe : setStrand s t.key (fun u => freeze s u tr) = setStrand s t.key (fun _ => freeze s t tr) := setStrand_congr hfind rfl
    simp only [retire, hstall, Bool.false_eq_true, if_false, trapCur, hcur, takeTrap, hfind, noteTrap, hnote, Option.elim_none, sendPacket,
      hsaving, hframe, hpacket]
    rfl
  · rw [← hpacket]
    rfl
  · simp only [freeze, hrec, Bool.false_eq_true, if_false, repstOf, hrep]

theorem xwait_answers {s s1 : State} {t : Strand} {f : X96} {bs : List Byte} (h : Issues s t) (ha : activeScalar t f = true)
    (hok : formOk (.xwait f) = true) (hk : dKind (segOf t (xPointer t f)) = 1) (hl : loadAs s t (xPointer t f) 64 = .ok (bs, s1)) :
    let st := xState s t (xPointer t f)
    (st = 1 ∨ st = 2 → ∃ u, exec (.xwait f) s = .next u ∧ Blocks u t ∧ SameBytes s u) ∧
    (st = 0 → RegOnly s (exec (.xwait f) s) f.vd 0) ∧
    (st ∉ [0, 1, 2, 5] → ∃ u, exec (.xwait f) s = .next u ∧ RegStep s u (f.vd.truncate 5) (BitVec.ofNat 64 st) 12 ∧ SameBytes s u ∧
      ∀ e ∈ (coreOf u t.core).l1, e.2.own = true) ∧
    (∀ e, st = 5 → t.xerrors.find? (fun x => x.1 = blockPtr (xPointer t f)) = some e →
      Traps s1 (exec (.xwait f) s) t e.2.1.toNat e.2.2 false) := by
  have hvd := gpr_of_xformOk (fn := 2) hok
  have hs1 := loadAs_scratch hk hl
  have hissues := hs1.issues h
  rw [exec_xwait h ha hok hk hl]
  generalize xState s t (xPointer t f) = st
  refine ⟨fun hst => ?_, fun hst => ?_, fun hst => ?_, fun e hst he => ?_⟩
  · rw [if_pos (by simpa using hst)]
    obtain ⟨hblocks, hbytes⟩ := blocks_blockCur 12 (.xwait (f.vd.truncate 5) (xPointer t f)) hissues
    exact ⟨_, rfl, hblocks, fun sp a => (hbytes sp a).trans (hs1.peek sp a)⟩
  · subst hst
    exact regOnly_of_cores 0 h hvd hs1 rfl
  · simp only [List.mem_cons, List.not_mem_nil, or_false, not_or] at hst
    obtain ⟨h0, h1, h2, h5⟩ := hst
    rw [if_neg (by simp [h1, h2]), if_neg h5, if_neg h0]
    have hacq : CoresOnly s (acquire s1 t.core) := by
      obtain ⟨c, rfl⟩ := hs1
      exact ⟨_, rfl⟩
    obtain ⟨t1, hfind, hsame⟩ := hacq.homeOnly.sameParty h.2
    refine ⟨_, retire_gpr _ _ 12 (hacq.homeOnly.cur.trans h.1), regStep_gpr _ 12 h hvd hacq.homeOnly.cur hfind hsame, fun sp a => ?_, ?_⟩
    · rw [peek_setStrand, hacq.peek]
    · exact own_of_mem_acquire s1 t.core
  · subst hst
    have herr : xError t (xPointer t f) = { cause := e.2.1.toNat, tval := e.2.2 } := by rw [xError, he]
    rw [if_neg (by decide), if_pos rfl, herr]
    exact traps_trapCur 12 _ hissues rfl rfl

/-! ### XREQ -/

theorem homeOnly_setBlockState (s : State) (t : Strand) (ptr : Word) (v : ℕ) : HomeOnly s (setBlockState s t ptr v) :=
  (coresOnly_wakeLocs s _).homeOnly.trans (homeOnly_writeLocs _ _ _)

/-- The STATE word of a block. -/
def stateWord (t : Strand) (ptr : Word) : List Loc := scratchLocs t.core t.granules (ptr.toNat % 2 ^ 60 + 4) 4

theorem stateWord_length (t : Strand) (ptr : Word) : (stateWord t ptr).length = 4 := scratchLocs_length _ _ _ _

/-- STATE as it reads after it has been written. -/
theorem map_peekLoc_setBlockState (s : State) (t : Strand) {ptr : Word} (v : ℕ) (h : ptr.toNat % 64 = 0) :
    (stateWord t ptr).map (peekLoc (setBlockState s t ptr v)) = leBytes 4 v :=
  map_peekLoc_writeLocs _ (stateWord t ptr) _ (by rw [leBytes_length, stateWord_length])
    (stateWord_nodup _ _ _ (by omega))

theorem peek_setBlockState_of_notMem (s : State) (t : Strand) (ptr : Word) (v : ℕ) {sp : Space} {a : ℕ}
    (h : (sp, a) ∉ stateWord t ptr) : peek (setBlockState s t ptr v) sp a = peek s sp a :=
  (peekLoc_writeLocs_of_notMem _ (stateWord t ptr) (leBytes 4 v) (sp, a) (by rw [leBytes_length, stateWord_length]) h).trans
    ((coresOnly_wakeLocs s _).peek sp a)

/-- The request that XREQ queues. -/
def xRequest (t : Strand) (ptr : Word) (bs : List Byte) : XformReq := { key := t.key, ptr := blockPtr ptr, block := bs, state := 1 }

/-- The state in which an accepted request is queued, its STATE not written yet. -/
def xAdmitted (s : State) (t : Strand) (ptr : Word) (bs : List Byte) : State :=
  setStrand (setCluster s (clusterOfStrand t) (fun c => { c with xq := c.xq ++ [xRequest t ptr bs] })) t.key
    (fun t => { t with xerrors := t.xerrors.filter (fun e => decide (e.1 ≠ blockPtr ptr)) })

/-- The state in which an accepted request is queued and its STATE written. -/
def xQueued (s : State) (t : Strand) (ptr : Word) (bs : List Byte) : State := setBlockState (xAdmitted s t ptr bs) t ptr 1

theorem exec_xreq {s s1 : State} {t : Strand} {f : X96} {bs : List Byte} (h : Issues s t) (ha : activeScalar t f = true)
    (hok : formOk (.xreq f) = true) (hal : (gx t f.rs.toNat).toNat % 64 = 0) (hk : dKind (segOf t (gx t f.rs.toNat)) = 1)
    (hl : loadAs s t (gx t f.rs.toNat) 64 = .ok (bs, s1)) :
    let ptr := gx t f.rs.toNat
    let answer (s : State) (v : ℕ) : Res := .ok (setStrand s t.key (fun t => sx t f.vd.toNat (ptr ||| BitVec.ofNat 64 v))) .seq
    exec (.xreq f) s = retire 12 (
      if !xAccepts s t ptr (xBlockOf (leNat bs)) then answer s1 2
      else if xBusy s t then answer s1 1
      else answer (xQueued s1 t ptr bs) 0) := by
  refine (runStrand_eq _ h.1 h.2 hok).trans ?_
  have hk' : ¬ dKind (segOf t (gx t f.rs.toNat)) ≠ kScratch := not_not_intro hk
  simp only [ha, Bool.not_true, Bool.false_eq_true, if_false, hal, ne_eq, not_true_eq_false, hl]
  rw [if_neg hk']
  rfl

theorem clusterOf_setCluster (s : State) (c : ℕ) (f : Cluster → Cluster) : clusterOf (setCluster s c f) c = f (clusterOf s c) := by
  simp only [clusterOf, setCluster, tget_tins_self]

theorem peek_setCluster (s : State) (c : ℕ) (f : Cluster → Cluster) (sp : Space) (a : ℕ) : peek (setCluster s c f) sp a = peek s sp a := by
  cases sp <;> rfl

/-- What an accepted request has changed: the queue, its STATE word, and of the strand nothing that registers or its place show. -/
theorem xQueued_parts {s s1 : State} {t : Strand} {ptr : Word} {bs : List Byte} (h : Issues s t) (hc : CoresOnly s s1)
    (hal : ptr.toNat % 64 = 0) :
    let u := xQueued s1 t ptr bs
    u.cur = s.cur ∧ (∃ t1, findStrand u t.key = some t1 ∧ SameParty t t1) ∧
    (clusterOf u (clusterOfStrand t)).xq = (clusterOf s (clusterOfStrand t)).xq ++ [xRequest t ptr bs] ∧
    (stateWord t ptr).map (peekLoc u) = leBytes 4 1 ∧ ∀ sp a, (sp, a) ∉ stateWord t ptr → peek u sp a = peek s sp a := by
  have hhome : HomeOnly (xAdmitted s1 t ptr bs) (xQueued s1 t ptr bs) := homeOnly_setBlockState _ t ptr 1
  refine ⟨hhome.cur.trans hc.homeOnly.cur, ?_, ?_, map_peekLoc_setBlockState _ _ _ hal, fun sp a hm => ?_⟩
  · have hfind : findStrand (xAdmitted s1 t ptr bs) t.key =
        some { t with xerrors := t.xerrors.filter (fun e => decide (e.1 ≠ blockPtr ptr)) } := by
      refine (findStrand_setStrand _ _ _ ?_).trans (congrArg (Option.map _) (hc.issues h).2)
      exact fun _ hu => hu
    obtain ⟨r, hr⟩ := hhome.strands _ _ hfind
    exact ⟨_, hr, rfl, rfl, rfl, rfl, rfl, rfl, rfl, rfl⟩
  · have hs1 : clusterOf s1 (clusterOfStrand t) = clusterOf s (clusterOfStrand t) := by
      rw [clusterOf, hc.homeOnly.clusters, clusterOf]
    rw [clusterOf, hhome.clusters, ← hs1]
    exact congrArg Cluster.xq (clusterOf_setCluster s1 (clusterOfStrand t) (fun c => { c with xq := c.xq ++ [xRequest t ptr bs] }))
  · rw [xQueued, peek_setBlockState_of_notMem _ _ _ _ hm, xAdmitted, peek_setStrand, peek_setCluster, hc.peek]

theorem xreq_answers {s s1 : State} {t : Strand} {f : X96} {bs : List Byte} (h : Issues s t) (ha : activeScalar t f = true)
    (hok : formOk (.xreq f) = true) (hal : (gx t f.rs.toNat).toNat % 64 = 0) (hk : dKind (segOf t (gx t f.rs.toNat)) = 1)
    (hl : loadAs s t (gx t f.rs.toNat) 64 = .ok (bs, s1)) :
    let ptr := gx t f.rs.toNat
    let b := xBlockOf (leNat bs)
    (xAccepts s t ptr b = false → RegOnly s (exec (.xreq f) s) f.vd (ptr ||| 2)) ∧
    (xAccepts s t ptr b = true → xBusy s t = true → RegOnly s (exec (.xreq f) s) f.vd (ptr ||| 1)) ∧
    (xAccepts s t ptr b = true → xBusy s t = false → ∃ u q, exec (.xreq f) s = .next u ∧ RegStep s u (f.vd.truncate 5) ptr 12 ∧
      (clusterOf u (clusterOfStrand t)).xq = (clusterOf s (clusterOfStrand t)).xq ++ [q] ∧ q.key = t.key ∧ q.ptr = blockPtr ptr ∧
      q.block = bs ∧ q.state = 1 ∧ (stateWord t ptr).map (peekLoc u) = leBytes 4 1 ∧
      ∀ sp a, (sp, a) ∉ stateWord t ptr → peek u sp a = peek s sp a) := by
  intro ptr b
  have hvd := gpr_of_xformOk (fn := 0) hok
  have hs1 := loadAs_scratch hk hl
  rw [exec_xreq h ha hok hal hk hl]
  refine ⟨fun hacc => ?_, fun hacc hbusy => ?_, fun hacc hbusy => ?_⟩
  · refine regOnly_of_cores _ h hvd hs1 ?_
    rw [if_pos (by simp only [ptr, b] at hacc; simp [hacc])]
    rfl
  · refine regOnly_of_cores _ h hvd hs1 ?_
    rw [if_neg (by simp only [ptr, b] at hacc; simp [hacc]), if_pos hbusy]
    rfl
  · rw [if_neg (by simp only [ptr, b] at hacc; simp [hacc]), if_neg (by simp [hbusy])]
    obtain ⟨hcur, ⟨t1, hfind, hsame⟩, hxq, hword, hrest⟩ := xQueued_parts (bs := bs) h hs1 hal
    have hptr : gx t f.rs.toNat ||| BitVec.ofNat 64 0 = ptr := BitVec.or_zero
    refine ⟨_, xRequest t ptr bs, retire_gpr _ _ 12 (hcur.trans h.1), ?_, hxq, rfl, rfl, rfl, rfl, ?_, fun sp a hm => ?_⟩
    · rw [hptr]
      exact regStep_gpr ptr 12 h hvd hcur hfind hsame
    · exact hword
    · rw [peek_setStrand]
      exact hrest sp a hm

/-- XREQ, XPOLL and XWAIT. -/
theorem transformIssues_hold : transformIssues := by
  intro s s1 t f bs h ha ptr low cl b rd word block state
  have hstate : xState s t (xPointer t f) = state s := xState_eq s t (xPointer t f)
  refine ⟨fun hok hal hk hl => xreq_answers h ha hok hal hk hl, fun hok hk hl => ?_, fun hok hk hl => ?_⟩
  · rw [← hstate]
    exact xpoll_answers h ha hok hk hl
  · rw [← hstate]
    exact xwait_answers h ha hok hk hl

end Sys2Proof.Proofs
end

section
/-! PROOFS. The events of the transform unit (R227, R230 to R236): what a piece of an operation leaves, and how a request ends. -/

namespace Sys2Proof.Proofs

open Machine Oblig

/-! ### What the unit's work leaves -/

/-- From s to u, claim requests wait as they did, and every strand has its core and its granules. -/
structure Quiet (s u : State) : Prop where
  claimq : ∀ c, (clusterOf u c).claimq = (clusterOf s c).claimq
  strands : ∀ k t, findStrand s k = some t → ∃ t', findStrand u k = some t' ∧ t'.core = t.core ∧ t'.granules = t.granules

theorem Quiet.refl (s : State) : Quiet s s := ⟨fun _ => rfl, fun _ t h => ⟨t, h, rfl, rfl⟩⟩

theorem Quiet.trans {s u v : State} (h : Quiet s u) (h' : Quiet u v) : Quiet s v where
  claimq := fun c => (h'.claimq c).trans (h.claimq c)
  strands := fun k t ht => by
    obtain ⟨t1, h1, hc1, hg1⟩ := h.strands k t ht
    obtain ⟨t2, h2, hc2, hg2⟩ := h'.strands k t1 h1
    exact ⟨t2, h2, hc2.trans hc1, hg2.trans hg1⟩

theorem HomeOnly.quiet {s u : State} (h : HomeOnly s u) : Quiet s u where
  claimq := fun c => by rw [clusterOf, h.clusters, clusterOf]
  strands := fun k t ht => by
    obtain ⟨r, hr⟩ := h.strands k t ht
    exact ⟨_, hr, rfl, rfl⟩

/-- A change of anything but strands and clusters. -/
theorem Quiet.of_eq {s u : State} (hs : u.strands = s.strands) (hc : u.clusters = s.clusters) : Quiet s u where
  claimq := fun c => by rw [clusterOf, hc, clusterOf]
  strands := fun k t h => ⟨t, by rw [findStrand, hs]; exact h, rfl, rfl⟩

theorem clusterOf_setCluster_of_ne (s : State) {c c' : ℕ} (f : Cluster → Cluster) (h : c' ≠ c) :
    clusterOf (setCluster s c f) c' = clusterOf s c' := tget_tins_ne _ _ _ h

theorem quiet_setCluster (s : State) (c : ℕ) (f : Cluster → Cluster) (h : ∀ x, (f x).claimq = x.claimq) : Quiet s (setCluster s c f) where
  claimq := fun c' => by
    by_cases hc : c' = c
    · rw [hc, clusterOf_setCluster, h]
    · rw [clusterOf_setCluster_of_ne s f hc]
  strands := fun _ t ht => ⟨t, ht, rfl, rfl⟩

theorem quiet_setStrand (s : State) (k : StrandKey) (f : Strand → Strand) (hk : ∀ t, (f t).key = t.key)
    (hc : ∀ t, (f t).core = t.core) (hg : ∀ t, (f t).granules = t.granules) : Quiet s (setStrand s k f) where
  claimq := fun _ => rfl
  strands := fun j t ht => by
    have hkey : ∀ u : Strand, u.key = k → (f u).key = k := fun u hu => (hk u).trans hu
    by_cases hj : j = k
    · subst hj
      exact ⟨f t, by rw [findStrand_setStrand s j f hkey, ht]; rfl, hc t, hg t⟩
    · exact ⟨t, by rw [findStrand_setStrand_ne s f hkey hj]; exact ht, rfl, rfl⟩

/-! ### Translations of an engine -/

theorem quiet_walkPage {s s1 : State} {die va : ℕ} {sp : Space64} {acc : Access} {host quiet : Bool} {e : TlbEntry}
    (h : walkPage s die sp va acc host quiet = .ok (e, s1)) : Quiet s s1 := by
  unfold walkPage at h
  split at h
  · cases h
  · cases h
  · dsimp only at h
    split at h
    · cases h
    · obtain ⟨-, rfl⟩ := (Prod.mk.injEq ..).mp (Except.ok.inj h)
      split
      · exact (homeOnly_updateHome _ _ _ _).quiet
      · exact .refl s

/-- A translation enters the cluster's cache, and the core's where a core asked (R334). -/
def cacheTlb (s : State) (cluster : ℕ) (core : Option ℕ) (e : TlbEntry) : State :=
  let s1 := setCluster s cluster (fun c => { c with tlb := tlbPutSet e c.tlb })
  match core with
  | some k => setCore s1 k (fun c => { c with utlb := tlbPut 16 e c.utlb })
  | none => s1

theorem quiet_cacheTlb (s : State) (cluster : ℕ) (core : Option ℕ) (e : TlbEntry) : Quiet s (cacheTlb s cluster core e) := by
  have hq := quiet_setCluster s cluster (fun c => { c with tlb := tlbPutSet e c.tlb }) (fun _ => rfl)
  cases core with
  | none => exact hq
  | some k => exact hq.trans (.of_eq rfl rfl)

theorem quiet_translate {s s1 : State} {cluster va pa : ℕ} {core : Option ℕ} {sp : Space64} {acc : Access} {host quiet : Bool}
    (h : Machine.translate s cluster core sp va acc host quiet = .ok (pa, s1)) : Quiet s s1 := by
  unfold Machine.translate at h
  dsimp only at h
  split at h
  · obtain ⟨-, rfl⟩ := (Prod.mk.injEq ..).mp (Except.ok.inj h)
    cases core with
    | none => exact .refl s
    | some k => exact .of_eq rfl rfl
  · split at h
    · obtain ⟨-, rfl⟩ := (Prod.mk.injEq ..).mp (Except.ok.inj h)
      exact quiet_cacheTlb s cluster core _
    · split at h
      · cases h
      · next e s2 hw =>
        obtain ⟨-, rfl⟩ := (Prod.mk.injEq ..).mp (Except.ok.inj h)
        exact (quiet_walkPage hw).trans (quiet_cacheTlb s2 cluster core e)

theorem quiet_virtLocs {cluster : ℕ} {core : Option ℕ} {sp : Space64} {acc : Access} {host : Bool} (fuel : ℕ) {s s1 : State} {va n : ℕ}
    {ea : Word} {ls : List Loc} (h : virtLocs cluster core sp acc host fuel s va ea n = .ok (ls, s1)) : Quiet s s1 := by
  induction fuel generalizing s va ea n ls with
  | zero =>
    obtain ⟨-, rfl⟩ := (Prod.mk.injEq ..).mp (Except.ok.inj h)
    exact .refl s
  | succ fuel ih =>
    unfold virtLocs at h
    split at h
    · obtain ⟨-, rfl⟩ := (Prod.mk.injEq ..).mp (Except.ok.inj h)
      exact .refl s
    · split at h
      · cases h
      · next pa s2 ht =>
        dsimp only at h
        split at h
        · cases h
        · split at h
          · cases h
          · next ls' s3 hv =>
            obtain ⟨-, rfl⟩ := (Prod.mk.injEq ..).mp (Except.ok.inj h)
            exact (quiet_translate ht).trans (ih hv)

theorem quiet_locateEng {s s1 : State} {t : Strand} {ea : Word} {n : ℕ} {acc : Access} {ls : List Loc}
    (h : locateEng s t ea n acc = .ok (ls, s1)) : Quiet s s1 := by
  unfold locateEng at h
  split at h
  · cases h
  · obtain ⟨-, rfl⟩ := (Prod.mk.injEq ..).mp (Except.ok.inj h)
    exact .refl s
  · exact quiet_virtLocs _ h
  · cases h

/-! ### Pieces of an operation -/

theorem quiet_xRead {s s1 : State} {t : Strand} {ea : Word} {n : ℕ} {bs : List Byte} (h : xRead s t ea n = .ok (bs, s1)) : Quiet s s1 := by
  unfold xRead at h
  split at h
  · cases h
  · next ls s2 hl =>
    split at h
    · cases h
    · obtain ⟨-, rfl⟩ := (Prod.mk.injEq ..).mp (Except.ok.inj h)
      exact (quiet_locateEng hl).trans (coresOnly_wakeLocs _ _).homeOnly.quiet

theorem quiet_xWrite {s s1 : State} {t : Strand} {ea : Word} {bs : List Byte} (h : xWrite s t ea bs = .ok s1) : Quiet s s1 := by
  unfold xWrite at h
  split at h
  · cases h
  · next ls s2 hl =>
    rw [← Except.ok.inj h]
    exact (quiet_locateEng hl).trans ((coresOnly_wakeLocs _ _).homeOnly.trans (homeOnly_writeLocs _ _ _)).quiet

theorem quiet_xThen (s : State) (t : Strand) (ea : Word) (n : ℕ) (f : List Byte → State → XRes) (hf : ∀ bs u, Quiet u (f bs u).1) :
    Quiet s (xThen s t ea n f).1 := by
  unfold xThen
  split
  · exact .refl s
  · next bs s1 hr => exact (quiet_xRead hr).trans (hf bs s1)

theorem quiet_xPut (s : State) (t : Strand) (ea : Word) (bs : List Byte) (f : State → XRes) (hf : ∀ u, Quiet u (f u).1) :
    Quiet s (xPut s t ea bs f).1 := by
  unfold xPut
  split
  · exact .refl s
  · next s1 hw => exact (quiet_xWrite hw).trans (hf s1)

theorem quiet_xEncode (t : Strand) (b : XBlock) (freq : List ℕ) (i pos : ℕ) (s : State) : Quiet s (xEncode t b freq i pos s).1 := by
  unfold xEncode
  dsimp only
  split
  · exact .refl s
  · refine quiet_xThen s t _ _ _ (fun bs u => ?_)
    split
    · exact .refl u
    · split
      · exact .refl u
      · exact quiet_xPut u t _ _ _ (fun v => quiet_xPut v t _ _ _ (fun w => .refl w))

theorem quiet_xRows (t : Strand) (b : XBlock) (fuel : ℕ) {i : ℕ} {s s1 : State} {r : List (List Byte)}
    (h : xRows t b fuel i s = .ok (r, s1)) : Quiet s s1 := by
  induction fuel generalizing i s r with
  | zero =>
    obtain ⟨-, rfl⟩ := (Prod.mk.injEq ..).mp (Except.ok.inj h)
    exact .refl s
  | succ fuel ih =>
    unfold xRows at h
    split at h
    · cases h
    · next bs s2 hr =>
      split at h
      · cases h
      · next r' s3 hrows =>
        obtain ⟨-, rfl⟩ := (Prod.mk.injEq ..).mp (Except.ok.inj h)
        exact (quiet_xRead hr).trans (ih hrows)

theorem quiet_xCols (t : Strand) (b : XBlock) (off : ℕ) (rows : List (List Byte)) (fuel k : ℕ) (s : State) :
    Quiet s (xCols t b off rows fuel k s).1 := by
  induction fuel generalizing k s with
  | zero => exact .refl s
  | succ fuel ih => exact quiet_xPut s t _ _ _ (fun u => ih (k + 1) u)

theorem quiet_xTranspose (t : Strand) (b : XBlock) (i : ℕ) (s : State) : Quiet s (xTranspose t b i s).1 := by
  unfold xTranspose
  split
  · exact .refl s
  · next rows s1 hr => exact (quiet_xRows t b _ hr).trans (quiet_xCols t b _ _ _ _ _)

theorem quiet_xRepack (t : Strand) (b : XBlock) (i : ℕ) (s : State) : Quiet s (xRepack t b i s).1 := by
  unfold xRepack
  dsimp only
  split
  · exact quiet_xThen s t _ _ _ (fun bs u => quiet_xPut u t _ _ _ (fun v => quiet_xPut v t _ _ _ (fun w => .refl w)))
  · exact quiet_xThen s t _ _ _ (fun bs u => quiet_xThen u t _ _ _ (fun xs v => quiet_xPut v t _ _ _ (fun w => .refl w)))

theorem quiet_xVerify (t : Strand) (b : XBlock) (freq : List ℕ) (i q : ℕ) (s : State) : Quiet s (xVerify t b freq i q s).1 := by
  have fault (u : State) (dst : Word) (bs : List Byte) (fail : XFail) : Quiet u (match xWrite u t dst bs with
      | .error e => ((u, .error (.error e)) : XRes)
      | .ok s1 => (s1, .error fail)).1 := by
    split
    · exact .refl u
    · next s1 hw => exact quiet_xWrite hw
  unfold xVerify
  refine quiet_xThen s t _ _ _ (fun e u => ?_)
  split
  · exact fault u _ _ _
  · refine quiet_xThen u t _ _ _ (fun bs v => ?_)
    split
    · exact fault v _ _ _
    · exact quiet_xPut v t _ _ _ (fun w => .refl w)

theorem quiet_xPiece (t : Strand) (b : XBlock) (i pos : ℕ) (s : State) : Quiet s (xPiece t b i pos s).1 := by
  unfold xPiece
  dsimp only
  split
  · split
    · exact quiet_xThen s t _ _ _ (fun bs u => quiet_xEncode t b _ _ _ u)
    · exact .refl s
  · refine quiet_xThen s t _ _ _ (fun bs u => ?_)
    split
    · exact .refl u
    · exact quiet_xPut u t _ _ _ (fun v => .refl v)
  · exact quiet_xTranspose t b i s
  · exact quiet_xRepack t b i s
  · exact quiet_xThen s t _ _ _ (fun bs u => quiet_xVerify t b _ _ _ u)

/-! ### A request goes on and ends -/

/-- Two requests of the same strand on the same block. -/
def SameRequest (q r : XformReq) : Prop := r.key = q.key ∧ r.ptr = q.ptr ∧ r.block = q.block

theorem credit_zero (s : State) (k : StrandKey) (order n bits : ℕ) : credit s k order 0 n bits = s := if_pos rfl

theorem quiet_setXform (s : State) (cl : ℕ) (q : XformReq) (f : XformReq → XformReq) : Quiet s (setXform s cl q f) :=
  quiet_setCluster s cl _ (fun _ => rfl)

theorem quiet_xAdvance (s : State) (cl : ℕ) (q : XformReq) (hbar : (xBlockOf (leNat q.block)).bar = 0) :
    Quiet s (xAdvance s cl q).1 ∧ ∀ r, (xAdvance s cl q).2 = .ok r → SameRequest q r := by
  unfold xAdvance
  split
  · exact ⟨.refl s, fun r hr => by rw [← Except.ok.inj hr]; exact ⟨rfl, rfl, rfl⟩⟩
  · next t ht =>
    have hpiece := quiet_xPiece t (xBlockOf (leNat q.block)) q.piece q.pos s
    dsimp only
    split
    · next s1 e hp => exact ⟨by rwa [hp] at hpiece, fun r hr => by cases hr⟩
    · next s1 n pos hp =>
      rw [hp] at hpiece
      refine ⟨?_, fun r hr => by rw [← Except.ok.inj hr]; exact ⟨rfl, rfl, rfl⟩⟩
      rw [hbar, credit_zero]
      exact hpiece.trans (quiet_setXform _ _ _ _)

theorem quiet_xRest (cl fuel : ℕ) (q : XformReq) (s : State) (hbar : (xBlockOf (leNat q.block)).bar = 0) :
    Quiet s (xRest cl fuel q s).1 ∧ SameRequest q (xRest cl fuel q s).2.1 := by
  induction fuel generalizing q s with
  | zero => exact ⟨.refl s, rfl, rfl, rfl⟩
  | succ fuel ih =>
    obtain ⟨hq, hr⟩ := quiet_xAdvance s cl q hbar
    unfold xRest
    split
    · next s1 e hx => exact ⟨by rwa [hx] at hq, rfl, rfl, rfl⟩
    · next s1 q1 hx =>
      rw [hx] at hq hr
      obtain ⟨hkey, hptr, hblock⟩ := hr q1 rfl
      obtain ⟨hq', hkey', hptr', hblock'⟩ := ih q1 s1 (by rw [hblock]; exact hbar)
      exact ⟨hq.trans hq', hkey'.trans hkey, hptr'.trans hptr, hblock'.trans hblock⟩

theorem quiet_logEvent (s : State) (e : Event) : Quiet s (logEvent s e) := by
  unfold logEvent
  dsimp only
  split
  · exact .of_eq rfl rfl
  · refine Quiet.trans (u := { s with recCount := tset 0 s.recCount e.src ((tget 0 s.recCount e.src + 1) % 2 ^ 32) }) (.of_eq rfl rfl) ?_
    exact (homeOnly_writeHome _ _ _ _).quiet.trans (.of_eq rfl rfl)

theorem quiet_noteTrap (s : State) (tr : Trap) : Quiet s (noteTrap s tr) := by
  unfold noteTrap
  cases tr.note with
  | none => exact .refl s
  | some f =>
    cases f with
    | walk d va n a bad => exact Quiet.trans (u := setDie s d _) (.of_eq rfl rfl) (quiet_logEvent _ _)
    | response src a => exact quiet_logEvent _ _
    | outside => exact .refl s

theorem quiet_xLog (s : State) (cl : ℕ) (k : StrandKey) (f : XFail) : Quiet s (xLog s cl k f) := by
  unfold xLog
  dsimp only
  split
  · exact quiet_logEvent _ _
  · exact (quiet_logEvent _ _).trans (quiet_logEvent _ _)
  · exact (quiet_logEvent _ _).trans (quiet_noteTrap _ _)

/-! ### Claims that are served -/

theorem serveClaims_of_nil {s : State} {cl : ℕ} (h : (clusterOf s cl).claimq = []) : serveClaims s cl = s := by
  have hwaiting (p : ℕ) : waitingIn s cl p = [] := by rw [waitingIn, waitingReqs, h]; rfl
  have hpass : servePass cl s = (s, false) := by
    unfold servePass
    refine foldl_keeps (fun acc => acc = (s, false)) _ _ _ rfl ?_
    rintro _ p rfl
    rw [hwaiting]
    rfl
  rw [serveClaims, h]
  simp only [List.length_nil, serveLoop, hpass, Bool.false_eq_true, if_false]

/-- From s to u every transform queue is the same. -/
def SameXq (s u : State) : Prop := ∀ c, (clusterOf u c).xq = (clusterOf s c).xq

theorem SameXq.trans {s u v : State} (h : SameXq s u) (h' : SameXq u v) : SameXq s v := fun c => (h' c).trans (h c)

theorem SameXq.of_eq {s u : State} (h : u.clusters = s.clusters) : SameXq s u := fun c => by rw [clusterOf, h, clusterOf]

theorem sameXq_setCluster (s : State) (c : ℕ) (f : Cluster → Cluster) (h : ∀ x, (f x).xq = x.xq) : SameXq s (setCluster s c f) := by
  intro c'
  by_cases hc : c' = c
  · rw [hc, clusterOf_setCluster, h]
  · rw [clusterOf_setCluster_of_ne s f hc]

theorem sameXq_foldl {α : Type} (s : State) (l : List α) (f : State → α → State) (hf : ∀ u a, SameXq u (f u a)) : SameXq s (l.foldl f s) :=
  foldl_keeps (SameXq s) l s f (fun _ => rfl) (fun u a hu => hu.trans (hf u a))

theorem sameXq_grantUnits (s : State) (k : StrandKey) (cls a : ℕ) : SameXq s (grantUnits s k cls a) := by
  unfold grantUnits
  dsimp only
  split
  · exact SameXq.trans (u := (List.range a).foldl (fun s' i => wake s' (strandOf s k).core
      (.vreg (strandOf s k).slot ((strandOf s k).vblocks + i))) s) (sameXq_foldl s _ _ (fun u i => .of_eq rfl)) (.of_eq rfl)
  · exact SameXq.trans (u := (lowestFree a 16 (usedGranules s (strandOf s k).core)).foldl (fun s' g =>
      wake (zeroGranule (strandOf s k).core s' g) (strandOf s k).core (.granule g)) s)
      (sameXq_foldl s _ _ (fun u i => .of_eq rfl)) (.of_eq rfl)
  · exact SameXq.trans (u := setCluster s (crewOf s k).cluster (fun c => { c with
      slots := (lowestFree a 8 (usedSlots s (crewOf s k).cluster)).foldl tdel c.slots }))
      (sameXq_setCluster s _ _ (fun _ => rfl)) (.of_eq rfl)
  · exact .of_eq rfl

theorem sameXq_complete (s : State) (len : ℕ) (n : Next) : SameXq s (complete s len n) := by
  unfold complete
  split
  · exact .of_eq rfl
  · exact .of_eq rfl

theorem sameXq_finishBlocked (s : State) (k : StrandKey) (f : State → State) (hf : ∀ u, SameXq u (f u)) : SameXq s (finishBlocked s k f) := by
  unfold finishBlocked
  split
  · exact fun _ => rfl
  · split
    · exact fun _ => rfl
    · have hf' : SameXq s (f { s with cur := .strand k }) := hf { s with cur := .strand k }
      have hrun := hf'.trans (SameXq.of_eq (u := setStrand (f { s with cur := .strand k }) k (fun t => { t with life := .running, wait := none })) rfl)
      exact (hrun.trans (sameXq_complete _ _ .seq)).trans (.of_eq rfl)

theorem sameXq_xSet (s : State) (r : BitVec 5) (v : Word) : SameXq s (xSet s r v) := by
  unfold xSet
  split
  · exact .of_eq rfl
  · split
    · exact fun _ => rfl
    · exact .of_eq rfl

theorem sameXq_grantRequest (s : State) (cl : ℕ) (q : ClaimReq) : SameXq s (grantRequest s cl q) :=
  SameXq.trans (u := setCluster s cl (fun c => { c with claimq := c.claimq.erase q, stalled := false }))
    (sameXq_setCluster s cl _ (fun _ => rfl))
    ((sameXq_grantUnits _ q.key q.cls q.amount).trans (sameXq_finishBlocked _ q.key _ (fun u => sameXq_xSet u _ 0)))

theorem sameXq_servePass (cl : ℕ) (s : State) : SameXq s (servePass cl s).1 := by
  unfold servePass
  refine foldl_keeps (fun acc : State × Bool => SameXq s acc.1) _ _ _ (fun _ => rfl) (fun acc p hacc => ?_)
  refine foldl_keeps (fun acc : State × Bool => SameXq s acc.1) _ _ _ hacc (fun acc q hacc => ?_)
  split
  · exact hacc.trans (sameXq_grantRequest _ _ _)
  · exact hacc

/-- Serving claims leaves the transform queues. -/
theorem sameXq_serveClaims (s : State) (cl : ℕ) : SameXq s (serveClaims s cl) := by
  unfold serveClaims
  generalize (clusterOf s cl).claimq.length + 1 = fuel
  induction fuel generalizing s with
  | zero => exact fun _ => rfl
  | succ fuel ih =>
    have hpass := sameXq_servePass cl s
    unfold serveLoop
    dsimp only
    split
    · exact hpass.trans (ih _)
    · exact hpass

/-! ### The end of a request -/

/-- A request leaves the queue. -/
def xDequeue (s : State) (cl : ℕ) (q : XformReq) : State :=
  setCluster s cl (fun c => { c with xq := c.xq.filter (fun x => !(x.key = q.key && x.ptr = q.ptr)) })

theorem quiet_xDequeue (s : State) (cl : ℕ) (q : XformReq) : Quiet s (xDequeue s cl q) := quiet_setCluster s cl _ (fun _ => rfl)

theorem xFinish_eq {s : State} {t : Strand} (cl : ℕ) (q : XformReq) (final bits : ℕ) (h : findStrand s q.key = some t)
    (hg : q.ptr.toNat % 2 ^ 60 / 12288 < t.granules.length) :
    xFinish s cl q final bits = serveClaims (credit (setBlockState (xDequeue s cl q) t q.ptr final) q.key t.issued
      (xBlockOf (leNat q.block)).bar (xTotal (xBlockOf (leNat q.block)) - q.credited) bits) cl := by
  have h1 : findStrand (xDequeue s cl q) q.key = some t := h
  have hg' : ¬ t.granules.length ≤ offOf q.ptr / Config.granule := Nat.not_le.mpr hg
  unfold xFinish
  rw [← xDequeue]
  simp only [h1, if_neg hg']

/-- A request without a barrier ends: it is in no queue, and its STATE is final where no claim waits. -/
theorem xFinish_ends {s : State} {t : Strand} (cl : ℕ) (q : XformReq) (final bits : ℕ) (h : findStrand s q.key = some t)
    (hal : q.ptr.toNat % 64 = 0) (hg : q.ptr.toNat % 2 ^ 60 / 12288 < t.granules.length) (hbar : (xBlockOf (leNat q.block)).bar = 0) :
    let u := xFinish s cl q final bits
    (∀ x ∈ (clusterOf u cl).xq, ¬ (x.key = q.key ∧ x.ptr = q.ptr)) ∧
    ((clusterOf s cl).claimq = [] → (stateWord t q.ptr).map (peekLoc u) = leBytes 4 final) := by
  intro u
  have hu : u = serveClaims (setBlockState (xDequeue s cl q) t q.ptr final) cl := by
    simp only [u]
    rw [xFinish_eq cl q final bits h hg, hbar, credit_zero]
  have hhome := homeOnly_setBlockState (xDequeue s cl q) t q.ptr final
  refine ⟨fun x hx => ?_, fun hnil => ?_⟩
  · rw [hu, sameXq_serveClaims, clusterOf, hhome.clusters] at hx
    have hx' : x ∈ (clusterOf (xDequeue s cl q) cl).xq := hx
    rw [xDequeue, clusterOf_setCluster] at hx'
    have hkeep := (List.mem_filter.mp hx').2
    simpa [← imp_iff_not_or] using hkeep
  · have hquiet : Quiet s (setBlockState (xDequeue s cl q) t q.ptr final) :=
      (quiet_xDequeue s cl q).trans hhome.quiet
    rw [hu, serveClaims_of_nil ((hquiet.claimq cl).trans hnil)]
    exact map_peekLoc_setBlockState _ t final hal

/-- The same after the unit's work has changed the state. -/
theorem xFinish_ends_of_quiet {s s1 : State} {t : Strand} (cl : ℕ) {q q1 : XformReq} (final bits : ℕ) (h : findStrand s q.key = some t)
    (hal : q.ptr.toNat % 64 = 0) (hg : q.ptr.toNat % 2 ^ 60 / 12288 < t.granules.length) (hbar : (xBlockOf (leNat q.block)).bar = 0)
    (hq : Quiet s s1) (hsame : SameRequest q q1) :
    let u := xFinish s1 cl q1 final bits
    (∀ x ∈ (clusterOf u cl).xq, ¬ (x.key = q.key ∧ x.ptr = q.ptr)) ∧
    ((clusterOf s cl).claimq = [] → (stateWord t q.ptr).map (peekLoc u) = leBytes 4 final) := by
  obtain ⟨hkey, hptr, hblock⟩ := hsame
  obtain ⟨t1, h1, hcore, hgran⟩ := hq.strands _ _ h
  rw [← hkey] at h1
  rw [← hptr] at hal
  rw [← hptr, ← hgran] at hg
  rw [← hblock] at hbar
  obtain ⟨hout, hword⟩ := xFinish_ends cl q1 final bits h1 hal hg hbar
  rw [hkey, hptr] at hout
  refine ⟨hout, fun hnil => ?_⟩
  have hsw : stateWord t q.ptr = stateWord t1 q1.ptr := by rw [stateWord, stateWord, hcore, hgran, hptr]
  rw [hsw]
  exact hword ((hq.claimq cl).trans hnil)

/-- However the request goes, it ends in DONE, DATAFAULT or ERROR. -/
theorem xComplete_ends {s : State} {t : Strand} (cl : ℕ) (q : XformReq) (h : findStrand s q.key = some t)
    (hal : q.ptr.toNat % 64 = 0) (hg : q.ptr.toNat % 2 ^ 60 / 12288 < t.granules.length) (hbar : (xBlockOf (leNat q.block)).bar = 0) :
    ∃ final ∈ [3, 4, 5], (∀ x ∈ (clusterOf (xComplete s cl q) cl).xq, ¬ (x.key = q.key ∧ x.ptr = q.ptr)) ∧
      ((clusterOf s cl).claimq = [] → (stateWord t q.ptr).map (peekLoc (xComplete s cl q)) = leBytes 4 final) := by
  obtain ⟨hq, hsame⟩ := quiet_xRest cl (xPieces (xBlockOf (leNat q.block)) - q.piece) q s hbar
  unfold xComplete
  split
  · next s1 q1 hx =>
    rw [hx] at hq hsame
    exact ⟨3, by simp, xFinish_ends_of_quiet cl 3 0 h hal hg hbar hq hsame⟩
  · next s1 q1 f hx =>
    rw [hx] at hq hsame
    unfold xFailed
    split
    · next a v =>
      exact ⟨4, by simp, xFinish_ends_of_quiet cl 4 stFault h hal hg hbar (hq.trans (quiet_xLog _ _ _ _)) hsame⟩
    · next e =>
      refine ⟨5, by simp, xFinish_ends_of_quiet cl 5 stFault h hal hg hbar (hq.trans (Quiet.trans ?_ (quiet_xLog _ _ _ _))) hsame⟩
      exact quiet_setStrand _ _ _ (fun _ => rfl) (fun _ => rfl) (fun _ => rfl)

theorem lmod_zero_cons {α : Type} (f : α → α) (a : α) (l : List α) : lmod f (a :: l) 0 = f a :: l := rfl

/-- The first request of the queue starts. -/
theorem xformStart_starts {s : State} {t : Strand} {cl : ℕ} {q : XformReq} {rest : List XformReq} (hcl : clusterOk cl = true)
    (hxq : (clusterOf s cl).xq = q :: rest) (h : findStrand s q.key = some t) (hal : q.ptr.toNat % 64 = 0) (hst : q.state = 1) :
    ∃ u, exec (.xformStart cl) s = .next u ∧ (clusterOf u cl).xq = { q with state := 2 } :: rest ∧
      (stateWord t q.ptr).map (peekLoc u) = leBytes 4 2 ∧ ∀ sp a, (sp, a) ∉ stateWord t q.ptr → peek u sp a = peek s sp a := by
  have h1 : findStrand (setCluster s cl (fun c => { c with xq := lmod (fun x => { x with state := 2 }) c.xq 0 })) q.key = some t := h
  have hexec : exec (.xformStart cl) s = .next (setBlockState
      (setCluster s cl (fun c => { c with xq := lmod (fun x => { x with state := 2 }) c.xq 0 })) t q.ptr 2) := by
    refine (if_pos hcl).trans (congrArg _ ?_)
    rw [hxq]
    simp only [hst, if_true, h1]
  have hhome := homeOnly_setBlockState (setCluster s cl (fun c => { c with xq := lmod (fun x => { x with state := 2 }) c.xq 0 })) t q.ptr 2
  refine ⟨_, hexec, ?_, map_peekLoc_setBlockState _ t 2 hal, fun sp a hm => ?_⟩
  · rw [clusterOf, hhome.clusters, ← clusterOf, clusterOf_setCluster, hxq, lmod_zero_cons]
  · rw [peek_setBlockState_of_notMem _ _ _ _ hm, peek_setCluster]

theorem transformEvents_hold : transformEvents := by
  intro s cl q rest t hcl hxq h hal hg word state
  refine ⟨fun hst => xformStart_starts hcl hxq h hal hst, fun hst hbar => ?_⟩
  obtain ⟨final, hfinal, hout, hword⟩ := xComplete_ends cl q h hal hg hbar
  refine ⟨xComplete s cl q, ?_, hout, fun hnil => ?_⟩
  · refine (if_pos hcl).trans (congrArg _ ?_)
    rw [hxq]
    simp only [hst, if_true]
  · have hw := hword hnil
    simp only [List.mem_cons, List.not_mem_nil, or_false] at hfinal
    rcases hfinal with rfl | rfl | rfl
    · exact .inl hw
    · exact .inr (.inl hw)
    · exact .inr (.inr hw)

end Sys2Proof.Proofs
end

section
/-! PROOFS. A REPACK of at most 128 blocks into the split layout (R25, R26, R230, R232), and its barrier's credit (R296). -/

namespace Sys2Proof.Proofs

open Machine Oblig

/-! ### Blocks of a list -/

theorem chunks_length {α : Type} (k m : ℕ) (l : List α) : (chunks k m l).length = m := by
  induction m generalizing l with
  | zero => rfl
  | succ m ih => rw [chunks, List.length_cons, ih]

/-- Block j of a list. -/
theorem chunks_getElem? {α : Type} (k : ℕ) {m j : ℕ} (l : List α) (h : j < m) : (chunks k m l)[j]? = some ((l.drop (j * k)).take k) := by
  induction m generalizing j l with
  | zero => omega
  | succ m ih =>
    cases j with
    | zero => simp [chunks]
    | succ j => rw [chunks, List.getElem?_cons_succ, ih _ (by omega), List.drop_drop, Nat.succ_mul, Nat.add_comm k]

theorem length_of_mem_chunks {α : Type} {k m : ℕ} {l : List α} (h : l.length = m * k) : ∀ c ∈ chunks k m l, c.length = k := by
  intro c hc
  obtain ⟨j, hj, hget⟩ := List.mem_iff_getElem.mp hc
  rw [chunks_length] at hj
  have hj' := chunks_getElem? k l hj
  rw [List.getElem?_eq_getElem (by rwa [chunks_length]), hget] at hj'
  have hroom : j * k + k ≤ m * k := by rw [← Nat.succ_mul]; exact Nat.mul_le_mul_right k hj
  rw [Option.some.inj hj', List.length_take, List.length_drop, h]
  omega

theorem length_flatMap_const {α : Type} (w : ℕ) (f : List α → List α) (cs : List (List α)) (h : ∀ c ∈ cs, (f c).length = w) :
    (cs.flatMap f).length = cs.length * w := by
  induction cs with
  | nil => simp
  | cons c cs ih =>
    rw [List.flatMap_cons, List.length_append, h c (by simp), ih (fun c hc => h c (by simp [hc])), List.length_cons, Nat.succ_mul,
      Nat.add_comm]

/-- An element of lists of one length put together. -/
theorem getElem?_flatMap_const {α : Type} {w i : ℕ} (f : List α → List α) (cs : List (List α)) (h : ∀ c ∈ cs, (f c).length = w)
    (hi : i < w) (j : ℕ) : (cs.flatMap f)[j * w + i]? = (cs[j]?).bind (fun c => (f c)[i]?) := by
  induction cs generalizing j with
  | nil => simp
  | cons c cs ih =>
    have hc : (f c).length = w := h c (by simp)
    rw [List.flatMap_cons]
    cases j with
    | zero =>
      rw [Nat.zero_mul, Nat.zero_add, List.getElem?_append_left (by rwa [hc])]
      rfl
    | succ j =>
      rw [List.getElem?_append_right (by rw [hc, Nat.succ_mul]; omega), hc, List.getElem?_cons_succ,
        ← ih (fun c hc => h c (by simp [hc]))]
      congr 1
      rw [Nat.succ_mul]
      omega

/-- The element bytes of n interleaved blocks, together. -/
def repackElems (e n : ℕ) (bs : List Byte) : List Byte := (chunks (e + 1) n bs).flatMap (fun c => c.take e)

/-- The scale bytes of n interleaved blocks, together. -/
def repackScales (e n : ℕ) (bs : List Byte) : List Byte := (chunks (e + 1) n bs).flatMap (fun c => c.drop e)

section
variable {e n : ℕ} {bs : List Byte} (hbs : bs.length = n * (e + 1))
include hbs

theorem repackElems_length : (repackElems e n bs).length = n * e := by
  rw [repackElems, length_flatMap_const e, chunks_length]
  intro c hc
  rw [List.length_take, length_of_mem_chunks hbs c hc]
  omega

theorem repackScales_length : (repackScales e n bs).length = n := by
  rw [repackScales, length_flatMap_const 1, chunks_length, Nat.mul_one]
  intro c hc
  rw [List.length_drop, length_of_mem_chunks hbs c hc]
  omega

theorem repackElems_getElem? {i j : ℕ} (hj : j < n) (hi : i < e) : (repackElems e n bs)[j * e + i]? = bs[j * (e + 1) + i]? := by
  rw [repackElems, getElem?_flatMap_const _ _ (fun c hc => by rw [List.length_take, length_of_mem_chunks hbs c hc]; omega) hi,
    chunks_getElem? _ _ hj, Option.bind_some, List.getElem?_take_of_lt hi, List.getElem?_take_of_lt (by omega), List.getElem?_drop]

theorem repackScales_getElem? {j : ℕ} (hj : j < n) : (repackScales e n bs)[j]? = bs[j * (e + 1) + e]? := by
  have hone := getElem?_flatMap_const (w := 1) (i := 0) (fun c => c.drop e) (chunks (e + 1) n bs)
    (fun c hc => by rw [List.length_drop, length_of_mem_chunks hbs c hc]; omega) (by decide) j
  rw [Nat.mul_one, Nat.add_zero j] at hone
  rw [repackScales, hone, chunks_getElem? _ _ hj, Option.bind_some, List.getElem?_drop,
    List.getElem?_take_of_lt (by omega), List.getElem?_drop, Nat.add_zero e]

end

/-! ### The barrier's credit -/

theorem fld_lt (v : ℕ) {hi lo : ℕ} : fld v hi lo < 2 ^ (hi + 1 - lo) := Nat.mod_lt _ (Nat.two_pow_pos _)

/-- A barrier as 16 bytes. -/
theorem barrierNat_fields {expected arrived phase status : ℕ} (he : expected < 2 ^ 32) (ha : arrived < 2 ^ 32) (hp : phase < 2 ^ 16)
    (hs : status < 2 ^ 16) (high : ℕ) (hh : high < 2 ^ 32) :
    let b := barrierNat expected arrived phase status + high * 2 ^ 96
    bExpected b = expected ∧ bArrived b = arrived ∧ bPhase b = phase ∧ bStatus b = status ∧ fld b 127 96 = high ∧ b < 2 ^ 128 := by
  simp only [barrierNat, bExpected, bArrived, bPhase, bStatus, fld, Nat.shiftRight_eq_div_pow, Nat.reducePow, Nat.reduceAdd, Nat.reduceSub]
  omega

/-- The fields of a barrier after a credit are in their ranges. -/
theorem creditNat_form (b n : ℕ) : ∃ e a p st high, e < 2 ^ 32 ∧ a < 2 ^ 32 ∧ p < 2 ^ 16 ∧ st < 2 ^ 16 ∧ high < 2 ^ 32 ∧
    creditNat b n 0 = barrierNat e a p st + high * 2 ^ 96 := by
  have he : bExpected b < 2 ^ 32 := fld_lt b
  have ha : bArrived b < 2 ^ 32 := fld_lt b
  have hp : bPhase b < 2 ^ 16 := fld_lt b
  have hs : bStatus b ||| 0 < 2 ^ 16 := by rw [Nat.or_zero]; exact fld_lt b
  have hh : fld b 127 96 < 2 ^ 32 := fld_lt b
  unfold creditNat
  dsimp only
  split
  · exact ⟨_, _, _, _, _, by decide, Nat.mod_lt _ (by decide), hp, hs, hh, rfl⟩
  · split
    · exact ⟨_, _, _, _, _, he, ha, hp, hs, hh, rfl⟩
    · exact ⟨_, _, _, _, _, he, (Nat.mod_lt _ (by omega)).trans he, Nat.mod_lt _ (by decide), hs, hh, rfl⟩

theorem creditNat_lt (b n : ℕ) : creditNat b n 0 < 2 ^ 128 := by
  obtain ⟨e, a, p, st, high, he, ha, hp, hs, hh, heq⟩ := creditNat_form b n
  obtain ⟨-, -, -, -, -, hlt⟩ := barrierNat_fields he ha hp hs high hh
  rwa [heq]

/-- A credit of nothing after a credit changes nothing. -/
theorem creditNat_zero_creditNat (b n : ℕ) : creditNat (creditNat b n 0) 0 0 = creditNat b n 0 := by
  obtain ⟨e, a, p, st, high, he, ha, hp, hs, hh, heq⟩ := creditNat_form b n
  obtain ⟨fe, fa, fp, fs, fh, -⟩ := barrierNat_fields he ha hp hs high hh
  rw [← heq] at fe fa fp fs fh
  rw [creditNat, fe, fa, fp, fs, fh, Nat.or_zero, Nat.add_zero, Nat.mod_eq_of_lt ha, heq]
  by_cases h0 : e = 0
  · rw [if_pos h0, h0]
  · rw [if_neg h0, if_pos rfl]

/-- The bytes of n located ones from a on. -/
def bytesFrom (a n : ℕ) : List Loc := (List.range n).map (fun i => (Space.spad, a + i))

theorem peekNat_eq (s : State) (a n : ℕ) : peekNat s .spad a n = leNat ((bytesFrom a n).map (peekLoc s)) := by
  rw [peekNat, peekN, tabulate_eq, bytesFrom, List.map_map]
  rfl

theorem peekNat_updateHome (s : State) (a n v : ℕ) : peekNat (updateHome s .spad a (leBytes n v)) .spad a n = v % 2 ^ (8 * n) := by
  rw [peekNat, peekN, tabulate_eq, ← leNat_leBytes]
  congr 1
  refine List.ext_getElem (by rw [List.length_map, List.length_range, leBytes_length]) (fun i hi hb => ?_)
  have hin : i < n := by rwa [List.length_map, List.length_range] at hi
  rw [List.getElem_map, List.getElem_range, peek_updateHome, if_pos ⟨rfl, by omega, by rw [leBytes_length]; omega⟩, Nat.add_sub_cancel_left,
    List.getD_eq_getElem _ _ hb]

theorem mem_bytesFrom (a n : ℕ) (l : Loc) : l ∈ bytesFrom a n ↔ l.1 = .spad ∧ a ≤ l.2 ∧ l.2 < a + n := mem_runLocs (.spad, a, n) l

/-- Writing a scratch run touches no other byte. -/
theorem peekLoc_updateHome_of_notMem (s : State) (a n v : ℕ) {l : Loc} (h : l ∉ bytesFrom a n) :
    peekLoc (updateHome s .spad a (leBytes n v)) l = peekLoc s l := by
  rw [peekLoc, peek_updateHome, if_neg, peekLoc]
  rw [leBytes_length]
  exact fun hin => h ((mem_bytesFrom a n l).mpr hin)

/-- What a credit of a granted, readable barrier leaves: strands but for reservations, every other byte, and the barrier with the credit,
unless it is broken. -/
theorem credit_parts {s : State} {k : StrandKey} {t : Strand} {ptr : Word} (order n : ℕ) (hptr : ptr ≠ 0) (h : findStrand s k = some t)
    (hg : ptr.toNat % 2 ^ 60 / 12288 < t.granules.length) :
    let a := scratchAddr t.core t.granules (ptr.toNat % 2 ^ 60)
    let u := credit s k order ptr n 0
    poisoned s .spad a 16 = false →
    HomeOnly s u ∧ NoNewPoison s u ∧ (∀ l, l ∉ bytesFrom a 16 → peekLoc u l = peekLoc s l) ∧
    peekNat u .spad a 16 = if bBroken (peekNat s .spad a 16) then peekNat s .spad a 16 else creditNat (peekNat s .spad a 16) n 0 := by
  intro a u hbad
  have hg' : ¬ t.granules.length ≤ offOf ptr / Config.granule := Nat.not_le.mpr hg
  have hbad' : poisoned s .spad (barrierAt t ptr) 16 = false := hbad
  have hu : u = if bBroken (peekNat s .spad a 16) then s
      else updateHome (wakeLoc s (.spad, a)) .spad a (leBytes 16 (creditNat (peekNat s .spad a 16) n 0)) := by
    simp only [u, credit, if_neg hptr, h, if_neg hg', hbad', Bool.false_eq_true, if_false]
    rfl
  rw [hu]
  split
  · exact ⟨.refl s, fun _ _ _ hp => hp, fun _ _ => rfl, rfl⟩
  · have hw := coresOnly_wakeLoc s (.spad, a)
    refine ⟨hw.homeOnly.trans (homeOnly_updateHome _ _ _ _), hw.noNewPoison.trans (noNewPoison_updateHome _ _ _ _), fun l hl => ?_, ?_⟩
    · rw [peekLoc_updateHome_of_notMem _ _ _ _ hl]
      exact hw.peek _ _
    · rw [peekNat_updateHome]
      exact Nat.mod_eq_of_lt (creditNat_lt _ n)

end Sys2Proof.Proofs
end

section
/-! PROOFS. A REPACK as the unit runs it, and the settling of the transform coprocessor's statement (R228 to R235). -/

namespace Sys2Proof.Proofs

open Machine Oblig

/-! ### Engine accesses to scratch bytes -/

/-- From s to u, strands keep all but reservations, no byte is newly poisoned, and no byte outside ls differs. -/
structure ScratchStep (s u : State) (ls : List Loc) : Prop where
  strands : ∀ k t, findStrand s k = some t → ∃ r, findStrand u k = some { t with resv := r }
  poison : NoNewPoison s u
  bytes : ∀ l, l ∉ ls → peekLoc u l = peekLoc s l

theorem ScratchStep.trans {s u v : State} {ls ls' : List Loc} (h : ScratchStep s u ls) (h' : ScratchStep u v ls') :
    ScratchStep s v (ls ++ ls') where
  strands := fun k t ht => by
    obtain ⟨r, hr⟩ := h.strands k t ht
    obtain ⟨r', hr'⟩ := h'.strands k _ hr
    exact ⟨r', hr'⟩
  poison := h.poison.trans h'.poison
  bytes := fun l hl => by
    rw [List.mem_append, not_or] at hl
    rw [h'.bytes l hl.2, h.bytes l hl.1]

/-- What has been written stays where a later step does not touch it. -/
theorem ScratchStep.map_peekLoc {s u : State} {ls ws : List Loc} (h : ScratchStep s u ls) (hd : ∀ l ∈ ws, l ∉ ls) :
    ws.map (peekLoc u) = ws.map (peekLoc s) :=
  List.map_congr_left (fun l hl => h.bytes l (hd l hl))

theorem CoresOnly.scratchStep {s u : State} (h : CoresOnly s u) : ScratchStep s u [] :=
  ⟨h.homeOnly.strands, h.noNewPoison, fun l _ => h.peek l.1 l.2⟩

/-- The engine stores bytes at located ones, whose granules wake. -/
def xStored (s : State) (ls : List Loc) (bs : List Byte) : State := writeLocs (wakeLocs s ls) ls bs

theorem homeOnly_xStored (s : State) (ls : List Loc) (bs : List Byte) : HomeOnly s (xStored s ls bs) :=
  (coresOnly_wakeLocs s ls).homeOnly.trans (homeOnly_writeLocs _ _ _)

theorem scratchStep_xStored (s : State) {ls : List Loc} {bs : List Byte} (h : bs.length = ls.length) : ScratchStep s (xStored s ls bs) ls where
  strands := (homeOnly_xStored s ls bs).strands
  poison := (coresOnly_wakeLocs s ls).noNewPoison.trans (noNewPoison_writeLocs _ _ _)
  bytes := fun l hl => (peekLoc_writeLocs_of_notMem _ ls bs l h hl).trans ((coresOnly_wakeLocs s ls).peek l.1 l.2)

theorem map_peekLoc_xStored (s : State) {ls : List Loc} {bs : List Byte} (h : bs.length = ls.length) (hnd : ls.Nodup) :
    ls.map (peekLoc (xStored s ls bs)) = bs := map_peekLoc_writeLocs _ ls bs h hnd

/-- Two stores at distinct bytes. -/
theorem map_peekLoc_xStored_xStored (s : State) {ls ls' : List Loc} {bs bs' : List Byte} (h : bs.length = ls.length)
    (h' : bs'.length = ls'.length) (hnd : (ls ++ ls').Nodup) :
    (ls ++ ls').map (peekLoc (xStored (xStored s ls bs) ls' bs')) = bs ++ bs' := by
  obtain ⟨hnd0, hnd1, hdisj⟩ := List.nodup_append.mp hnd
  have hkeep := (scratchStep_xStored (xStored s ls bs) h').map_peekLoc (ws := ls) (fun l hl hl' => hdisj l hl l hl' rfl)
  rw [List.map_append, hkeep, map_peekLoc_xStored s h hnd0, map_peekLoc_xStored _ h' hnd1]

theorem xThen_ok {s s1 : State} {t : Strand} {ea : Word} {n : ℕ} {bs : List Byte} (f : List Byte → State → XRes)
    (h : xRead s t ea n = .ok (bs, s1)) : xThen s t ea n f = f bs s1 := by
  rw [xThen, h]

theorem xPut_ok {s s1 : State} {t : Strand} {ea : Word} {bs : List Byte} (f : State → XRes) (h : xWrite s t ea bs = .ok s1) :
    xPut s t ea bs f = f s1 := by
  rw [xPut, h]

theorem xRead_scratch {s : State} {t : Strand} {ea : Word} {n off : ℕ} (h : segCheck t ea n .eread true false = .ok (.scratch off))
    (hp : ∀ l ∈ scratchLocs t.core t.granules off n, poisoned s l.1 l.2 1 = false) :
    xRead s t ea n = .ok ((scratchLocs t.core t.granules off n).map (peekLoc s), wakeLocs s (scratchLocs t.core t.granules off n)) := by
  have hnone : (scratchLocs t.core t.granules off n).findIdx? (fun l => poisoned s l.1 l.2 1) = none :=
    List.findIdx?_eq_none_iff.mpr hp
  simp only [xRead, locateEng, h, hnone]
  rfl

theorem xWrite_scratch {s : State} {t : Strand} {ea : Word} {bs : List Byte} {off : ℕ}
    (h : segCheck t ea bs.length .ewrite true false = .ok (.scratch off)) :
    xWrite s t ea bs = .ok (xStored s (scratchLocs t.core t.granules off bs.length) bs) := by
  simp only [xWrite, locateEng, h]
  rfl

/-! ### The piece of a REPACK -/

section
variable {s : State} {t : Strand} {b : XBlock} {so d0 d1 : ℕ}

/-- The bytes that a REPACK into the split layout reads, and those that it writes. -/
def repackSrc (t : Strand) (b : XBlock) (so : ℕ) : List Loc := scratchLocs t.core t.granules so (xN b * (4 * mxBits b.fmt + 1))
def repackElemLocs (t : Strand) (b : XBlock) (d0 : ℕ) : List Loc := scratchLocs t.core t.granules d0 (xN b * (4 * mxBits b.fmt))
def repackScaleLocs (t : Strand) (b : XBlock) (d1 : ℕ) : List Loc := scratchLocs t.core t.granules d1 (xN b)

/-- The state after a REPACK's only piece. -/
def repacked (s : State) (t : Strand) (b : XBlock) (so d0 d1 : ℕ) : State :=
  let bs := (repackSrc t b so).map (peekLoc s)
  xStored (xStored (wakeLocs s (repackSrc t b so)) (repackElemLocs t b d0) (repackElems (4 * mxBits b.fmt) (xN b) bs))
    (repackScaleLocs t b d1) (repackScales (4 * mxBits b.fmt) (xN b) bs)

theorem repackSrc_bytes_length (s : State) (t : Strand) (b : XBlock) (so : ℕ) :
    ((repackSrc t b so).map (peekLoc s)).length = xN b * (4 * mxBits b.fmt + 1) := by
  rw [List.length_map, repackSrc, scratchLocs_length]

theorem repackElems_fits (s : State) (t : Strand) (b : XBlock) (so d0 : ℕ) :
    (repackElems (4 * mxBits b.fmt) (xN b) ((repackSrc t b so).map (peekLoc s))).length = (repackElemLocs t b d0).length := by
  rw [repackElems_length (repackSrc_bytes_length s t b so), repackElemLocs, scratchLocs_length]

theorem repackScales_fits (s : State) (t : Strand) (b : XBlock) (so d1 : ℕ) :
    (repackScales (4 * mxBits b.fmt) (xN b) ((repackSrc t b so).map (peekLoc s))).length = (repackScaleLocs t b d1).length := by
  rw [repackScales_length (repackSrc_bytes_length s t b so), repackScaleLocs, scratchLocs_length]

theorem homeOnly_repacked (s : State) (t : Strand) (b : XBlock) (so d0 d1 : ℕ) : HomeOnly s (repacked s t b so d0 d1) :=
  ((coresOnly_wakeLocs s _).homeOnly.trans (homeOnly_xStored _ _ _)).trans (homeOnly_xStored _ _ _)

theorem scratchStep_repacked (s : State) (t : Strand) (b : XBlock) (so d0 d1 : ℕ) :
    ScratchStep s (repacked s t b so d0 d1) (repackElemLocs t b d0 ++ repackScaleLocs t b d1) :=
  ((coresOnly_wakeLocs s _).scratchStep.trans (scratchStep_xStored _ (repackElems_fits s t b so d0))).trans
    (scratchStep_xStored _ (repackScales_fits s t b so d1))

/-- What the destination holds after the piece. -/
theorem map_peekLoc_repacked (s : State) (t : Strand) (b : XBlock) (so : ℕ) {d0 d1 : ℕ}
    (hnd : (repackElemLocs t b d0 ++ repackScaleLocs t b d1).Nodup) :
    (repackElemLocs t b d0 ++ repackScaleLocs t b d1).map (peekLoc (repacked s t b so d0 d1)) =
      repackElems (4 * mxBits b.fmt) (xN b) ((repackSrc t b so).map (peekLoc s)) ++
      repackScales (4 * mxBits b.fmt) (xN b) ((repackSrc t b so).map (peekLoc s)) := by
  exact map_peekLoc_xStored_xStored _ (repackElems_fits s t b so d0) (repackScales_fits s t b so d1) hnd

/-- A REPACK of at most 128 blocks into the split layout reads once and writes twice. -/
theorem xRepack_split (hflags : b.flags = 0) (hn : xN b ≤ 128) :
    xRepack t b 0 s = xThen s t b.src (xN b * (4 * mxBits b.fmt + 1)) (fun bs s1 =>
      xPut s1 t b.dst (repackElems (4 * mxBits b.fmt) (xN b) bs) (fun s2 =>
        xPut s2 t (b.dst + BitVec.ofNat 64 (xN b * (4 * mxBits b.fmt))) (repackScales (4 * mxBits b.fmt) (xN b) bs) (fun s3 =>
          (s3, .ok (xN b * (4 * mxBits b.fmt + 1), 0))))) := by
  have hm : min 128 (xN b - 128 * 0) = xN b := by omega
  simp only [xRepack, hflags, if_true, hm, Nat.mul_zero, Nat.zero_mul, BitVec.add_zero, Nat.add_zero]
  rfl

theorem xPiece_repack (pos : ℕ) (hop : b.op = 4) (hflags : b.flags = 0) (hn : xN b ≤ 128)
    (hsrc : segCheck t b.src (xN b * (4 * mxBits b.fmt + 1)) .eread true false = .ok (.scratch so))
    (hd0 : segCheck t b.dst (xN b * (4 * mxBits b.fmt)) .ewrite true false = .ok (.scratch d0))
    (hd1 : segCheck t (b.dst + BitVec.ofNat 64 (xN b * (4 * mxBits b.fmt))) (xN b) .ewrite true false = .ok (.scratch d1))
    (hp : ∀ l ∈ repackSrc t b so, poisoned s l.1 l.2 1 = false) :
    xPiece t b 0 pos s = (repacked s t b so d0 d1, .ok (xN b * (4 * mxBits b.fmt + 1), 0)) := by
  have hbs := repackSrc_bytes_length s t b so
  have helems := repackElems_length hbs
  have hscales := repackScales_length hbs
  have hread : xRead s t b.src (xN b * (4 * mxBits b.fmt + 1)) =
      .ok ((repackSrc t b so).map (peekLoc s), wakeLocs s (repackSrc t b so)) := xRead_scratch hsrc hp
  rw [← helems] at hd0
  rw [← hscales] at hd1
  have hw0 := xWrite_scratch (s := wakeLocs s (repackSrc t b so)) hd0
  rw [helems, ← repackElemLocs] at hw0
  have hw1 := xWrite_scratch (s := xStored (wakeLocs s (repackSrc t b so)) (repackElemLocs t b d0)
    (repackElems (4 * mxBits b.fmt) (xN b) ((repackSrc t b so).map (peekLoc s)))) hd1
  rw [hscales, ← repackScaleLocs] at hw1
  have hpiece : xPiece t b 0 pos s = xRepack t b 0 s := by simp only [xPiece, hop]
  rw [hpiece, xRepack_split hflags hn, xThen_ok _ hread, xPut_ok _ hw0, xPut_ok _ hw1, repacked]

end

/-! ### A REPACK from its start to its end -/

/-- The block of a request. -/
def xBlock (q : XformReq) : XBlock := xBlockOf (leNat q.block)

/-- A REPACK of 1 to 128 blocks into the split layout stands ready, its spans at so, d0 and d1 of the scratchpad. -/
structure RepackReady (s : State) (q : XformReq) (t : Strand) (so d0 d1 : ℕ) : Prop where
  strand : findStrand s q.key = some t
  piece : q.piece = 0
  credited : q.credited = 0
  aligned : q.ptr.toNat % 64 = 0
  granted : q.ptr.toNat % 2 ^ 60 / 12288 < t.granules.length
  op : (xBlock q).op = 4
  flags : (xBlock q).flags = 0
  some_blocks : 1 ≤ xN (xBlock q)
  few_blocks : xN (xBlock q) ≤ 128
  src : segCheck t (xBlock q).src (xN (xBlock q) * (4 * mxBits (xBlock q).fmt + 1)) .eread true false = .ok (.scratch so)
  elems : segCheck t (xBlock q).dst (xN (xBlock q) * (4 * mxBits (xBlock q).fmt)) .ewrite true false = .ok (.scratch d0)
  scales : segCheck t ((xBlock q).dst + BitVec.ofNat 64 (xN (xBlock q) * (4 * mxBits (xBlock q).fmt))) (xN (xBlock q)) .ewrite true false =
    .ok (.scratch d1)
  readable : ∀ l ∈ repackSrc t (xBlock q) so, poisoned s l.1 l.2 1 = false

/-- The bytes that a REPACK writes: D of them. -/
def repackTotal (q : XformReq) : ℕ := xN (xBlock q) * (4 * mxBits (xBlock q).fmt + 1)

/-- The request after its only piece. -/
def repackDone (q : XformReq) : XformReq := { q with piece := q.piece + 1, pos := 0, credited := q.credited + repackTotal q }

/-- The state after the piece, the request's progress noted. -/
def repackNoted (s : State) (cl : ℕ) (q : XformReq) (t : Strand) (so d0 d1 : ℕ) : State :=
  setXform (repacked s t (xBlock q) so d0 d1) cl q (fun _ => repackDone q)

/-- The state after the piece's credit. -/
def repackCredited (s : State) (cl : ℕ) (q : XformReq) (t : Strand) (so d0 d1 : ℕ) : State :=
  credit (repackNoted s cl q t so d0 d1) q.key t.issued (xBlock q).bar (repackTotal q) 0

/-- The state in which the request has left its queue and its block says DONE. -/
def repackFinal (s : State) (cl : ℕ) (q : XformReq) (t : Strand) (so d0 d1 : ℕ) : State :=
  setBlockState (xDequeue (repackCredited s cl q t so d0 d1) cl (repackDone q)) t q.ptr 3

theorem scratchStep_setCluster (s : State) (c : ℕ) (f : Cluster → Cluster) : ScratchStep s (setCluster s c f) [] :=
  ⟨fun _ t h => ⟨t.resv, h⟩, fun sp a n h => by cases sp <;> exact h, fun _ _ => peek_setCluster _ _ _ _ _⟩

theorem scratchStep_setBlockState (s : State) (t : Strand) (ptr : Word) (v : ℕ) : ScratchStep s (setBlockState s t ptr v) (stateWord t ptr) :=
  scratchStep_xStored s (ls := stateWord t ptr) (by rw [leBytes_length, stateWord_length])

/-- The bytes of a barrier; none where the pointer names none. -/
def barLocs (t : Strand) (ptr : Word) : List Loc :=
  if ptr = 0 then [] else bytesFrom (scratchAddr t.core t.granules (ptr.toNat % 2 ^ 60)) 16

/-- A barrier that a credit reaches: granted, and readable. -/
def BarReady (s : State) (t : Strand) (ptr : Word) : Prop := ptr ≠ 0 → ptr.toNat % 2 ^ 60 / 12288 < t.granules.length ∧
  poisoned s .spad (scratchAddr t.core t.granules (ptr.toNat % 2 ^ 60)) 16 = false

theorem ScratchStep.barReady {s u : State} {ls : List Loc} {t : Strand} {ptr : Word} (h : ScratchStep s u ls) (hb : BarReady s t ptr) :
    BarReady u t ptr := fun hptr => ⟨(hb hptr).1, h.poison _ _ _ (hb hptr).2⟩

/-- The number that a barrier holds. -/
def barValue (s : State) (t : Strand) (ptr : Word) : ℕ := peekNat s .spad (scratchAddr t.core t.granules (ptr.toNat % 2 ^ 60)) 16

theorem barValue_congr {s u : State} {t : Strand} {ptr : Word} {ls : List Loc} (h : ScratchStep s u ls) (hptr : ptr ≠ 0)
    (hd : ∀ l ∈ barLocs t ptr, l ∉ ls) : barValue u t ptr = barValue s t ptr := by
  rw [barLocs, if_neg hptr] at hd
  rw [barValue, barValue, peekNat_eq, peekNat_eq, h.map_peekLoc hd]

/-- A credit, seen from the strand as it was before. -/
theorem credit_step {s : State} {k : StrandKey} {t : Strand} {ptr : Word} {r : Option Reservation} (order n : ℕ)
    (h : findStrand s k = some { t with resv := r }) (hb : BarReady s t ptr) :
    ScratchStep s (credit s k order ptr n 0) (barLocs t ptr) ∧ (credit s k order ptr n 0).clusters = s.clusters ∧
    (ptr ≠ 0 → barValue (credit s k order ptr n 0) t ptr =
      if bBroken (barValue s t ptr) then barValue s t ptr else creditNat (barValue s t ptr) n 0) := by
  by_cases hptr : ptr = 0
  · subst hptr
    rw [credit_zero]
    exact ⟨⟨fun _ t h => ⟨t.resv, h⟩, fun _ _ _ hp => hp, fun _ _ => rfl⟩, rfl, fun h0 => absurd rfl h0⟩
  · obtain ⟨hg, hbad⟩ := hb hptr
    obtain ⟨hhome, hpoison, hbytes, hvalue⟩ := credit_parts (t := { t with resv := r }) order n hptr h hg hbad
    refine ⟨⟨hhome.strands, hpoison, fun l hl => hbytes l ?_⟩, hhome.clusters, fun _ => hvalue⟩
    rwa [barLocs, if_neg hptr] at hl

section
variable {s : State} {cl : ℕ} {q : XformReq} {t : Strand} {so d0 d1 : ℕ}

theorem scratchStep_repackNoted (s : State) (cl : ℕ) (q : XformReq) (t : Strand) (so d0 d1 : ℕ) :
    ScratchStep s (repackNoted s cl q t so d0 d1) (repackElemLocs t (xBlock q) d0 ++ repackScaleLocs t (xBlock q) d1) := by
  have h := (scratchStep_repacked s t (xBlock q) so d0 d1).trans (scratchStep_setCluster _ cl (fun c => { c with
    xq := lmodWhere (fun x => x.key = q.key && x.ptr = q.ptr) (fun _ => repackDone q) c.xq }))
  rwa [List.append_nil] at h

/-- The piece's credit, from the state at the start. -/
theorem repackCredited_step (h : RepackReady s q t so d0 d1) (hb : BarReady s t (xBlock q).bar) :
    ScratchStep (repackNoted s cl q t so d0 d1) (repackCredited s cl q t so d0 d1) (barLocs t (xBlock q).bar) ∧
    (repackCredited s cl q t so d0 d1).clusters = (repackNoted s cl q t so d0 d1).clusters ∧
    ((xBlock q).bar ≠ 0 → barValue (repackCredited s cl q t so d0 d1) t (xBlock q).bar =
      if bBroken (barValue (repackNoted s cl q t so d0 d1) t (xBlock q).bar) then barValue (repackNoted s cl q t so d0 d1) t (xBlock q).bar
      else creditNat (barValue (repackNoted s cl q t so d0 d1) t (xBlock q).bar) (repackTotal q) 0) := by
  have hnoted := scratchStep_repackNoted s cl q t so d0 d1
  obtain ⟨r, hr⟩ := hnoted.strands _ _ h.strand
  exact credit_step t.issued (repackTotal q) hr (hnoted.barReady hb)

theorem scratchStep_repackFinal (s : State) (cl : ℕ) (q : XformReq) (t : Strand) (so d0 d1 : ℕ) :
    ScratchStep (repackCredited s cl q t so d0 d1) (repackFinal s cl q t so d0 d1) (stateWord t q.ptr) :=
  (scratchStep_setCluster _ _ _).trans (scratchStep_setBlockState _ t q.ptr 3)

theorem xAdvance_repack (h : RepackReady s q t so d0 d1) :
    xAdvance s cl q = (repackCredited s cl q t so d0 d1, .ok (repackDone q)) := by
  have hpiece : xPiece t (xBlock q) q.piece q.pos s = (repacked s t (xBlock q) so d0 d1, .ok (repackTotal q, 0)) := by
    rw [h.piece]
    exact xPiece_repack q.pos h.op h.flags h.few_blocks h.src h.elems h.scales h.readable
  rw [xAdvance, h.strand]
  dsimp only
  rw [← xBlock, hpiece]
  rfl

theorem xPieces_repack (h : RepackReady s q t so d0 d1) : xPieces (xBlock q) = 1 := by
  have hlo := h.some_blocks
  have hhi := h.few_blocks
  simp only [xPieces, h.op]
  omega

theorem xRest_repack (h : RepackReady s q t so d0 d1) :
    xRest cl (xPieces (xBlock q) - q.piece) q s = (repackCredited s cl q t so d0 d1, repackDone q, none) := by
  rw [xPieces_repack h, h.piece]
  simp only [Nat.sub_zero, xRest, xAdvance_repack h]

/-- What is left to credit at the end: nothing. -/
theorem repack_rest (h : RepackReady s q t so d0 d1) : xTotal (xBlock q) - (repackDone q).credited = 0 := by
  simp only [xTotal, h.op, repackDone, h.credited, repackTotal, mxBytes, Nat.zero_add, Nat.sub_self]

/-- The claim requests of the cluster wait as they did, and its queue is what is left of it. -/
theorem repackFinal_cluster {rest : List XformReq} (h : RepackReady s q t so d0 d1) (hb : BarReady s t (xBlock q).bar)
    (hxq : (clusterOf s cl).xq = q :: rest) :
    (clusterOf (repackFinal s cl q t so d0 d1) cl).xq = rest.filter (fun x => ¬ (x.key = q.key ∧ x.ptr = q.ptr)) ∧
    (clusterOf (repackFinal s cl q t so d0 d1) cl).claimq = (clusterOf s cl).claimq := by
  have hhome := homeOnly_setBlockState (xDequeue (repackCredited s cl q t so d0 d1) cl (repackDone q)) t q.ptr 3
  obtain ⟨-, hclusters, -⟩ := repackCredited_step (cl := cl) h hb
  have hs : clusterOf (repacked s t (xBlock q) so d0 d1) cl = clusterOf s cl := by
    rw [clusterOf, (homeOnly_repacked s t (xBlock q) so d0 d1).clusters, clusterOf]
  have hcl : clusterOf (repackFinal s cl q t so d0 d1) cl = { clusterOf s cl with
      xq := (lmodWhere (fun x => x.key = q.key && x.ptr = q.ptr) (fun _ => repackDone q) (clusterOf s cl).xq).filter
        (fun x => !(x.key = q.key && x.ptr = q.ptr)) } := by
    rw [repackFinal, clusterOf, hhome.clusters, ← clusterOf, xDequeue, clusterOf_setCluster, clusterOf, hclusters, ← clusterOf,
      repackNoted, setXform, clusterOf_setCluster, hs]
    rfl
  rw [hcl, hxq]
  refine ⟨?_, rfl⟩
  simp only [lmodWhere, decide_true, Bool.and_self, if_true, repackDone, List.filter_cons, Bool.not_true, Bool.false_eq_true, if_false]
  refine List.filter_congr (fun x _ => ?_)
  simp only [Bool.decide_and, decide_not]

/-- The state at the end: nothing is left to credit, and the barrier is credited with that. -/
def repackEnd (s : State) (cl : ℕ) (q : XformReq) (t : Strand) (so d0 d1 : ℕ) : State :=
  credit (repackFinal s cl q t so d0 d1) q.key t.issued (xBlock q).bar 0 0

/-- The end's credit, from the state before it. -/
theorem repackEnd_step (h : RepackReady s q t so d0 d1) (hb : BarReady s t (xBlock q).bar) :
    ScratchStep (repackFinal s cl q t so d0 d1) (repackEnd s cl q t so d0 d1) (barLocs t (xBlock q).bar) ∧
    (repackEnd s cl q t so d0 d1).clusters = (repackFinal s cl q t so d0 d1).clusters ∧
    ((xBlock q).bar ≠ 0 → barValue (repackEnd s cl q t so d0 d1) t (xBlock q).bar =
      if bBroken (barValue (repackFinal s cl q t so d0 d1) t (xBlock q).bar) then barValue (repackFinal s cl q t so d0 d1) t (xBlock q).bar
      else creditNat (barValue (repackFinal s cl q t so d0 d1) t (xBlock q).bar) 0 0) := by
  obtain ⟨hcredit, -, -⟩ := repackCredited_step (cl := cl) h hb
  have hfinal := ((scratchStep_repackNoted s cl q t so d0 d1).trans hcredit).trans (scratchStep_repackFinal s cl q t so d0 d1)
  obtain ⟨r, hr⟩ := hfinal.strands _ _ h.strand
  exact credit_step t.issued 0 hr (hfinal.barReady hb)

theorem xComplete_repack {rest : List XformReq} (h : RepackReady s q t so d0 d1) (hb : BarReady s t (xBlock q).bar)
    (hxq : (clusterOf s cl).xq = q :: rest) (hclaim : (clusterOf s cl).claimq = []) :
    xComplete s cl q = repackEnd s cl q t so d0 d1 := by
  obtain ⟨hcredit, -, -⟩ := repackCredited_step (cl := cl) h hb
  obtain ⟨r, hr⟩ := ((scratchStep_repackNoted s cl q t so d0 d1).trans hcredit).strands _ _ h.strand
  obtain ⟨-, hclusters, -⟩ := repackEnd_step (cl := cl) h hb
  obtain ⟨-, hclaims⟩ := repackFinal_cluster h hb hxq
  have hnil : (clusterOf (repackEnd s cl q t so d0 d1) cl).claimq = [] := by
    rw [clusterOf, hclusters, ← clusterOf, hclaims, hclaim]
  have hfinish : xFinish (repackCredited s cl q t so d0 d1) cl (repackDone q) 3 0 = serveClaims (repackEnd s cl q t so d0 d1) cl := by
    rw [xFinish_eq (t := { t with resv := r }) cl (repackDone q) 3 0 hr h.granted]
    rw [show xBlockOf (leNat (repackDone q).block) = xBlock q from rfl, repack_rest h]
    rfl
  have hrest : xRest cl (xPieces (xBlockOf (leNat q.block)) - q.piece) q s = (repackCredited s cl q t so d0 d1, repackDone q, none) :=
    xRest_repack h
  rw [xComplete, hrest]
  dsimp only
  rw [hfinish, serveClaims_of_nil hnil]

/-- A REPACK's bytes, its STATE, its barrier and every other byte at the end. -/
theorem repackEnd_bytes (h : RepackReady s q t so d0 d1) (hb : BarReady s t (xBlock q).bar)
    (hnd : (repackElemLocs t (xBlock q) d0 ++ repackScaleLocs t (xBlock q) d1 ++ stateWord t q.ptr ++ barLocs t (xBlock q).bar).Nodup) :
    let into := repackElemLocs t (xBlock q) d0 ++ repackScaleLocs t (xBlock q) d1
    let bs := (repackSrc t (xBlock q) so).map (peekLoc s)
    let u := repackEnd s cl q t so d0 d1
    into.map (peekLoc u) = repackElems (4 * mxBits (xBlock q).fmt) (xN (xBlock q)) bs ++ repackScales (4 * mxBits (xBlock q).fmt) (xN (xBlock q)) bs ∧
    (stateWord t q.ptr).map (peekLoc u) = leBytes 4 3 ∧
    ((xBlock q).bar ≠ 0 → bBroken (barValue s t (xBlock q).bar) = false →
      barValue u t (xBlock q).bar = creditNat (barValue s t (xBlock q).bar) (repackTotal q) 0) ∧
    ∀ l, l ∉ into ++ stateWord t q.ptr ++ barLocs t (xBlock q).bar → peekLoc u l = peekLoc s l := by
  intro into bs u
  obtain ⟨hnd', -, hbar⟩ := List.nodup_append.mp hnd
  obtain ⟨hndInto, -, hword⟩ := List.nodup_append.mp hnd'
  have hbar' : ∀ l ∈ barLocs t (xBlock q).bar, l ∉ into ∧ l ∉ stateWord t q.ptr := fun l hl =>
    ⟨fun hi => hbar l (List.mem_append_left _ hi) l hl rfl, fun hw => hbar l (List.mem_append_right _ hw) l hl rfl⟩
  have hnoted := scratchStep_repackNoted s cl q t so d0 d1
  obtain ⟨hcredit, -, hvalue⟩ := repackCredited_step (cl := cl) h hb
  have hfinal := scratchStep_repackFinal s cl q t so d0 d1
  obtain ⟨hend, -, hvalue'⟩ := repackEnd_step (cl := cl) h hb
  refine ⟨?_, ?_, fun hptr hok => ?_, fun l hl => ?_⟩
  · have hafter := (hcredit.trans hfinal).trans hend
    refine (hafter.map_peekLoc (ws := into) (fun l hl hin => ?_)).trans (map_peekLoc_repacked s t (xBlock q) so hndInto)
    rw [List.mem_append, List.mem_append] at hin
    rcases hin with (hin | hin) | hin
    · exact (hbar' l hin).1 hl
    · exact hword l hl l hin rfl
    · exact (hbar' l hin).1 hl
  · exact (hend.map_peekLoc (fun l hl hin => (hbar' l hin).2 hl)).trans (map_peekLoc_setBlockState _ t 3 h.aligned)
  · have h1 := barValue_congr hnoted hptr (fun l hl => (hbar' l hl).1)
    have h2 := hvalue hptr
    rw [h1, hok, if_neg Bool.false_ne_true] at h2
    have h3 := (barValue_congr hfinal hptr (fun l hl => (hbar' l hl).2)).trans h2
    have h4 := hvalue' hptr
    rw [h3, creditNat_zero_creditNat, ite_self] at h4
    exact h4
  · rw [List.mem_append, List.mem_append, not_or, not_or] at hl
    obtain ⟨⟨hinto, hstate⟩, hnobar⟩ := hl
    rw [hend.bytes l hnobar, hfinal.bytes l hstate, hcredit.bytes l hnobar, hnoted.bytes l hinto]

end

section
variable {e n : ℕ} {src into : List Loc} {was becomes : Loc → Byte} (hlen : src.length = n * (e + 1))
  (hinto : into.map becomes = repackElems e n (src.map was) ++ repackScales e n (src.map was))
include hlen hinto

/-- An element byte of the split layout, at its place. -/
theorem split_elem {i j : ℕ} {from' dest : Loc} (hj : j < n) (hi : i < e) (hfrom : src[j * (e + 1) + i]? = some from')
    (hdest : into[j * e + i]? = some dest) : becomes dest = was from' := by
  have hbs : (src.map was).length = n * (e + 1) := by rw [List.length_map, hlen]
  have hroom : j * e + i < n * e := by
    calc j * e + i < j * e + e := by omega
      _ = (j + 1) * e := (Nat.succ_mul j e).symm
      _ ≤ n * e := Nat.mul_le_mul_right e hj
  have hw : (into.map becomes)[j * e + i]? = some (becomes dest) := by rw [List.getElem?_map, hdest]; rfl
  rw [hinto, List.getElem?_append_left (by rwa [repackElems_length hbs]), repackElems_getElem? hbs hj hi, List.getElem?_map, hfrom] at hw
  exact (Option.some.inj hw).symm

/-- A scale byte of the split layout, at its place. -/
theorem split_scale {j : ℕ} {from' dest : Loc} (hj : j < n) (hfrom : src[j * (e + 1) + e]? = some from')
    (hdest : into[n * e + j]? = some dest) : becomes dest = was from' := by
  have hbs : (src.map was).length = n * (e + 1) := by rw [List.length_map, hlen]
  have helems := repackElems_length hbs
  have hw : (into.map becomes)[n * e + j]? = some (becomes dest) := by rw [List.getElem?_map, hdest]; rfl
  rw [hinto, List.getElem?_append_right (by rw [helems]; exact Nat.le_add_right _ _), helems, Nat.add_sub_cancel_left,
    repackScales_getElem? hbs hj, List.getElem?_map, hfrom] at hw
  exact (Option.some.inj hw).symm

end

/-- A REPACK into the split layout, from the event that completes it. -/
theorem repacks_hold : repacks := by
  intro s cl q rest t so d0 d1 hcl hxq hclaim hst hpiece hcredited hstrand hal hg b n e hop hflags hlo hhi hsrc hd0 hd1
    src into word a bar hread hnd hbar
  have hready : RepackReady s q t so d0 d1 := ⟨hstrand, hpiece, hcredited, hal, hg, hop, hflags, hlo, hhi, hsrc, hd0, hd1, hread⟩
  have hb : BarReady s t (xBlock q).bar := by
    intro hptr
    obtain ⟨hcheck, hbad, -⟩ := hbar hptr
    refine ⟨?_, hbad⟩
    by_contra hno
    have hno' : t.granules.length ≤ offOf b.bar / Config.granule := Nat.not_lt.mp hno
    rw [barrierCheck, if_pos hno'] at hcheck
    split at hcheck
    · cases hcheck
    · split at hcheck
      · cases hcheck
      · cases hcheck
  have hnd' : (repackElemLocs t (xBlock q) d0 ++ repackScaleLocs t (xBlock q) d1 ++ stateWord t q.ptr ++ barLocs t (xBlock q).bar).Nodup := hnd
  obtain ⟨hinto, hword, hvalue, hrest⟩ := repackEnd_bytes (cl := cl) hready hb hnd'
  obtain ⟨hqueue, -⟩ := repackFinal_cluster (cl := cl) hready hb hxq
  obtain ⟨-, hclusters, -⟩ := repackEnd_step (cl := cl) hready hb
  have hsrcLen : src.length = n * (e + 1) := scratchLocs_length _ _ _ _
  refine ⟨repackEnd s cl q t so d0 d1, ?_, ?_, fun j i from' dest hj hi hfrom hdest => split_elem hsrcLen hinto hj hi hfrom hdest,
    fun j from' dest hj hfrom hdest => split_scale hsrcLen hinto hj hfrom hdest, hword, fun hptr => hvalue hptr (hbar hptr).2.2, fun sp x hm => hrest (sp, x) hm⟩
  · refine (if_pos hcl).trans (congrArg _ ?_)
    rw [hxq]
    simp only [hst, if_true]
    exact xComplete_repack hready hb hxq hclaim
  · rw [clusterOf, hclusters]
    exact hqueue

/-- Settles O45: the issues by the loads and the one register they write, the events by what the unit's work leaves of strands and
queues, a REPACK by following its one piece and its credit byte by byte. -/
theorem transformResults : Obligations.TransformResults := ⟨transformIssues_hold, transformEvents_hold, repacks_hold⟩

end Sys2Proof.Proofs
end

section
/-! PROOFS. Rounding a magnitude to a multiple of a power of two (R38): `roundAt` against the two neighbours, by mode. -/

namespace Sys2Proof.Proofs

open Machine Oblig

/-- What R38 says of a value X rounded to r.1 steps of size P, inexactly where r.2 is set. -/
def NeighbourByMode (mode : ℕ) (neg : Bool) (X P : ℕ) (r : ℕ × Bool) : Prop :=
  let n := r.1 * P
  (n < X + P ∧ X < n + P) ∧ (r.2 = false ↔ n = X) ∧
  (mode = 0 → 2 * n ≤ 2 * X + P ∧ 2 * X ≤ 2 * n + P ∧ (2 * n = 2 * X + P ∨ 2 * X = 2 * n + P → r.1 % 2 = 0)) ∧
  (mode = 1 → n ≤ X) ∧ (mode = 2 → if neg then X ≤ n else n ≤ X) ∧ (mode = 3 → if neg then n ≤ X else X ≤ n) ∧
  (mode = 4 → r.2 = true → r.1 % 2 = 1)

/-- A value that is a multiple of the step is its own rounding in every mode. -/
theorem neighbourByMode_exact (mode : ℕ) (neg : Bool) (n : ℕ) {P : ℕ} (hP : 0 < P) : NeighbourByMode mode neg (n * P) P (n, false) := by
  unfold NeighbourByMode
  dsimp only
  refine ⟨⟨by omega, by omega⟩, by simp, fun _ => ⟨by omega, by omega, by omega⟩, fun _ => le_rfl, fun _ => ?_, fun _ => ?_, by simp⟩
  · cases neg <;> exact le_rfl
  · cases neg <;> exact le_rfl

/-- The statement does not depend on the unit that value and step are counted in. -/
theorem NeighbourByMode.scale {mode X P c : ℕ} {neg : Bool} {r : ℕ × Bool} (h : NeighbourByMode mode neg X P r) (hc : 0 < c) :
    NeighbourByMode mode neg (X * c) (P * c) r := by
  obtain ⟨⟨hlo, hhi⟩, hexact, hnear, hzero, hdown, hup, hodd⟩ := h
  have hmul : r.1 * (P * c) = r.1 * P * c := (Nat.mul_assoc _ _ _).symm
  have htwo (a : ℕ) : 2 * (a * c) = 2 * a * c := (Nat.mul_assoc _ _ _).symm
  have hle {a b : ℕ} : a * c ≤ b * c ↔ a ≤ b := Nat.mul_le_mul_right_iff hc
  have heq {a b : ℕ} : a * c = b * c ↔ a = b := Nat.mul_left_inj hc.ne'
  have hlt {a b : ℕ} : a * c < b * c ↔ a < b := Nat.mul_lt_mul_right hc
  simp only [NeighbourByMode, hmul, htwo, ← Nat.add_mul, hle, heq, hlt]
  exact ⟨⟨hlo, hhi⟩, hexact, hnear, hzero, hdown, hup, hodd⟩

/-- Which values above the multiple lo `roundsUp` sends to the upper neighbour, by mode. -/
theorem roundsUp_modes (mode draw : ℕ) (neg : Bool) (lo rem s : ℕ) :
    let up := roundsUp mode draw neg (decide (lo % 2 = 1)) rem s false
    (mode = 0 → (up = true ↔ 2 ^ s < 2 * rem ∨ 2 * rem = 2 ^ s ∧ lo % 2 = 1)) ∧ (mode = 1 → up = false) ∧ (mode = 2 → up = neg) ∧
    (mode = 3 → up = !neg) ∧ (mode = 4 → (up = true ↔ lo % 2 = 0)) := by
  refine ⟨?_, ?_, ?_, ?_, ?_⟩
  · rintro rfl
    simp [roundsUp]
  · rintro rfl
    rfl
  · rintro rfl
    rfl
  · rintro rfl
    rfl
  · rintro rfl
    simp [roundsUp]

/-- A value strictly between two multiples goes to the one that `roundsUp` names. -/
theorem neighbourByMode_roundsUp {lo rem s : ℕ} (mode draw : ℕ) (neg : Bool) (h0 : 0 < rem) (h1 : rem < 2 ^ s) :
    NeighbourByMode mode neg (lo * 2 ^ s + rem) (2 ^ s)
      (if roundsUp mode draw neg (decide (lo % 2 = 1)) rem s false then lo + 1 else lo, true) := by
  obtain ⟨hnear, hzero, hdown, hup, hodd⟩ := roundsUp_modes mode draw neg lo rem s
  have hsucc : (lo + 1) * 2 ^ s = lo * 2 ^ s + 2 ^ s := Nat.succ_mul _ _
  unfold NeighbourByMode
  generalize roundsUp mode draw neg (decide (lo % 2 = 1)) rem s false = up at *
  generalize 2 ^ s = P at *
  cases up
  · simp only [Bool.false_eq_true, false_iff, Bool.true_eq_false, if_false] at *
    refine ⟨by omega, by omega, fun h => ?_, fun _ => by omega, fun h => ?_, fun h => ?_, fun h _ => ?_⟩
    · have := hnear h
      omega
    · rw [← hdown h, if_neg Bool.false_ne_true]
      omega
    · obtain rfl : neg = true := by simpa using hup h
      rw [if_pos rfl]
      omega
    · have := hodd h
      omega
  · simp only [true_iff, Bool.true_eq_false, if_true, false_iff, hsucc] at *
    refine ⟨by omega, by omega, fun h => ?_, fun h => absurd h hzero, fun h => ?_, fun h => ?_, fun h _ => ?_⟩
    · have := hnear h
      omega
    · rw [← hdown h, if_pos rfl]
      omega
    · obtain rfl : neg = false := by simpa using hup h
      rw [if_neg Bool.false_ne_true]
      omega
    · have := hodd h
      omega

/-- `roundAt` with the magnitude's exponent above the last place kept: nothing is lost. -/
theorem roundAt_above {e q : ℕ} (mode draw mag : ℕ) (neg : Bool) (h : q < e) :
    roundAt mode draw neg mag e false q = (mag * 2 ^ (e - q), false) := by
  have hlt : ¬ (e : ℤ) ≤ q := by omega
  have hshift : ((e : ℤ) - q).toNat = e - q := by omega
  simp [roundAt, hlt, hshift, Nat.shiftLeft_eq]

/-- `roundAt` of lo × 2^s + rem in units of 2^s: the lower neighbour is lo. -/
theorem roundAt_split {lo rem s : ℕ} (mode draw e : ℕ) (neg : Bool) (h : rem < 2 ^ s) :
    roundAt mode draw neg (lo * 2 ^ s + rem) e false ((e + s : ℕ) : ℤ) =
      if rem = 0 then (lo, false) else (if roundsUp mode draw neg (decide (lo % 2 = 1)) rem s false then lo + 1 else lo, true) := by
  have hle : (e : ℤ) ≤ (e + s : ℕ) := by omega
  have hshift : (((e + s : ℕ) : ℤ) - e).toNat = s := by omega
  have hdiv : (lo * 2 ^ s + rem) / 2 ^ s = lo := by
    rw [Nat.add_comm, Nat.add_mul_div_right _ _ (by positivity), Nat.div_eq_of_lt h, Nat.zero_add]
  have hmod : (lo * 2 ^ s + rem) % 2 ^ s = rem := by rw [Nat.add_comm, Nat.add_mul_mod_self_right, Nat.mod_eq_of_lt h]
  simp only [roundAt, hle, if_true, hshift, Nat.shiftRight_eq_div_pow, hdiv, hmod, and_true]

/-- `roundAt` gives the neighbour that R38 names. -/
theorem roundAt_neighbourByMode (mode draw mag : ℕ) (neg : Bool) (e q : ℕ) :
    NeighbourByMode mode neg (mag * 2 ^ e) (2 ^ q) (roundAt mode draw neg mag e false q) := by
  by_cases hq : q < e
  · have hx : mag * 2 ^ e = mag * 2 ^ (e - q) * 2 ^ q := by rw [mul_assoc, ← pow_add, Nat.sub_add_cancel hq.le]
    rw [roundAt_above _ _ _ _ hq, hx]
    exact neighbourByMode_exact _ _ _ (by positivity)
  · obtain ⟨s, rfl⟩ : ∃ s, q = e + s := ⟨q - e, by omega⟩
    obtain ⟨lo, rem, hrem, rfl⟩ : ∃ lo rem, rem < 2 ^ s ∧ mag = lo * 2 ^ s + rem :=
      ⟨mag / 2 ^ s, mag % 2 ^ s, Nat.mod_lt _ (by positivity), (Nat.div_add_mod' _ _).symm⟩
    rw [roundAt_split _ _ _ _ hrem, pow_add, mul_comm (2 ^ e)]
    refine NeighbourByMode.scale ?_ (by positivity)
    split
    · next h => rw [h]; exact neighbourByMode_exact _ _ _ (by positivity)
    · next h => exact neighbourByMode_roundsUp _ _ _ (Nat.pos_of_ne_zero h) hrem

/-- Settles O30: value and step are counted in the smaller of their units, and the two neighbours compared mode by mode. -/
theorem roundingNeighbours : Obligations.RoundingNeighbours :=
  fun mode draw mag neg e q _ => roundAt_neighbourByMode mode draw mag neg e q

end Sys2Proof.Proofs
end

section
/-! PROOFS. One vector register written whole, and VARITH: its lanes and its traps (R142 to R144, R149 to R151, R421). -/

namespace Sys2Proof.Proofs

open Machine Oblig

/-! ### A register written whole -/

theorem vecWrites_imp {w : State} {o : Answer} {t : Strand} {len vd k fl : ℕ} {p q : Strand → Prop}
    (h : VecWrites w o t len vd k fl p) (hpq : ∀ t', p t' → q t') : VecWrites w o t len vd k fl q := by
  obtain ⟨t', hnext, hgoes, hframe, hothers, hp⟩ := h
  exact ⟨t', hnext, hgoes, hframe, hothers, hpq t' hp⟩

/-- A register written with the lanes of a list, and conditions ORed. -/
theorem vecWrites_register {s : State} {t : Strand} (len vd fl w : ℕ) (l : List ℕ) (h : Issues s t) (hl : w * l.length ≤ 512) :
    VecWrites s (retire len (writeStrand s t (fun u => orFlags (vSet u vd (ofLanes w l)) fl))) t len vd 1 fl
      (fun t' => vGet t' vd = ofLanes w l) := by
  refine vecWrites_write len vd 1 fl _ _ h (fun u => rfl) (fun r hr => ?_) (fun u hu => ?_)
  · exact (tget_vSet t vd r _).trans (if_neg (by omega))
  · have hlt : ofLanes w l < 2 ^ 512 := (ofLanes_lt w l).trans_le (Nat.pow_le_pow_right Nat.two_pos hl)
    rw [vGet_of_v (u := vSet t vd (ofLanes w l)) hu, vGet_vSet_self, Nat.mod_eq_of_lt hlt]

/-- What results become, lane by lane: an active lane takes its result, another keeps what it holds and raises nothing. -/
def mergedResults (t : Strand) (f : X96) (w n : ℕ) (g : ℕ → ℕ × ℕ) : List (ℕ × ℕ) :=
  (List.range n).map (fun i => if activeLane t f i then g i else (lane w i (vGet t f.vd.toNat), 0))

theorem mergedResults_length (t : Strand) (f : X96) (w n : ℕ) (g : ℕ → ℕ × ℕ) : (mergedResults t f w n g).length = n := by
  rw [mergedResults, List.length_map, List.length_range]

theorem lanesAre_merged {t t' : Strand} {f : X96} {w n : ℕ} {g : ℕ → ℕ × ℕ}
    (h : vGet t' f.vd.toNat = ofLanes w ((mergedResults t f w n g).map (·.1))) : LanesAre t t' f w n (fun i => (g i).1) := by
  intro i hi
  have hget : ((mergedResults t f w n g).map (·.1)).getD i 0 = (if activeLane t f i then g i else (lane w i (vGet t f.vd.toNat), 0)).1 := by
    rw [List.getD_eq_getElem?_getD, mergedResults, List.getElem?_map, List.getElem?_map, List.getElem?_range hi]
    rfl
  rw [vlaneOf, h, lane_ofLanes, hget]
  split
  · rfl
  · exact lane_mod_self w i _

theorem allFlags_merged (t : Strand) (f : X96) (w n : ℕ) (g : ℕ → ℕ × ℕ) (b : ℕ) :
    (allFlags (mergedResults t f w n g)).testBit b = true ↔ ∃ i < n, activeLane t f i = true ∧ (g i).2.testBit b = true := by
  rw [allFlags_testBit]
  simp only [mergedResults, List.mem_map, List.mem_range]
  constructor
  · rintro ⟨_, ⟨i, hi, rfl⟩, hb⟩
    by_cases ha : activeLane t f i = true
    · exact ⟨i, hi, ha, by simpa [ha] using hb⟩
    · simp [ha] at hb
  · rintro ⟨i, hi, ha, hb⟩
    exact ⟨_, ⟨i, hi, rfl⟩, by simpa [ha] using hb⟩

/-- Lanes of an element type fill a register. -/
theorem tyWidth_lanes (ty : ℕ) : tyWidth ty * (512 / tyWidth ty) ≤ 512 := Nat.mul_div_le 512 _

/-! ### The forms of VARITH -/

/-- Instruction i of len bytes is the VARITH function fn with source 2 a register, or a literal that fits a lane. -/
structure VarithForm (f : X96) (lit : Option Word) (fn : ℕ) (i : Instr) (len : ℕ) : Prop where
  meaning : ∀ s, exec i s = varith fn lit f i s
  length : instrLen i = len
  literal : (x160Of i).isSome = lit.isSome
  fits : formOk i = true → ∀ v ∈ lit, v.toNat < 2 ^ tyWidth f.ty.toNat

theorem varithForm_register {f : X96} : ∀ e ∈ varithForms f, VarithForm f none e.1 e.2 12 := by
  simp only [varithForms, List.forall_mem_cons]
  refine ⟨?_, ?_, ?_, ?_, ?_, ?_, ?_, ?_, ?_, ?_, ?_, ?_, ?_, ?_, ?_, ?_, ?_, ?_, ?_, ?_, by simp⟩ <;>
    exact ⟨fun _ => rfl, rfl, rfl, fun _ _ h => nomatch h⟩

theorem litOk_of_x160Ok {fn : ℕ} {f : X96} {l : Word} (h : x160Ok 0 fn f l = true) : l.toNat < 2 ^ tyWidth f.ty.toNat := by
  simp only [x160Ok, Bool.and_eq_true, litOk, decide_eq_true_eq] at h
  exact h.2

theorem varithForm_literal {f : X96} {l : Word} : ∀ e ∈ varithLiterals f l, VarithForm f (some l) e.1 e.2 20 := by
  have fits {fn : ℕ} {i : Instr} (hi : formOk i = x160Ok 0 fn f l) (h : formOk i = true) :
      ∀ v ∈ some l, v.toNat < 2 ^ tyWidth f.ty.toNat := by
    rintro v ⟨⟩
    exact litOk_of_x160Ok (hi ▸ h)
  simp only [varithLiterals, List.forall_mem_cons]
  refine ⟨?_, ?_, ?_, ?_, ?_, ?_, ?_, ?_, ?_, ?_, ?_, ?_, ?_, ?_, by simp⟩ <;>
    exact ⟨fun _ => rfl, rfl, rfl, fits rfl⟩

/-! ### The registers that VARITH names -/

/-- Registers named one by one. -/
theorem groupRegs_ones {gs : List (ℕ × ℕ)} (h : ∀ g ∈ gs, g.2 = 1) : groupRegs gs = gs.map (·.1) := by
  induction gs with
  | nil => rfl
  | cons g gs ih =>
    obtain ⟨hg, hgs⟩ := List.forall_mem_cons.mp h
    have hone : (List.range g.2).map (g.1 + ·) = [g.1] := by rw [hg]; rfl
    rw [groupRegs, List.flatMap_cons, hone, ← groupRegs, ih hgs]
    rfl

/-- Every group of `varithRegs` is one of the four operand fields. -/
theorem mem_varithRegs {fn : ℕ} {x160 : Bool} {f : X96} {g : ℕ × ℕ} (h : g ∈ varithRegs fn x160 f) :
    g.2 = 1 ∧ ∃ v ∈ [f.vd, f.vs1, f.vs2, f.vs3], g.1 = v.toNat := by
  have hfour : g = (f.vd.toNat, 1) ∨ g = (f.vs1.toNat, 1) ∨ g = (f.vs2.toNat, 1) ∨ g = (f.vs3.toNat, 1) := by
    simp only [varithRegs, List.mem_append, List.mem_cons, List.not_mem_nil, or_false] at h
    obtain ((h | h) | h) | h := h
    · exact .inl h
    · exact .inr (.inl h)
    · split at h
      · exact .inr (.inr (.inl (List.mem_singleton.mp h)))
      · cases h
    · split at h
      · exact .inr (.inr (.inr (List.mem_singleton.mp h)))
      · cases h
  obtain rfl | rfl | rfl | rfl := hfour
  · exact ⟨rfl, f.vd, by simp, rfl⟩
  · exact ⟨rfl, f.vs1, by simp, rfl⟩
  · exact ⟨rfl, f.vs2, by simp, rfl⟩
  · exact ⟨rfl, f.vs3, by simp, rfl⟩

theorem groupsMapped_varithRegs {t : Strand} {f : X96} (fn : ℕ) (x160 : Bool) (h : Mapped t [f.vd, f.vs1, f.vs2, f.vs3]) :
    GroupsMapped t (varithRegs fn x160 f) := by
  intro g hg
  obtain ⟨hone, v, hv, hgv⟩ := mem_varithRegs hg
  have := h v hv
  omega

/-- The lower of two unmapped registers, as far as found. -/
def lowerUnmapped (mapped : ℕ) (found : Option ℕ) (r : ℕ) : Option ℕ :=
  if mapped ≤ r then some (found.elim r (fun a => min a r)) else found

theorem unmapped_eq (t : Strand) (gs : List (ℕ × ℕ)) : unmapped t gs = (groupRegs gs).foldl (lowerUnmapped (8 * t.vblocks)) none := by
  unfold unmapped
  congr 1
  funext found r
  cases found <;> rfl

theorem foldl_lowerUnmapped {mapped r : ℕ} (hun : mapped ≤ r) (l : List ℕ) (hlow : ∀ q ∈ l, mapped ≤ q → r ≤ q) (found : Option ℕ)
    (hfound : ∀ a ∈ found, r ≤ a) (hmem : r ∈ l ∨ found = some r) : l.foldl (lowerUnmapped mapped) found = some r := by
  induction l generalizing found with
  | nil => exact hmem.resolve_left (by simp)
  | cons q l ih =>
    obtain ⟨hq, hl⟩ := List.forall_mem_cons.mp hlow
    rw [List.foldl_cons]
    refine ih hl _ (fun a ha => ?_) ?_
    · unfold lowerUnmapped at ha
      split at ha
      · next hqu =>
        rw [← Option.mem_some.mp ha]
        cases found with
        | none => exact hq hqu
        | some b => exact le_min (hfound b rfl) (hq hqu)
      · exact hfound a ha
    · obtain hr | rfl := hmem
      · obtain rfl | hr := List.mem_cons.mp hr
        · refine .inr ((if_pos hun).trans (congrArg some ?_))
          cases found with
          | none => rfl
          | some b => exact min_eq_right (hfound b rfl)
        · exact .inl hr
      · refine .inr ?_
        unfold lowerUnmapped
        split
        · next hqu => exact congrArg some (min_eq_left (hq hqu))
        · rfl

/-- The check finds the lowest unmapped register. -/
theorem unmapped_lowest {t : Strand} {gs : List (ℕ × ℕ)} {r : ℕ} (hr : r ∈ groupRegs gs) (hun : 8 * t.vblocks ≤ r)
    (hlow : ∀ q ∈ groupRegs gs, q < r → q < 8 * t.vblocks) : unmapped t gs = some r := by
  rw [unmapped_eq]
  refine foldl_lowerUnmapped hun _ (fun q hq hqu => ?_) none (fun _ h => nomatch h) (.inl hr)
  by_contra hlt
  have := hlow q hq (not_le.mp hlt)
  omega

/-! ### What VARITH does -/

/-- Source 2, lane by lane: the literal, or the register. -/
def varithSource (t : Strand) (f : X96) (lit : Option Word) : ℕ → ℕ :=
  lit.elim (vlaneOf t (tyWidth f.ty.toNat) f.vs2) (fun v _ => v.toNat)

/-- A lane looks at the machine's state for its draw alone, and waking registers leaves that. -/
theorem varithLane_wakeRegs (s : State) (t : Strand) (gs : List (ℕ × ℕ)) (fn : ℕ) (f : X96) (mode k a b c : ℕ) :
    varithLane (wakeRegs s t gs) t fn f mode k a b c = varithLane s t fn f mode k a b c := by
  simp only [varithLane, laneDraw_wakeRegs]

section
variable {s : State} {t : Strand} {f : X96} {lit : Option Word} {fn : ℕ} {i : Instr} {len : ℕ}

/-- A well-formed VARITH whose mode resolves and whose registers are mapped. -/
theorem exec_varith {mode : ℕ} (h : Issues s t) (hi : VarithForm f lit fn i len) (hok : formOk i = true)
    (hm : resolveMode t f.rm.toNat = some mode) (hgs : GroupsMapped t (varithRegs fn lit.isSome f)) :
    let w := tyWidth f.ty.toNat
    let r (k : ℕ) := varithLane s t fn f mode k (vlaneOf t w f.vs1 k) (varithSource t f lit k) (vlaneOf t w f.vs3 k)
    let res := mergedResults t f w (512 / w) r
    exec i s = retire len (writeStrand (wakeRegs s t (varithRegs fn lit.isSome f)) t (fun u =>
      orFlags (vSet u f.vd.toNat (ofLanes w (res.map (·.1)))) (allFlags res))) := by
  intro w r res
  rw [hi.meaning, varith, runStrand_eq _ h.1 h.2 hok, hi.length]
  simp only [hm, withRegs, unmapped_none hgs, tabulate_eq, varithLane_wakeRegs]
  cases lit with
  | none => rfl
  | some v =>
    simp only [Nat.mod_eq_of_lt (hi.fits hok v rfl)]
    rfl

/-- VARITH writes the active lanes' results and ORs their conditions. -/
theorem varith_writes {mode : ℕ} {src2 : ℕ → ℕ} (h : Issues s t) (hi : VarithForm f lit fn i len) (hok : formOk i = true)
    (hm : resolveMode t f.rm.toNat = some mode) (hgs : GroupsMapped t (varithRegs fn lit.isSome f)) (hsrc : varithSource t f lit = src2) :
    let w := tyWidth f.ty.toNat
    let r (k : ℕ) := varithLane s t fn f mode k (vlaneOf t w f.vs1 k) (src2 k) (vlaneOf t w f.vs3 k)
    ∃ fl gs, VecWrites (wakeRegs s t gs) (exec i s) t len f.vd.toNat 1 fl (fun t' => LanesAre t t' f w (512 / w) (fun k => (r k).1)) ∧
      ∀ b, fl.testBit b = true ↔ ∃ k < 512 / w, activeLane t f k = true ∧ (r k).2.testBit b = true := by
  subst hsrc
  intro w r
  refine ⟨allFlags (mergedResults t f w (512 / w) r), varithRegs fn lit.isSome f, ?_, allFlags_merged t f w (512 / w) r⟩
  rw [exec_varith h hi hok hm hgs]
  refine vecWrites_imp (vecWrites_register len f.vd.toNat _ w _ (wakeRegs_issues _ h) ?_) (fun t' ht' => lanesAre_merged ht')
  rw [List.length_map, mergedResults_length]
  exact tyWidth_lanes _

/-- A VARITH whose mode is reserved. -/
theorem varith_illegal (h : Issues s t) (hrep : t.rep = none) (hi : VarithForm f lit fn i len) (hok : formOk i = true)
    (hm : resolveMode t f.rm.toNat = none) : Traps s (exec i s) t 0x00 (firstParcel i) false := by
  have hparcel : curParcel s i = firstParcel i := by simp only [curParcel, h.1, strandOf_eq h.2, hrep]
  have htrap := traps_trapCur len (illegal s i) h rfl rfl
  rw [hi.meaning, varith, runStrand_eq _ h.1 h.2 hok, hi.length]
  simp only [hm]
  rw [← hparcel]
  exact htrap

/-- A VARITH whose mode resolves and that names an unmapped register. -/
theorem varith_unmapped {mode r : ℕ} (h : Issues s t) (hi : VarithForm f lit fn i len) (hok : formOk i = true)
    (hm : resolveMode t f.rm.toNat = some mode) (hr : unmapped t (varithRegs fn lit.isSome f) = some r) :
    Traps s (exec i s) t 0x07 (BitVec.ofNat 64 r) false := by
  rw [hi.meaning, varith, runStrand_eq _ h.1 h.2 hok, hi.length]
  simp only [hm, withRegs, hr]
  exact traps_trapCur len (unmappedTrap r) h rfl rfl

/-- Both traps of VARITH, of any form. -/
theorem varith_traps (h : Issues s t) (hrep : t.rep = none) (hi : VarithForm f lit fn i len) (hok : formOk i = true) :
    (f.rm = 7 → 6 ≤ t.vxrm.toNat % 8 → Traps s (exec i s) t 0x00 (firstParcel i) false) ∧
    (∀ r, (f.rm ≠ 7 ∨ t.vxrm.toNat % 8 < 6) → 8 * t.vblocks ≤ r → r ∈ (varithRegs fn (x160Of i).isSome f).map (·.1) →
      (∀ q ∈ (varithRegs fn (x160Of i).isSome f).map (·.1), q < r → q < 8 * t.vblocks) →
      Traps s (exec i s) t 0x07 (BitVec.ofNat 64 r) false) := by
  refine ⟨fun hrm hvx => varith_illegal h hrep hi hok ?_, fun r hmode hun hr hlow => ?_⟩
  · rw [resolveMode, hrm]
    exact (if_pos rfl).trans (if_neg (not_lt.mpr hvx))
  · obtain ⟨mode, hm⟩ : ∃ mode, resolveMode t f.rm.toNat = some mode := by
      by_cases h7 : f.rm.toNat = 7
      · have hrm : f.rm = 7 := BitVec.eq_of_toNat_eq h7
        exact ⟨_, (if_pos h7).trans (if_pos (hmode.resolve_left (not_not_intro hrm)))⟩
      · exact ⟨_, if_neg h7⟩
    rw [hi.literal, ← groupRegs_ones (fun g hg => (mem_varithRegs hg).1)] at hr hlow
    exact varith_unmapped h hi hok hm (unmapped_lowest hr hun hlow)

end

theorem varithCompletes_hold : varithCompletes := by
  intro s t f l mode h hm hmapped w writes
  refine ⟨fun e he hok => ?_, fun e he hok => ?_⟩
  · exact varith_writes h (varithForm_register e he) hok hm (groupsMapped_varithRegs _ _ hmapped) rfl
  · exact varith_writes h (varithForm_literal e he) hok hm (groupsMapped_varithRegs _ _ hmapped) rfl

theorem varithTraps_hold : varithTraps := by
  intro s t f l h hrep e he hok
  obtain he | he := List.mem_append.mp he
  · exact varith_traps h hrep (varithForm_register e he) hok
  · exact varith_traps h hrep (varithForm_literal e he) hok

/-- Settles O31: every form is `varith` of its function, which writes one register lane by lane; the traps come from its two checks. -/
theorem varithResults : Obligations.VarithResults := ⟨varithCompletes_hold, varithTraps_hold⟩

end Sys2Proof.Proofs
end

section
/-! PROOFS. VRED and VSCAN: the tree and the running result (R48, R173). -/

namespace Sys2Proof.Proofs

open Machine Oblig

/-! ### The tree and the sum -/

section
variable {g : ℕ → ℕ → ℕ × ℕ} {m : ℕ}

theorem pairUp_length (g : ℕ → ℕ → ℕ × ℕ) : ∀ l : List ℕ, 2 * (pairUp g l).1.length ≤ l.length + 1
  | [] => by simp [pairUp]
  | [a] => by simp [pairUp]
  | a :: b :: l => by
    have ih := pairUp_length g l
    simp only [pairUp, List.length_cons]
    omega

/-- A level of the tree keeps the sum, where its operation adds modulo m. -/
theorem pairUp_sum (hg : ∀ a b, (g a b).1 ≡ a + b [MOD m]) : ∀ l : List ℕ, (pairUp g l).1.sum ≡ l.sum [MOD m]
  | [] => rfl
  | [a] => rfl
  | a :: b :: l => by
    simp only [pairUp, List.sum_cons, ← Nat.add_assoc]
    exact (hg a b).add (pairUp_sum hg l)

/-- A tree with levels enough for its leaves gives their sum. -/
theorem tree_sum (hg : ∀ a b, (g a b).1 ≡ a + b [MOD m]) (fuel : ℕ) (l : List ℕ) (hl : l.length ≤ 2 ^ fuel) :
    (tree g fuel l).1 ≡ l.sum [MOD m] := by
  induction fuel generalizing l with
  | zero =>
    match l, hl with
    | [], _ => rfl
    | [a], _ => rfl
  | succ fuel ih =>
    match l, hl with
    | [], _ => rfl
    | [a], _ => rfl
    | a :: b :: l, hl =>
      have hlevel : (tree g (fuel + 1) (a :: b :: l)).1 = (tree g fuel (pairUp g (a :: b :: l)).1).1 := rfl
      have hlen := pairUp_length g (a :: b :: l)
      rw [hlevel]
      exact (ih _ (by rw [pow_succ] at hl; omega)).trans (pairUp_sum hg _)

end

/-- The sum of the members that pass a test. -/
theorem sum_map_filter (p : ℕ → Bool) (x : ℕ → ℕ) (l : List ℕ) :
    ((l.filter p).map x).sum = (l.map (fun i => if p i then x i else 0)).sum := by
  induction l with
  | nil => rfl
  | cons i l ih =>
    rw [List.filter_cons, List.map_cons, List.sum_cons, ← ih]
    split
    · rw [List.map_cons, List.sum_cons]
    · rw [Nat.zero_add]

/-! ### The wrapping sum of integer lanes -/

theorem ofInt_patternInt (sg : Bool) (w c : ℕ) : BitVec.ofInt w (patternInt sg w c) = BitVec.ofNat w c := by
  cases sg
  · rw [patternInt, if_neg Bool.false_ne_true, BitVec.ofInt_natCast, BitVec.ofNat_toNat, BitVec.setWidth_eq]
  · rw [patternInt, if_pos rfl, BitVec.ofInt_toInt]

theorem reduceOp_add_modEq {ty : ℕ} (h : ty < 8) (mode a b : ℕ) :
    (reduceOp 0 ty mode false a b).1 ≡ a + b [MOD 2 ^ tyWidth ty] := by
  have hint : tyInt ty = true := by simp [tyInt, h]
  have hop : (reduceOp 0 ty mode false a b).1 = ulow (tyWidth ty) (intValue ty a + intValue ty b) := by
    simp [reduceOp, hint, intResult]
  rw [hop, ulow_eq, intValue_eq, intValue_eq, BitVec.ofInt_add, ofInt_patternInt, ofInt_patternInt, ← BitVec.ofNat_add,
    BitVec.toNat_ofNat]
  exact Nat.mod_modEq _ _

/-- Lanes of an integer type: at most 64, the leaves of a tree of 6 levels. -/
theorem lanes_le_of_int {ty : ℕ} (h : ty < 8) : 512 / tyWidth ty ≤ 64 := by
  have h8 : 8 ≤ tyWidth ty := by
    rw [tyWidth, if_pos h, Nat.shiftLeft_eq]
    exact Nat.le_mul_of_pos_right 8 (by positivity)
  exact Nat.div_le_of_le_mul (by omega)

/-! ### Running results -/

/-- The running result of lane i, with the conditions of its operation: lane 0 performs none. -/
def scanStep (g : ℕ → ℕ → ℕ × ℕ) (first : ℕ) (x : ℕ → ℕ) : ℕ → ℕ × ℕ
  | 0 => (first, 0)
  | i + 1 => g (scanStep g first x i).1 (x (i + 1))

theorem scanFrom_eq (g : ℕ → ℕ → ℕ × ℕ) (first : ℕ) (x : ℕ → ℕ) (n k : ℕ) :
    scanFrom g (scanStep g first x k).1 ((List.range' (k + 1) n).map x) = (List.range' (k + 1) n).map (scanStep g first x) := by
  induction n generalizing k with
  | zero => rfl
  | succ n ih =>
    rw [List.range'_succ, List.map_cons, List.map_cons, scanFrom, ← ih (k + 1)]
    rfl

/-- The running results of n + 1 lanes. -/
theorem scan_eq (g : ℕ → ℕ → ℕ × ℕ) (first : ℕ) (x : ℕ → ℕ) (n : ℕ) :
    (first, 0) :: scanFrom g first ((List.range (n + 1)).map x).tail = (List.range (n + 1)).map (scanStep g first x) := by
  rw [List.range_eq_range', List.range'_succ, List.map_cons, List.map_cons, List.tail_cons, ← scanFrom_eq g first x n 0]
  rfl

theorem zipIdx_map_range {α : Type} (f : ℕ → α) (n : ℕ) : ((List.range n).map f).zipIdx = (List.range n).map (fun i => (f i, i)) :=
  List.ext_getElem (by simp) (fun i _ _ => by simp)

/-! ### The instructions -/

/-- Lane i of the source, or the operation's identity. -/
def reduceSource (t : Strand) (f : X96) (i : ℕ) : ℕ :=
  if activeLane t f i then vlaneOf t (tyWidth f.ty.toNat) f.vs1 i else reduceId f.aux.toNat f.ty.toNat

theorem reduceLanes_eq (t : Strand) (f : X96) : reduceLanes t f = (List.range (512 / tyWidth f.ty.toNat)).map (reduceSource t f) :=
  tabulate_eq _ _

theorem tyWidth_le (ty : ℕ) : tyWidth ty ≤ 512 := by
  obtain ⟨a, ha, hw⟩ := tyWidth_pow ty
  rw [hw]
  exact Nat.pow_le_pow_right (n := 2) (by decide) ha

/-- Every width leaves a lane. -/
theorem lanes_pos (ty : ℕ) : ∃ n, 512 / tyWidth ty = n + 1 :=
  Nat.exists_eq_add_one.mpr (Nat.div_pos (tyWidth_le ty) (tyWidth_pos ty))

section
variable {s : State} {t : Strand} {f : X96} {mode : ℕ} (h : Issues s t) (hm : resolveMode t f.rm.toNat = some mode)
  (hsr : f.aux = 0 → tyFloat f.ty.toNat = true → mode ≠ 5) (hmapped : Mapped t [f.vd, f.vs1])
include h hm hsr hmapped

/-- VRED and VSCAN, well-formed, with a mode that they accept and their registers mapped. -/
theorem vlane_reduces {i : Instr} (g : State → Strand → ℕ → Res) (hok : formOk i = true) (hlen : instrLen i = 12) :
    vlane f i s (fpAdd f) [(f.vd.toNat, 1), (f.vs1.toNat, 1)] g =
      retire 12 (g (wakeRegs s t [(f.vd.toNat, 1), (f.vs1.toNat, 1)]) t mode) := by
  have hmode : ¬ (fpAdd f && mode = 5) = true := by
    simp only [fpAdd, Bool.and_eq_true, decide_eq_true_eq]
    rintro ⟨⟨haux, hty⟩, h5⟩
    exact hsr haux hty h5
  have hgs : GroupsMapped t [(f.vd.toNat, 1), (f.vs1.toNat, 1)] :=
    groupsMapped_two (hmapped f.vd (by simp)) (hmapped f.vs1 (by simp))
  rw [vlane, runStrand_eq _ h.1 h.2 hok, hlen]
  simp only [hm, hmode, withRegs, unmapped_none hgs]
  rfl

theorem vred_writes (hok : formOk (.vred f) = true) :
    let w := tyWidth f.ty.toNat
    let r := tree (reduceOp f.aux.toNat f.ty.toNat mode f.sat) 7 ((List.range (512 / w)).map (reduceSource t f))
    VecWrites (wakeRegs s t [(f.vd.toNat, 1), (f.vs1.toNat, 1)]) (exec (.vred f) s) t 12 f.vd.toNat 1 r.2
      (fun t' => vGet t' f.vd.toNat = r.1 % 2 ^ w) := by
  intro w r
  have hw : w * [r.1].length ≤ 512 := by simpa using tyWidth_le f.ty.toNat
  have hmeaning : exec (.vred f) s = vlane f (.vred f) s (fpAdd f) [(f.vd.toNat, 1), (f.vs1.toNat, 1)] (fun s1 t mode =>
      let r := tree (reduceOp f.aux.toNat f.ty.toNat mode f.sat) 7 (reduceLanes t f)
      writeStrand s1 t (fun u => orFlags (vSet u f.vd.toNat (ofLanes w [r.1])) r.2)) := rfl
  rw [hmeaning, vlane_reduces h hm hsr hmapped _ hok rfl, reduceLanes_eq]
  refine vecWrites_imp (vecWrites_register 12 f.vd.toNat _ w _ (wakeRegs_issues _ h) hw) (fun t' ht' => ht'.trans ?_)
  simp [ofLanes, r, w]

theorem vscan_writes (hok : formOk (.vscan f) = true) :
    let w := tyWidth f.ty.toNat
    let p := scanStep (reduceOp f.aux.toNat f.ty.toNat mode f.sat) (scanFirst f (reduceSource t f 0)) (reduceSource t f)
    VecWrites (wakeRegs s t [(f.vd.toNat, 1), (f.vs1.toNat, 1)]) (exec (.vscan f) s) t 12 f.vd.toNat 1
      (allFlags ((List.range (512 / w)).map p)) (fun t' => LanesAre t t' f w (512 / w) (fun i => (p i).1)) := by
  intro w p
  obtain ⟨n, hn⟩ := lanes_pos f.ty.toNat
  have hmeaning : exec (.vscan f) s = vlane f (.vscan f) s (fpAdd f) [(f.vd.toNat, 1), (f.vs1.toNat, 1)] (fun s1 t mode =>
      let first := scanFirst f ((reduceLanes t f).headD 0)
      let ps := (first, 0) :: scanFrom (reduceOp f.aux.toNat f.ty.toNat mode f.sat) first (reduceLanes t f).tail
      writeStrand s1 t (fun u => orFlags (vSet u f.vd.toNat (ofLanes w (ps.zipIdx.map (fun e =>
        if activeLane t f e.2 then e.1.1 else lane w e.2 (vGet t f.vd.toNat))))) (allFlags ps))) := rfl
  have hfirst : (reduceLanes t f).headD 0 = reduceSource t f 0 := by
    rw [reduceLanes_eq, hn, List.range_succ_eq_map]
    rfl
  have hps : (scanFirst f (reduceSource t f 0), 0) ::
      scanFrom (reduceOp f.aux.toNat f.ty.toNat mode f.sat) (scanFirst f (reduceSource t f 0)) (reduceLanes t f).tail =
      (List.range (512 / w)).map p := by
    rw [reduceLanes_eq, hn, scan_eq]
  have hnew : ((List.range (512 / w)).map p).zipIdx.map (fun e => if activeLane t f e.2 then e.1.1 else lane w e.2 (vGet t f.vd.toNat)) =
      (mergedResults t f w (512 / w) p).map (·.1) := by
    rw [zipIdx_map_range, mergedResults, List.map_map, List.map_map]
    refine List.map_congr_left (fun i _ => ?_)
    rw [Function.comp_apply, Function.comp_apply, apply_ite Prod.fst]
  rw [hmeaning, vlane_reduces h hm hsr hmapped _ hok rfl]
  simp only [hfirst, hps, hnew]
  refine vecWrites_imp (vecWrites_register 12 f.vd.toNat _ w _ (wakeRegs_issues _ h) ?_) (fun t' ht' => lanesAre_merged ht')
  rw [List.length_map, mergedResults_length]
  exact tyWidth_lanes _

end

/-- An integer addition that wraps gives lane 0 the sum of the active lanes. -/
theorem vred_sum {t : Strand} {f : X96} (mode : ℕ) (hty : f.ty.toNat < 8) (haux : f.aux = 0) (hsat : f.sat = false) :
    let w := tyWidth f.ty.toNat
    (tree (reduceOp f.aux.toNat f.ty.toNat mode f.sat) 7 ((List.range (512 / w)).map (reduceSource t f))).1 % 2 ^ w =
      (((List.range (512 / w)).filter (activeLane t f)).map (vlaneOf t w f.vs1)).sum % 2 ^ w := by
  intro w
  have haux0 : f.aux.toNat = 0 := by rw [haux]; rfl
  have hid : reduceId 0 f.ty.toNat = 0 := by simp [reduceId, tyInt, hty]
  have hsrc : reduceSource t f = fun i => if activeLane t f i then vlaneOf t w f.vs1 i else 0 := by
    funext i
    rw [reduceSource, haux0, hid]
  have hlen : ((List.range (512 / w)).map (reduceSource t f)).length ≤ 2 ^ 7 := by
    rw [List.length_map, List.length_range]
    exact (lanes_le_of_int hty).trans (by decide)
  rw [sum_map_filter, ← hsrc, haux0, hsat]
  exact tree_sum (reduceOp_add_modEq hty mode) 7 _ hlen

/-- Settles O39: VRED writes what the tree of R48 gives, a sum by induction on its levels; VSCAN's running results are a recursion on the lanes. -/
theorem reductionResults : Obligations.ReductionResults := by
  intro s t f mode h hm hsr hmapped ty w n op src
  refine ⟨fun hok => ?_, fun hok => ?_⟩
  · refine ⟨_, vecWrites_imp (vred_writes h hm hsr hmapped hok) (fun t' ht' => ⟨ht', fun hty haux hsat => ?_⟩)⟩
    rw [ht']
    exact vred_sum mode hty haux hsat
  · refine ⟨_, _, fun i => (scanStep op (scanFirst f (src 0)) src i).1, rfl, fun i => rfl, vscan_writes h hm hsr hmapped hok, fun b => ?_⟩
    rw [allFlags_testBit]
    simp only [List.mem_map, List.mem_range]
    constructor
    · rintro ⟨_, ⟨i, hi, rfl⟩, hb⟩
      cases i with
      | zero => simp [scanStep] at hb
      | succ i => exact ⟨i, hi, hb⟩
    · rintro ⟨i, hi, hb⟩
      exact ⟨_, ⟨i + 1, hi, rfl⟩, hb⟩

end Sys2Proof.Proofs
end

section
/-! PROOFS. A tile step's products (R49 to R52, R252): slots as lists of elements, and block products. -/

namespace Sys2Proof.Proofs

open Machine Oblig

/-! ### Tables and lists of values -/

theorem dense_length {α : Type} (d : α) (n k : ℕ) (t : Tab α) : (dense d n k t).length = n := by
  induction n generalizing k t with
  | zero => rfl
  | succ n ih =>
    cases t with
    | nil => rw [dense, List.length_cons, ih]
    | cons e t =>
      rw [dense]
      split <;> rw [List.length_cons, ih]

theorem tget_of_twfFrom_lt {α : Type} [DecidableEq α] {d : α} {lo k : ℕ} {t : Tab α} (h : twfFrom d lo t = true) (hk : k < lo) :
    tget d t k = d := by
  induction t generalizing lo with
  | nil => rfl
  | cons e t ih =>
    simp only [twfFrom, Bool.and_eq_true, decide_eq_true_eq] at h
    obtain ⟨⟨hlo, -⟩, ht⟩ := h
    rw [tget, if_neg (by omega), ih ht (by omega)]

/-- The list of a table in canonical form holds what the table reads. -/
theorem dense_getElem? {α : Type} [DecidableEq α] {d : α} {n k i : ℕ} {t : Tab α} (h : twfFrom d k t = true) (hi : i < n) :
    (dense d n k t)[i]? = some (tget d t (k + i)) := by
  induction n generalizing k i t with
  | zero => omega
  | succ n ih =>
    cases t with
    | nil =>
      cases i with
      | zero => rfl
      | succ i =>
        rw [dense, List.getElem?_cons_succ, ih rfl (by omega)]
        rfl
    | cons e t =>
      obtain ⟨j, v⟩ := e
      have h' := h
      simp only [twfFrom, Bool.and_eq_true, decide_eq_true_eq] at h'
      obtain ⟨⟨hlo, hv⟩, ht⟩ := h'
      rw [dense]
      by_cases hjk : j = k
      · subst hjk
        rw [if_pos rfl]
        cases i with
        | zero => simp [tget]
        | succ i =>
          rw [List.getElem?_cons_succ, ih ht (by omega), tget, if_neg (by omega), Nat.add_assoc, Nat.add_comm 1]
      · rw [if_neg hjk]
        have hlater : twfFrom d (k + 1) ((j, v) :: t) = true := by
          simp only [twfFrom, Bool.and_eq_true, decide_eq_true_eq]
          exact ⟨⟨by omega, hv⟩, ht⟩
        cases i with
        | zero => rw [List.getElem?_cons_zero, Nat.add_zero, tget_of_twfFrom_lt hlater (Nat.lt_succ_self k)]
        | succ i => rw [List.getElem?_cons_succ, ih hlater (by omega), Nat.add_assoc, Nat.add_comm 1]

theorem tget_sparse {α : Type} [DecidableEq α] (d : α) (k j : ℕ) (l : List α) :
    tget d (sparse d k l) j = if k ≤ j then l.getD (j - k) d else d := by
  induction l generalizing k with
  | nil => simp [sparse, tget]
  | cons v l ih =>
    have hrest : j ≠ k → (if k + 1 ≤ j then l.getD (j - (k + 1)) d else d) = if k ≤ j then (v :: l).getD (j - k) d else d := by
      intro hj
      by_cases hk : k ≤ j
      · rw [if_pos hk, if_pos (by omega), show j - k = j - (k + 1) + 1 by omega, List.getD_cons_succ]
      · rw [if_neg hk, if_neg (by omega)]
    rw [sparse]
    split
    · next hv =>
      rw [ih]
      by_cases hj : j = k
      · subst hj
        rw [if_neg (by omega), if_pos le_rfl, Nat.sub_self, List.getD_cons_zero, hv]
      · exact hrest hj
    · rw [tget]
      by_cases hj : j = k
      · subst hj
        rw [if_pos rfl, if_pos le_rfl, Nat.sub_self, List.getD_cons_zero]
      · rw [if_neg (Ne.symm hj), ih, hrest hj]

/-! ### The elements of a slot -/

/-- An element of a slot as products enter it: W, its NaN flag, and no overflow yet. -/
def slotElem (sl : SlotSt) (e : ℕ) : Elem := (tget 0 sl.w e, tget false sl.n e, false)

/-- The slot's elements, row by row. -/
def slotRows (sl : SlotSt) : List (List Elem) :=
  chunks 128 128 ((dense 0 16384 0 sl.w).zip ((dense false 16384 0 sl.n).map (fun n => (n, false))))

theorem dense_zip_getElem? {sl : SlotSt} {m e : ℕ} (hw : twf 0 sl.w = true) (hn : twf false sl.n = true) (he : e < m) :
    ((dense 0 m 0 sl.w).zip ((dense false m 0 sl.n).map (fun n => (n, false))))[e]? = some (slotElem sl e) := by
  have hw' := dense_getElem? hw he
  have hn' := dense_getElem? hn he
  rw [Nat.zero_add] at hw' hn'
  refine List.getElem?_zip_eq_some.mpr ⟨hw', ?_⟩
  rw [List.getElem?_map, hn']
  rfl

theorem slotRows_getElem? {sl : SlotSt} {r : ℕ} (hw : twf 0 sl.w = true) (hn : twf false sl.n = true) (hr : r < 128) :
    (slotRows sl)[r]? = some ((List.range 128).map (fun j => slotElem sl (128 * r + j))) := by
  rw [slotRows, chunks_getElem? _ _ hr]
  congr 1
  refine List.ext_getElem? (fun j => ?_)
  by_cases hj : j < 128
  · rw [List.getElem?_take_of_lt hj, List.getElem?_drop, Nat.mul_comm, dense_zip_getElem? hw hn (by omega), List.getElem?_map,
      List.getElem?_range hj]
    rfl
  · rw [List.getElem?_eq_none (by rw [List.length_take]; omega), List.getElem?_eq_none (by rw [List.length_map, List.length_range]; omega)]

theorem slotRows_length (sl : SlotSt) : (slotRows sl).length = 128 := chunks_length _ _ _

/-! ### Rows after a step -/

/-- The block products of a row and a column, entering an element one after the other. -/
def elemAfter (sl : SlotSt) (op : MmaOp) (a b : List Blk) (x : Elem) : Elem :=
  ((a.map (blkQ op.fa)).zip (b.map (blkQ op.fb))).foldl (fun x q => blockProduct sl.anchor (mxF op.fa + mxF op.fb) q.1 q.2 x) x

/-- A row of the slot after a step: an unused one stays. -/
def rowAfter (sl : SlotSt) (op : MmaOp) (cols : List (List Blk)) (row : Option (List Blk)) (es : List Elem) : List Elem :=
  row.elim es (fun a => (cols.zip es).map (fun p => elemAfter sl op a p.1 p.2))

/-- The slot's elements after a step. -/
def elemsAfter (sl : SlotSt) (op : MmaOp) (rows : List (Option (List Blk))) (cols : List (List Blk)) : List Elem :=
  ((rows.zip (slotRows sl)).map (fun p => rowAfter sl op cols p.1 p.2)).flatMap id

/-- `elemsAfter` by the two cases of a row. -/
theorem elemsAfter_of_cases {sl : SlotSt} {op : MmaOp} {cols : List (List Blk)} (rows : List (Option (List Blk)))
    (g : Option (List Blk) × List Elem → List Elem) (hnone : ∀ es, g (none, es) = es)
    (hsome : ∀ a es, g (some a, es) = (cols.zip es).map (fun p => elemAfter sl op a p.1 p.2)) :
    ((rows.zip (slotRows sl)).map g).flatMap id = elemsAfter sl op rows cols := by
  have hg : g = fun p => rowAfter sl op cols p.1 p.2 := by
    funext ⟨row, es⟩
    cases row with
    | none => exact hnone es
    | some a => exact hsome a es
  rw [hg, elemsAfter]

theorem slotProducts_eq (sl : SlotSt) (op : MmaOp) (rows : List (Option (List Blk))) (cols : List (List Blk)) :
    slotProducts sl op rows cols =
      { sl with w := sparse 0 0 ((elemsAfter sl op rows cols).map (·.1)), n := sparse false 0 ((elemsAfter sl op rows cols).map (·.2.1))
                ovf := sl.ovf || (elemsAfter sl op rows cols).any (·.2.2), steps := sl.steps + 1 } := by
  have hrow (a : List Blk) (es : List Elem) :
      rowProducts sl.anchor (mxF op.fa + mxF op.fb) (a.map (blkQ op.fa)) (cols.map (fun c => c.map (blkQ op.fb))) es =
        (cols.zip es).map (fun p => elemAfter sl op a p.1 p.2) := by
    rw [rowProducts, List.zip_map_left, List.map_map]
    rfl
  have hslot : chunks 128 128 ((dense 0 16384 0 sl.w).zip ((dense false 16384 0 sl.n).map (fun n => (n, false)))) = slotRows sl := rfl
  simp only [slotProducts, hslot]
  rw [elemsAfter_of_cases rows _ (fun es => ?_) (fun a es => ?_)]
  · rfl
  · exact hrow a es

theorem rowAfter_getElem? {sl : SlotSt} {op : MmaOp} {cols : List (List Blk)} {es : List Elem} {j : ℕ} {x : Elem} (row : Option (List Blk))
    (hcols : j < cols.length) (hes : es[j]? = some x) :
    (rowAfter sl op cols row es)[j]? = some (row.elim x (fun a => elemAfter sl op a (cols.getD j []) x)) := by
  cases row with
  | none => exact hes
  | some a =>
    have hzip : (cols.zip es)[j]? = some (cols.getD j [], x) :=
      List.getElem?_zip_eq_some.mpr ⟨by rw [List.getD_eq_getElem _ _ hcols]; exact List.getElem?_eq_getElem hcols, hes⟩
    simp only [rowAfter, Option.elim_some, List.getElem?_map, hzip, Option.map_some]

theorem rowAfter_length {sl : SlotSt} {op : MmaOp} {cols : List (List Blk)} {es : List Elem} (row : Option (List Blk))
    (hcols : cols.length = 128) (hes : es.length = 128) : (rowAfter sl op cols row es).length = 128 := by
  cases row with
  | none => exact hes
  | some a => simp [rowAfter, hcols, hes]

section
variable {sl : SlotSt} {op : MmaOp} {rows : List (Option (List Blk))} {cols : List (List Blk)}
  (hrows : rows.length = 128) (hcols : cols.length = 128) (hw : twf 0 sl.w = true) (hn : twf false sl.n = true)
include hrows hcols hw hn

/-- Element (r, j) after a step. -/
theorem elemsAfter_getElem? {r j : ℕ} (hr : r < 128) (hj : j < 128) :
    (elemsAfter sl op rows cols)[128 * r + j]? = some ((rows.getD r none).elim (slotElem sl (128 * r + j)) (fun a =>
      elemAfter sl op a (cols.getD j []) (slotElem sl (128 * r + j)))) := by
  have hlen : ∀ c ∈ (rows.zip (slotRows sl)).map (fun p => rowAfter sl op cols p.1 p.2), (id c).length = 128 := by
    intro c hc
    obtain ⟨⟨row, es⟩, hp, rfl⟩ := List.mem_map.mp hc
    obtain ⟨i, hi, hes⟩ := List.mem_iff_getElem.mp (List.of_mem_zip hp).2
    rw [slotRows_length] at hi
    have hes' := slotRows_getElem? hw hn hi
    rw [List.getElem?_eq_getElem (by rwa [slotRows_length]), hes] at hes'
    refine rowAfter_length row hcols ?_
    rw [Option.some.inj hes', List.length_map, List.length_range]
  have hzip : (rows.zip (slotRows sl))[r]? = some (rows.getD r none, (List.range 128).map (fun j => slotElem sl (128 * r + j))) :=
    List.getElem?_zip_eq_some.mpr ⟨by rw [List.getD_eq_getElem _ _ (hrows ▸ hr)]; exact List.getElem?_eq_getElem _, slotRows_getElem? hw hn hr⟩
  have helem : ((List.range 128).map (fun j => slotElem sl (128 * r + j)))[j]? = some (slotElem sl (128 * r + j)) := by
    rw [List.getElem?_map, List.getElem?_range hj]
    rfl
  rw [elemsAfter, Nat.mul_comm 128 r, getElem?_flatMap_const id _ hlen hj, List.getElem?_map, hzip, Nat.mul_comm r]
  exact rowAfter_getElem? _ (hcols ▸ hj) helem

/-- The fields of a slot after a step, element by element. -/
theorem slotProducts_elem {r j : ℕ} (hr : r < 128) (hj : j < 128) :
    let u := slotProducts sl op rows cols
    let e := 128 * r + j
    let out := (rows.getD r none).elim (slotElem sl e) (fun a => elemAfter sl op a (cols.getD j []) (slotElem sl e))
    tget 0 u.w e = out.1 ∧ tget false u.n e = out.2.1 ∧ (out.2.2 = true → u.ovf = true) := by
  intro u e out
  have hu : u = _ := slotProducts_eq sl op rows cols
  have helem : (elemsAfter sl op rows cols)[e]? = some out := elemsAfter_getElem? hrows hcols hw hn hr hj
  rw [hu]
  refine ⟨?_, ?_, fun h => ?_⟩
  · rw [tget_sparse, if_pos (Nat.zero_le _), Nat.sub_zero, List.getD_eq_getElem?_getD, List.getElem?_map, helem]
    rfl
  · rw [tget_sparse, if_pos (Nat.zero_le _), Nat.sub_zero, List.getD_eq_getElem?_getD, List.getElem?_map, helem]
    rfl
  · exact Bool.or_eq_true_iff.mpr (.inr (List.any_eq_true.mpr ⟨out, List.mem_of_getElem? helem, h⟩))

end

/-! ### Block products -/

/-- A block product of two blocks without NaN: the sum of products, brought to the anchor's weight and clamped to 96 bits. -/
theorem blockProduct_some (anchor f : ℤ) (xa xb : ℕ) (qa qb : List ℤ) (w : ℤ) (n o : Bool) :
    let x : ℤ := xa + xb - 254 + f
    let p := (qa.zip qb).foldl (fun acc q => acc + q.1 * q.2) 0
    let c : ℤ := if anchor ≤ x then p * 2 ^ (x - anchor).toNat else p.fdiv (2 ^ (anchor - x).toNat)
    blockProduct anchor f (some (xa, qa)) (some (xb, qb)) (w, n, o) =
      if 2 ^ 95 ≤ w + c then (2 ^ 95 - 1, n, true) else if w + c < -2 ^ 95 then (-2 ^ 95, n, true) else (w + c, n, o) := by
  intro x p c
  have hx : (xa : ℤ) - 127 + ((xb : ℤ) - 127) + f = x := by
    show _ = (xa : ℤ) + xb - 254 + f
    ring
  have hc : (if anchor ≤ x then p * ((2 ^ (x - anchor).toNat : ℕ) : ℤ) else p / ((2 ^ (anchor - x).toNat : ℕ) : ℤ)) = c := by
    show _ = if anchor ≤ x then p * 2 ^ (x - anchor).toNat else p.fdiv (2 ^ (anchor - x).toNat)
    rw [Int.fdiv_eq_ediv_of_nonneg _ (by positivity)]
    push_cast
    rfl
  have hhi : ((2 ^ 95 : ℕ) : ℤ) - 1 < w + c ↔ 2 ^ 95 ≤ w + c := by
    rw [Nat.cast_pow, Nat.cast_ofNat, Int.sub_one_lt_iff]
  have hp : (qa.zip qb).foldl (fun acc q => acc + q.1 * q.2) 0 = p := rfl
  simp only [blockProduct, hx, hp, hc, hhi]
  simp only [Nat.cast_pow, Nat.cast_ofNat]

theorem tileProducts_hold : tileProducts := by
  refine ⟨fun sl op rows cols r j hrows hcols hr hj hw hn => ?_, fun anchor f xa xb qa qb w n o =>
    ⟨blockProduct_some anchor f xa xb qa qb w n o, fun b => ⟨rfl, by cases b <;> rfl⟩⟩⟩
  intro u e out
  have hout : out = (rows.getD r none).elim (slotElem sl e) (fun a => elemAfter sl op a (cols.getD j []) (slotElem sl e)) := by
    simp only [out]
    cases rows.getD r none <;> rfl
  obtain ⟨hw', hn', hovf⟩ := slotProducts_elem (op := op) hrows hcols hw hn hr hj
  rw [hout]
  have hu : u = _ := slotProducts_eq sl op rows cols
  refine ⟨hw', hn', hovf, fun h => ?_, ?_, ?_⟩
  · rw [hu]
    exact Bool.or_eq_true_iff.mpr (.inl h)
  · rw [hu]
  · rw [hu]

end Sys2Proof.Proofs
end

section
/-! PROOFS. The matrix unit's state: slots, queues, what the arbiter and a wake leave, and what the unit reads (R190, R239 to R245). -/

namespace Sys2Proof.Proofs

open Machine Oblig

/-! ### Slots and queues -/

theorem sameBytes_refl (s : State) : SameBytes s s := fun _ _ => rfl

theorem sameBytes_trans {s u v : State} (h : SameBytes s u) (h' : SameBytes u v) : SameBytes s v :=
  fun sp a => (h' sp a).trans (h sp a)

theorem sameBytes_setCluster (s : State) (c : ℕ) (f : Cluster → Cluster) : SameBytes s (setCluster s c f) := peek_setCluster s c f

/-- What an update of a cluster keeps, it keeps of every cluster. -/
theorem setCluster_keeps {β : Type} (π : Cluster → β) (s : State) (c c' : ℕ) {f : Cluster → Cluster} (h : ∀ x, π (f x) = π x) :
    π (clusterOf (setCluster s c f) c') = π (clusterOf s c') := by
  by_cases hc : c' = c
  · rw [hc, clusterOf_setCluster, h]
  · rw [clusterOf_setCluster_of_ne s f hc]

theorem slotOf_setSlot (s : State) (cl p : ℕ) (f : SlotSt → SlotSt) : slotOf (setSlot s cl p f) cl p = f (slotOf s cl p) := by
  rw [slotOf, setSlot, clusterOf_setCluster, tget_tins_self]
  rfl

theorem queueOf_setSlot (s : State) (cl p core : ℕ) (f : SlotSt → SlotSt) : queueOf (setSlot s cl p f) core = queueOf s core :=
  congrArg (fun q => tget [] q core) (setCluster_keeps (·.mq) s cl _ (fun _ => rfl))

theorem slotOf_setQueue (s : State) (cl p core : ℕ) (f : List MatrixCmd → List MatrixCmd) :
    slotOf (setQueue s core f) cl p = slotOf s cl p :=
  congrArg (fun q => tget ({} : SlotSt) q p) (setCluster_keeps (·.slots) s _ cl (fun _ => rfl))

theorem queueOf_setQueue (s : State) (core : ℕ) (f : List MatrixCmd → List MatrixCmd) :
    queueOf (setQueue s core f) core = f (queueOf s core) := by
  rw [queueOf, setQueue, clusterOf_setCluster, tmod, tget_tset_self]
  rfl

theorem queueOf_dequeue (s : State) (c : MatrixCmd) : queueOf (dequeue s c) c.core = (queueOf s c.core).filter (fun x => x.id ≠ c.id) :=
  queueOf_setQueue s c.core _

theorem slotOf_of_clusters {s u : State} (h : u.clusters = s.clusters) (cl p : ℕ) : slotOf u cl p = slotOf s cl p := by
  rw [slotOf, clusterOf, h, ← clusterOf, ← slotOf]

theorem queueOf_of_clusters {s u : State} (h : u.clusters = s.clusters) (core : ℕ) : queueOf u core = queueOf s core := by
  rw [queueOf, clusterOf, h, ← clusterOf, ← queueOf]

/-! ### What the arbiter and a wake leave -/

/-- From s to u, nothing differs that the unit's commands read or write: strands, launches, shards, storage and its poison; of the
clusters, slots, queues and tables. -/
structure SameUnit (s u : State) : Prop where
  strands : u.strands = s.strands
  runs : u.runs = s.runs
  shards : u.shards = s.shards
  spaces : ∀ sp, spaceOf u sp = spaceOf s sp
  bad : ∀ sp, badOf u sp = badOf s sp
  slots : ∀ c, (clusterOf u c).slots = (clusterOf s c).slots
  queues : ∀ c, (clusterOf u c).mq = (clusterOf s c).mq
  tables : ∀ c, (clusterOf u c).tables = (clusterOf s c).tables

theorem SameUnit.trans {s u v : State} (h : SameUnit s u) (h' : SameUnit u v) : SameUnit s v where
  strands := h'.strands.trans h.strands
  runs := h'.runs.trans h.runs
  shards := h'.shards.trans h.shards
  spaces := fun sp => (h'.spaces sp).trans (h.spaces sp)
  bad := fun sp => (h'.bad sp).trans (h.bad sp)
  slots := fun c => (h'.slots c).trans (h.slots c)
  queues := fun c => (h'.queues c).trans (h.queues c)
  tables := fun c => (h'.tables c).trans (h.tables c)

theorem CoresOnly.sameUnit {s u : State} (h : CoresOnly s u) : SameUnit s u := by
  obtain ⟨c, rfl⟩ := h
  exact ⟨rfl, rfl, rfl, fun sp => by cases sp <;> rfl, fun sp => by cases sp <;> rfl, fun _ => rfl, fun _ => rfl, fun _ => rfl⟩

theorem sameUnit_arbTake (s : State) (cl : ℕ) : SameUnit s (arbTake s cl) := by
  unfold arbTake
  split
  · exact CoresOnly.sameUnit ⟨s.cores, rfl⟩
  · exact ⟨rfl, rfl, rfl, fun sp => by cases sp <;> rfl, fun sp => by cases sp <;> rfl,
      fun c => setCluster_keeps (·.slots) s cl c (fun _ => rfl), fun c => setCluster_keeps (·.mq) s cl c (fun _ => rfl),
      fun c => setCluster_keeps (·.tables) s cl c (fun _ => rfl)⟩

theorem coresOnly_wakeScratch (s : State) (core : ℕ) (gs : List ℕ) (off n : ℕ) : CoresOnly s (wakeScratch s core gs off n) :=
  CoresOnly.foldl _ (fun _ _ => ⟨_, rfl⟩) _

theorem CoresOnly.trans {s u v : State} (h : CoresOnly s u) (h' : CoresOnly u v) : CoresOnly s v := by
  obtain ⟨c, rfl⟩ := h
  obtain ⟨c', rfl⟩ := h'
  exact ⟨c', rfl⟩

theorem coresOnly_wakeOperands (s : State) (c : MatrixCmd) (op : MmaOp) : CoresOnly s (wakeOperands s c op) := by
  have hrows : CoresOnly s (((op.rows.getD (List.range 128)).filter (fun r => r ≠ 0xFFFF)).foldl (fun s r =>
      wakeScratch s c.core c.granules (op.a + r * op.stride + 4 * op.step * mxBytes op.fa)
        (min 4 (op.k / 32 - 4 * op.step) * mxBytes op.fa)) s) :=
    CoresOnly.foldl _ (fun _ _ => coresOnly_wakeScratch _ _ _ _ _) _
  unfold wakeOperands
  dsimp only
  split
  · exact hrows
  · exact hrows.trans (coresOnly_wakeScratch _ _ _ _ _)

namespace SameUnit

variable {s u : State} (h : SameUnit s u)
include h

theorem sameBytes : SameBytes s u := fun sp a => by rw [peek, h.spaces, ← peek]

theorem poisoned_eq (sp : Space) (a n : ℕ) : poisoned u sp a n = poisoned s sp a n := by rw [poisoned, h.bad, ← poisoned]

theorem slotOf_eq (cl p : ℕ) : slotOf u cl p = slotOf s cl p := by rw [slotOf, h.slots, ← slotOf]

theorem queueOf_eq (core : ℕ) : queueOf u core = queueOf s core := by rw [queueOf, h.queues, ← queueOf]

theorem findStrand_eq (k : StrandKey) : findStrand u k = findStrand s k := by rw [findStrand, h.strands, ← findStrand]

theorem strandOf_eq (k : StrandKey) : strandOf u k = strandOf s k := by rw [strandOf, h.findStrand_eq, ← strandOf]

theorem runOf_eq (r : ℕ) : runOf u r = runOf s r := by rw [runOf, h.runs, ← runOf]

/-! What the unit reads. -/

theorem readBlocks_eq (c : MatrixCmd) (fmt off n : ℕ) : readBlocks u c fmt off n = readBlocks s c fmt off n := by
  have hread : readScratch u c.core c.granules off (n * mxBytes fmt) = readScratch s c.core c.granules off (n * mxBytes fmt) := by
    simp only [readScratch, h.poisoned_eq, h.sameBytes _ _]
  rw [readBlocks, hread, ← readBlocks]

theorem readRows_eq (c : MatrixCmd) (op : MmaOp) (nq : ℕ) (l : List ℕ) : readRows u c op nq l = readRows s c op nq l := by
  induction l with
  | nil => rfl
  | cons r l ih => rw [readRows, readRows, ih, h.readBlocks_eq]

theorem readShard_eq (sh : Shard) (off n : ℕ) : readShard u sh off n = readShard s sh off n := by
  simp only [readShard, h.poisoned_eq, peekN, h.sameBytes _ _]

theorem ownShard_eq (cl : ℕ) (k : StrandKey) : ownShard u cl k = ownShard s cl k := by
  simp only [ownShard, replicas, h.shards, h.runOf_eq]

theorem readB_eq (cl : ℕ) (c : MatrixCmd) (op : MmaOp) (nq : ℕ) : readB u cl c op nq = readB s cl c op nq := by
  have hdecode (tab : ℕ) : decodeB u cl c op tab = decodeB s cl c op tab := by
    simp only [decodeB, h.tables, h.ownShard_eq, h.readShard_eq, h.strandOf_eq]
  simp only [readB, hdecode, h.readBlocks_eq]

end SameUnit

end Sys2Proof.Proofs
end

section
/-! PROOFS. The events of the matrix unit (R239, R249, R252 to R256, R265, R269, R270). -/

namespace Sys2Proof.Proofs

open Machine Oblig

theorem sameBytes_setSlot (s : State) (cl p : ℕ) (f : SlotSt → SlotSt) : SameBytes s (setSlot s cl p f) := sameBytes_setCluster _ _ _

theorem sameBytes_setQueue (s : State) (core : ℕ) (f : List MatrixCmd → List MatrixCmd) : SameBytes s (setQueue s core f) :=
  sameBytes_setCluster _ _ _

/-- The command c has left the queue of its core, and no other. -/
def Left (s u : State) (c : MatrixCmd) : Prop := queueOf u c.core = (queueOf s c.core).filter (fun x => x.id ≠ c.id)

theorem left_dequeue {s v : State} {c : MatrixCmd} (h : queueOf v c.core = queueOf s c.core) : Left s (dequeue v c) c := by
  rw [Left, queueOf_dequeue, h]

/-! ### What the commands' work leaves -/

theorem homeOnly_logEvent (s : State) (e : Event) : HomeOnly s (logEvent s e) := by
  have hcount : HomeOnly s { s with recCount := tset 0 s.recCount e.src ((tget 0 s.recCount e.src + 1) % 2 ^ 32) } := .of_eq rfl rfl rfl
  unfold logEvent
  dsimp only
  split
  · exact .of_eq rfl rfl rfl
  · exact (hcount.trans (homeOnly_writeHome _ _ _ _)).trans (.of_eq rfl rfl rfl)

/-- A step's operands read, and no residue error that stops it: the products enter the slot, and the command moves on or leaves. -/
theorem stepCommit_answers {s v : State} {c : MatrixCmd} {p : ℕ} (cl : ℕ) (op : MmaOp) (sl : SlotSt) (hv : v.clusters = s.clusters) :
    slotOf (stepCommit v cl c op p sl) cl p = sl ∧ SameBytes v (stepCommit v cl c op p sl) ∧
      ((op.k + 127) / 128 ≤ op.step + 1 → Left s (stepCommit v cl c op p sl) c) := by
  have hslot : slotOf (setSlot v cl p (fun _ => sl)) cl p = sl := slotOf_setSlot _ _ _ _
  have hbytes : SameBytes v (setSlot v cl p (fun _ => sl)) := sameBytes_setSlot _ _ _ _
  unfold stepCommit
  dsimp only
  split
  · next hmore =>
    refine ⟨(slotOf_setQueue _ _ _ _ _).trans hslot, sameBytes_trans hbytes (sameBytes_setQueue _ _ _), fun hlast => ?_⟩
    exact absurd hmore (not_lt.mpr hlast)
  · refine ⟨(slotOf_setQueue _ _ _ _ _).trans hslot, sameBytes_trans hbytes (sameBytes_setQueue _ _ _), fun _ => left_dequeue ?_⟩
    rw [queueOf_setSlot, queueOf_of_clusters hv]

theorem homeOnly_drainWrite (s : State) (seed : Word) (sl : SlotSt) (core : ℕ) (gs : List ℕ) (op : DrainOp) :
    HomeOnly s (drainWrite s seed sl core gs op).1 :=
  foldl_keeps (fun acc : State × ℕ => HomeOnly s acc.1) _ _ _ (.refl s) (fun _ _ hacc =>
    (hacc.trans (coresOnly_wakeLocs _ _).homeOnly).trans (homeOnly_writeLocs _ _ _))

/-- The frequencies that n entries of two bytes at ptr hold. -/
def tableFreqs (s : State) (c : MatrixCmd) (n ptr : ℕ) : List ℕ :=
  (List.range n).map (fun i => leNat ((((scratchLocs c.core c.granules ptr (2 * n)).map (fun l => peek s l.1 l.2)).drop (2 * i)).take 2))

/-- The state with a table loaded: valid when its frequencies sum to 4,096. -/
def tableLoaded (s : State) (cl tab fmt : ℕ) (fs : List ℕ) : State :=
  setCluster s cl (fun d => { d with tables := tins d.tables tab { state := if fs.sum = 4096 then 1 else 2, fmt := fmt, freq := fs } })

/-- A table is loaded from bytes that are not poisoned. -/
theorem loadTable_sound {s : State} {c : MatrixCmd} {fmt ptr : ℕ} (cl tab : ℕ)
    (hsound : ∀ l ∈ scratchLocs c.core c.granules ptr (2 * symCount fmt), poisoned s l.1 l.2 1 = false) :
    loadTable s cl c tab fmt ptr = dequeue (tableLoaded s cl tab fmt (tableFreqs s c (symCount fmt) ptr)) c := by
  obtain ⟨ls, hls⟩ : ∃ ls, ls = scratchLocs c.core c.granules ptr (2 * symCount fmt) := ⟨_, rfl⟩
  rw [← hls] at hsound
  have hbad : ls.map (fun l => poisoned s l.1 l.2 1) = List.replicate ls.length false := by
    rw [List.map_congr_left hsound, List.map_const']
  have hgetD (i : ℕ) : (List.replicate ls.length false).getD i false = false := by
    rw [List.getD_eq_getElem?_getD, List.getElem?_replicate]
    split <;> rfl
  have hany : (List.replicate ls.length false).any id = false := by simp
  have hfind : (List.replicate ls.length false).findIdx? id = none := by simp
  have hfreqs : (List.range (symCount fmt)).map (fun i => leNat (((ls.map (fun l => peek s l.1 l.2)).drop (2 * i)).take 2)) =
      tableFreqs s c (symCount fmt) ptr := by rw [tableFreqs, hls]
  simp only [loadTable, ← hls, hbad, hgetD, hany, hfind, Bool.or_false, Bool.false_eq_true, if_false, tabulate_eq, hfreqs, Bool.not_false,
    Bool.true_and, ← List.sum_eq_foldl, decide_eq_true_eq]
  rfl

theorem tableBytes_eq (t : DecTable) : tableBytes t = leBytes 1 t.state ++ leBytes 1 t.fmt ++ List.replicate 14 0 ++
    (List.range 256).flatMap (fun i => leBytes 2 (t.freq.getD i 0)) := by
  rw [tableBytes, tabulate_eq, List.flatMap_map]
  rfl

theorem tableBytes_length (t : DecTable) : (tableBytes t).length = 528 := by
  rw [tableBytes_eq]
  simp only [List.length_append, leBytes_length, List.length_replicate, List.length_flatMap, List.map_const', List.length_range,
    List.sum_replicate]
  rfl

/-! ### The events -/

section
variable {s : State} {cl : ℕ} {c : MatrixCmd} (hcl : clusterOk cl = true) (hnext : nextUnit s cl = some c)
include hcl

/-- With nothing to run, the unit's events change nothing. -/
theorem unit_idle (h : nextUnit s cl = none) :
    ∀ i ∈ [Instr.matrixTileStep cl 0, .mzeroExec cl, .drainConvert cl, .mtldExec cl, .mtsvExec cl], exec i s = .next s := by
  simp only [List.forall_mem_cons, List.not_mem_nil, false_imp_iff, implies_true, and_true]
  refine ⟨?_, ?_, ?_, ?_, ?_⟩ <;>
  · refine (if_pos hcl).trans (congrArg _ ?_)
    rw [h]

theorem refreshOpen_answers : ∃ u, exec (.wbRefreshOpen cl) s = .next u ∧ SameBytes s u ∧
    (clusterOf u cl).refresh = ((clusterOf s cl).refresh || decide (refreshPhase s cl < 512)) := by
  refine ⟨_, if_pos hcl, ?_⟩
  split
  · next hp => exact ⟨sameBytes_setCluster _ _ _, by rw [clusterOf_setCluster]; simp [hp]⟩
  · next hp => exact ⟨sameBytes_refl s, by simp [hp]⟩

theorem refreshClose_answers : ∃ u, exec (.wbRefreshClose cl) s = .next u ∧ SameBytes s u ∧
    (clusterOf u cl).refresh = ((clusterOf s cl).refresh && decide (refreshPhase s cl < 512)) := by
  refine ⟨_, if_pos hcl, ?_⟩
  split
  · next hp => exact ⟨sameBytes_refl s, by simp [hp]⟩
  · next hp => exact ⟨sameBytes_setCluster _ _ _, by rw [clusterOf_setCluster]; simp [hp]⟩

include hnext

theorem mzeroExec_answers {a : ℤ} {p : ℕ} (hop : c.op = .mzero a) (hslot : c.slot = some p) :
    ∃ u, exec (.mzeroExec cl) s = .next u ∧ SameBytes s u ∧ Left s u c ∧
      (slotOf u cl p).anchor = a ∧ (slotOf u cl p).steps = 0 ∧ (slotOf u cl p).ovf = false ∧
      (slotOf u cl p).master = (slotOf s cl p).master ∧ ∀ e, slotValue (slotOf u cl p) e = exInt 0 a := by
  have hsame := sameUnit_arbTake s cl
  refine ⟨_, (if_pos hcl).trans (congrArg _ (by simp only [hnext, hop, hslot]; rfl)), ?_, left_dequeue ?_, ?_⟩
  · exact sameBytes_trans hsame.sameBytes (sameBytes_trans (sameBytes_setSlot _ _ _ _) (sameBytes_setQueue _ _ _))
  · rw [queueOf_setSlot, hsame.queueOf_eq]
  · rw [dequeue, slotOf_setQueue, slotOf_setSlot, hsame.slotOf_eq]
    exact ⟨rfl, rfl, rfl, rfl, fun e => rfl⟩

theorem tileStep_answers {op : MmaOp} {p bad : ℕ} {rows : List (Option (List Blk))} {cols : List (List Blk)} (hop : c.op = .mma op)
    (hslot : c.slot = some p) (hpoison : (slotOf s cl p).poisoned = false) (hsound : (slotOf s cl p).bad = false) (hbad : bad < 2)
    (hrows : readRows (arbTake s cl) c op (min 4 (op.k / 32 - 4 * op.step)) (op.rows.getD (List.range 128)) = .ok rows)
    (hcols : readB (arbTake s cl) cl c op (min 4 (op.k / 32 - 4 * op.step)) = .ok cols) :
    ∃ u, exec (.matrixTileStep cl bad) s = .next u ∧ slotOf u cl p = slotProducts (slotOf s cl p) op rows cols ∧
      (bad = 0 → SameBytes s u) ∧ ((op.k + 127) / 128 ≤ op.step + 1 → Left s u c) := by
  have hwake := (coresOnly_wakeOperands (arbTake s cl) c op).sameUnit
  have hsame := (sameUnit_arbTake s cl).trans hwake
  obtain ⟨v, hv⟩ : ∃ v, v = wakeOperands (arbTake s cl) c op := ⟨_, rfl⟩
  rw [← hv] at hwake hsame
  have hstep : tileStep (arbTake s cl) cl c op p bad =
      stepCommit (if bad = 1 then unitEvent v cl 6 0 c.key 0 else v) cl c op p (slotProducts (slotOf s cl p) op rows cols) := by
    rw [tileStep, (sameUnit_arbTake s cl).slotOf_eq, hpoison, hsound]
    simp only [Bool.false_eq_true, if_false, stepProducts, ← hv, hwake.readRows_eq, hwake.readB_eq, hrows, hcols, hsame.slotOf_eq,
      if_neg (not_le.mpr hbad)]
  have hlog : (if bad = 1 then unitEvent v cl 6 0 c.key 0 else v).clusters = v.clusters := by
    split
    · exact (homeOnly_logEvent _ _).clusters
    · rfl
  obtain ⟨hslot', hbytes, hleft⟩ := stepCommit_answers (c := c) (p := p) cl op (slotProducts (slotOf s cl p) op rows cols) hlog
  refine ⟨_, (if_pos hcl).trans (congrArg _ (by simp only [hnext, hop, hslot]; exact hstep)), hslot', fun h0 => ?_, fun hlast => ?_⟩
  · have hquiet : SameBytes s (if bad = 1 then unitEvent v cl 6 0 c.key 0 else v) := by
      rw [if_neg (by omega)]
      exact hsame.sameBytes
    exact sameBytes_trans hquiet hbytes
  · exact (hleft hlast).trans (by rw [hsame.queueOf_eq])

theorem drainConvert_answers {op : DrainOp} {p : ℕ} (hop : c.op = .drain op) (hslot : c.slot = some p)
    (hsound : (slotOf s cl p).bad = false) (hfaults : (strandOf s c.key).faults.any (covers (some c.m)) = false) :
    let w := drainWrite (arbTake s cl) (runOf s c.key.run).seed (slotOf s cl p) c.core c.granules op
    ∃ u, exec (.drainConvert cl) s = .next u ∧ SameBytes w.1 u ∧ Left s u c ∧ (slotOf u cl p).opened = true ∧
      ∀ t, findStrand s c.key = some t → ∃ t', findStrand u c.key = some t' ∧
        t'.vxflags = t.vxflags ||| BitVec.ofNat 64 (w.2 % 32) := by
  intro w
  have hsame := sameUnit_arbTake s cl
  have hhome : HomeOnly (arbTake s cl) w.1 := homeOnly_drainWrite _ _ _ _ _ _
  have hrun : drainRun (arbTake s cl) cl c op p =
      dequeue (setSlot (setStrand w.1 c.key (fun t => orFlags t w.2)) cl p (fun x => { x with opened := true })) c := by
    rw [drainRun]
    simp only [hsame.slotOf_eq, hsound, hsame.strandOf_eq, hfaults, hsame.runOf_eq]
    rfl
  refine ⟨_, (if_pos hcl).trans (congrArg _ (by simp only [hnext, hop, hslot]; exact hrun)), ?_, left_dequeue ?_, ?_, fun t ht => ?_⟩
  · exact sameBytes_trans (sameBytes_trans (fun sp a => peek_setStrand _ _ _ sp a) (sameBytes_setSlot _ _ _ _)) (sameBytes_setQueue _ _ _)
  · rw [queueOf_setSlot, queueOf_of_clusters (setStrand_clusters _ _ _), queueOf_of_clusters hhome.clusters, hsame.queueOf_eq]
  · rw [dequeue, slotOf_setQueue, slotOf_setSlot]
  · rw [← hsame.findStrand_eq] at ht
    obtain ⟨r, hr⟩ := hhome.strands _ _ ht
    have hfind : findStrand (setStrand w.1 c.key (fun t => orFlags t w.2)) c.key = some (orFlags { t with resv := r } w.2) := by
      rw [findStrand_setStrand]
      · rw [hr]
        rfl
      · exact fun _ h => h
    exact ⟨_, hfind, rfl⟩

theorem mtldExec_answers {tab fmt ptr : ℕ} (hop : c.op = .mtld tab fmt ptr)
    (hsound : ∀ l ∈ scratchLocs c.core c.granules ptr (2 * symCount fmt), poisoned s l.1 l.2 1 = false) :
    let fs := tableFreqs s c (symCount fmt) ptr
    ∃ u, exec (.mtldExec cl) s = .next u ∧ SameBytes s u ∧ Left s u c ∧
      tget {} (clusterOf u cl).tables tab = { state := if fs.sum = 4096 then 1 else 2, fmt := fmt, freq := fs } := by
  intro fs
  obtain ⟨v, hv⟩ : ∃ v, v = wakeScratch (arbTake s cl) c.core c.granules ptr (2 * symCount fmt) := ⟨_, rfl⟩
  have hsame : SameUnit s v := hv ▸ (sameUnit_arbTake s cl).trans (coresOnly_wakeScratch _ _ _ _ _).sameUnit
  have hfs : tableFreqs v c (symCount fmt) ptr = fs := by simp only [tableFreqs, hsame.sameBytes _ _, fs]
  have hload := loadTable_sound (s := v) (c := c) cl tab (fun l hl => (hsame.poisoned_eq _ _ _).trans (hsound l hl))
  rw [hfs] at hload
  refine ⟨_, (if_pos hcl).trans (congrArg _ (by simp only [hnext, hop, ← hv]; exact hload)), ?_, left_dequeue ?_, ?_⟩
  · exact sameBytes_trans hsame.sameBytes (sameBytes_trans (sameBytes_setCluster _ _ _) (sameBytes_setQueue _ _ _))
  · rw [← hsame.queueOf_eq]
    exact congrArg (fun q => tget [] q c.core) (setCluster_keeps (·.mq) v cl _ (fun _ => rfl))
  · have htables : (clusterOf (dequeue (tableLoaded v cl tab fmt fs) c) cl).tables = (clusterOf (tableLoaded v cl tab fmt fs) cl).tables :=
      setCluster_keeps (·.tables) _ _ _ (fun _ => rfl)
    rw [htables, tableLoaded, clusterOf_setCluster]
    exact tget_tins_self _ _ _ _

theorem mtsvExec_answers {tab ptr : ℕ} (hop : c.op = .mtsv tab ptr)
    (hnd : (scratchLocs c.core c.granules ptr 528).Nodup) :
    let ls := scratchLocs c.core c.granules ptr 528
    ∃ u, exec (.mtsvExec cl) s = .next u ∧ Left s u c ∧
      ls.map (peekLoc u) = tableBytes (tget {} (clusterOf s cl).tables tab) ∧ ∀ l, l ∉ ls → peekLoc u l = peekLoc s l := by
  intro ls
  obtain ⟨v, hv⟩ : ∃ v, v = wakeLocs (arbTake s cl) ls := ⟨_, rfl⟩
  have hsame : SameUnit s v := hv ▸ (sameUnit_arbTake s cl).trans (coresOnly_wakeLocs _ _).sameUnit
  obtain ⟨bs, hbs⟩ : ∃ bs, bs = tableBytes (tget {} (clusterOf s cl).tables tab) := ⟨_, rfl⟩
  have hlen : bs.length = ls.length := by rw [hbs, tableBytes_length, scratchLocs_length]
  have hbytes (l : Loc) : peekLoc (dequeue (writeLocs v ls bs) c) l = peekLoc (writeLocs v ls bs) l := sameBytes_setQueue _ _ _ _ _
  refine ⟨dequeue (writeLocs v ls bs) c, (if_pos hcl).trans (congrArg _ (by simp only [hnext, hop, hv, hbs]; rfl)), left_dequeue ?_, ?_, fun l hl => ?_⟩
  · rw [queueOf_of_clusters (homeOnly_writeLocs _ _ _).clusters, hsame.queueOf_eq]
  · rw [← hbs]
    exact (List.map_congr_left (fun l _ => hbytes l)).trans (map_peekLoc_writeLocs v ls bs hlen hnd)
  · exact (hbytes l).trans ((peekLoc_writeLocs_of_notMem v ls bs l hlen hl).trans (hsame.sameBytes _ _))

end

theorem unitEvents_hold : unitEvents := by
  intro s cl c hcl units leaves
  refine ⟨unit_idle hcl, refreshOpen_answers hcl, refreshClose_answers hcl, fun hnext _ => ⟨?_, ?_, ?_, ?_, ?_⟩⟩
  · exact fun a p hop hslot => mzeroExec_answers hcl hnext hop hslot
  · exact fun op p rows cols bad hop hslot hpoison hsound hbad hrows hcols =>
      tileStep_answers hcl hnext hop hslot hpoison hsound hbad hrows hcols
  · exact fun op p hop hslot hsound hfaults => drainConvert_answers hcl hnext hop hslot hsound hfaults
  · exact fun tab fmt ptr hop hsound => mtldExec_answers hcl hnext hop hsound
  · intro tab ptr hop ls t _ hnd
    obtain ⟨u, hexec, hleft, hbytes, hothers⟩ := mtsvExec_answers hcl hnext hop hnd
    exact ⟨u, hexec, hleft, hbytes.trans (tableBytes_eq t), fun sp a hl => hothers (sp, a) hl⟩

/-- Settles O43: each event by what the arbiter, a wake and the command's own work leave; the products of a step element by element. -/
theorem matrixUnit : Obligations.MatrixUnit := ⟨unitEvents_hold, tileProducts_hold⟩

end Sys2Proof.Proofs
end

section
/-! PROOFS. The one-parcel encodings (R65, R68, R70 to R74, R118): an encoded parcel's fields, and decoding it. -/

namespace Sys2Proof.Proofs

open Machine Oblig

/-! ### Fields of a concatenation -/

section
variable {v w s l : ℕ} (x : BitVec v) (y : BitVec w)

/-! The library's rules for a field of a concatenation, for use by `simp` where the concatenation's width is written as a number (a
parcel's is 32), which its index would not match with a sum. -/

@[simp] theorem extract_append_low (h : s + l ≤ w) :
    BitVec.extractLsb' s l (@HAppend.hAppend (BitVec v) (BitVec w) (no_index (BitVec (v + w))) _ x y) = y.extractLsb' s l :=
  BitVec.extractLsb'_append_eq_of_add_le h

@[simp] theorem extract_append_high (h : w ≤ s) :
    BitVec.extractLsb' s l (@HAppend.hAppend (BitVec v) (BitVec w) (no_index (BitVec (v + w))) _ x y) = x.extractLsb' (s - w) l :=
  BitVec.extractLsb'_append_eq_of_le h

theorem getLsbD_append_low (h : s < w) :
    BitVec.getLsbD (@HAppend.hAppend (BitVec v) (BitVec w) (no_index (BitVec (v + w))) _ x y) s = y.getLsbD s := by
  rw [BitVec.getLsbD_append, if_pos h]

theorem getLsbD_append_high (h : w ≤ s) :
    BitVec.getLsbD (@HAppend.hAppend (BitVec v) (BitVec w) (no_index (BitVec (v + w))) _ x y) s = x.getLsbD (s - w) := by
  rw [BitVec.getLsbD_append, if_neg (not_lt.mpr h)]

end

/-! ### Immediates and offsets, put together again from their pieces -/

theorem two_pieces {m l : ℕ} (x : BitVec (m + l)) : x.extractLsb' l m ++ x.extractLsb' 0 l = x :=
  (BitVec.extractLsb'_append_extractLsb'_eq_extractLsb' (Nat.zero_add l).symm).trans BitVec.extractLsb'_eq_self

theorem immS_pieces (imm : BitVec 12) : imm.extractLsb' 5 7 ++ imm.extractLsb' 0 5 = imm :=
  two_pieces (m := 7) (l := 5) imm

theorem offB_pieces (off : BitVec 12) :
    off.extractLsb' 11 1 ++ off.extractLsb' 10 1 ++ off.extractLsb' 4 6 ++ off.extractLsb' 0 4 = off := by
  rw [BitVec.extractLsb'_append_extractLsb'_eq_extractLsb' (by rfl), BitVec.extractLsb'_append_extractLsb'_eq_extractLsb' (by rfl)]
  exact two_pieces (m := 8) (l := 4) off

theorem offJ_pieces (off : BitVec 20) :
    off.extractLsb' 19 1 ++ off.extractLsb' 11 8 ++ off.extractLsb' 10 1 ++ off.extractLsb' 0 10 = off := by
  rw [BitVec.extractLsb'_append_extractLsb'_eq_extractLsb' (by rfl), BitVec.extractLsb'_append_extractLsb'_eq_extractLsb' (by rfl)]
  exact two_pieces (m := 10) (l := 10) off

theorem offBit_pieces (off : BitVec 10) : off.extractLsb' 4 6 ++ off.extractLsb' 0 4 = off :=
  two_pieces (m := 6) (l := 4) off

theorem bitIndex_pieces (b : BitVec 6) : b.extractLsb' 5 1 ++ b.extractLsb' 0 5 = b :=
  two_pieces (m := 1) (l := 5) b

/-! ### Encoded parcels decode to their instructions -/

/-- The instruction's parcel, if it has one, decodes to it. -/
def Decodes32 (i : Instr) : Prop := ∀ p, encode32 i = some p → decode32 p = .ok i

theorem decodes32_of {i : Instr} {p : Parcel} (he : encode32 i = some p) (hd : decode32 p = .ok i) : Decodes32 i := by
  intro q hq
  rw [he] at hq
  exact Option.some.inj hq ▸ hd

theorem decodes32_upper (rd : BitVec 5) (imm : BitVec 20) :
    Decodes32 (.lui rd imm) ∧ Decodes32 (.auipc rd imm) ∧ Decodes32 (.jal rd imm) := by
  refine ⟨?_, ?_, ?_⟩ <;> exact decodes32_of rfl (by simp [decode32, immU, offJ, offJ_pieces])

theorem decodes32_branches (rs1 rs2 : BitVec 5) (off : BitVec 12) :
    Decodes32 (.beq rs1 rs2 off) ∧ Decodes32 (.bne rs1 rs2 off) ∧ Decodes32 (.blt rs1 rs2 off) ∧ Decodes32 (.bge rs1 rs2 off) ∧
    Decodes32 (.bltu rs1 rs2 off) ∧ Decodes32 (.bgeu rs1 rs2 off) := by
  refine ⟨?_, ?_, ?_, ?_, ?_, ?_⟩ <;> exact decodes32_of rfl (by simp [decode32, offB, offB_pieces])

theorem decodes32_loads (rd rs1 : BitVec 5) (imm : BitVec 12) :
    Decodes32 (.lb rd rs1 imm) ∧ Decodes32 (.lh rd rs1 imm) ∧ Decodes32 (.lw rd rs1 imm) ∧ Decodes32 (.ld rd rs1 imm) ∧
    Decodes32 (.lbu rd rs1 imm) ∧ Decodes32 (.lhu rd rs1 imm) ∧ Decodes32 (.lwu rd rs1 imm) := by
  refine ⟨?_, ?_, ?_, ?_, ?_, ?_, ?_⟩ <;> exact decodes32_of rfl (by simp [decode32, immI])

theorem decodes32_stores (rs1 rs2 : BitVec 5) (imm : BitVec 12) :
    Decodes32 (.sb rs1 rs2 imm) ∧ Decodes32 (.sh rs1 rs2 imm) ∧ Decodes32 (.sw rs1 rs2 imm) ∧ Decodes32 (.sd rs1 rs2 imm) := by
  refine ⟨?_, ?_, ?_, ?_⟩ <;> exact decodes32_of rfl (by simp [decode32, immS, immS_pieces])

theorem decodes32_immediates (rd rs1 : BitVec 5) (imm : BitVec 12) :
    Decodes32 (.jalr rd rs1 imm) ∧ Decodes32 (.addi rd rs1 imm) ∧ Decodes32 (.slti rd rs1 imm) ∧ Decodes32 (.sltiu rd rs1 imm) ∧
    Decodes32 (.xori rd rs1 imm) ∧ Decodes32 (.ori rd rs1 imm) ∧ Decodes32 (.andi rd rs1 imm) ∧ Decodes32 (.addiw rd rs1 imm) := by
  refine ⟨?_, ?_, ?_, ?_, ?_, ?_, ?_, ?_⟩ <;> exact decodes32_of rfl (by simp [decode32, immI])

theorem decodes32_shifts (rd rs1 : BitVec 5) (sh : BitVec 6) :
    Decodes32 (.slli rd rs1 sh) ∧ Decodes32 (.srli rd rs1 sh) ∧ Decodes32 (.srai rd rs1 sh) := by
  refine ⟨?_, ?_, ?_⟩ <;> exact decodes32_of rfl (by simp [decode32])

theorem decodes32_wordShifts (rd rs1 sh : BitVec 5) :
    Decodes32 (.slliw rd rs1 sh) ∧ Decodes32 (.srliw rd rs1 sh) ∧ Decodes32 (.sraiw rd rs1 sh) := by
  refine ⟨?_, ?_, ?_⟩ <;> exact decodes32_of rfl (by simp [decode32])

theorem decodes32_registers (rd rs1 rs2 : BitVec 5) :
    Decodes32 (.add rd rs1 rs2) ∧ Decodes32 (.sub rd rs1 rs2) ∧ Decodes32 (.sll rd rs1 rs2) ∧ Decodes32 (.slt rd rs1 rs2) ∧
    Decodes32 (.sltu rd rs1 rs2) ∧ Decodes32 (.xor rd rs1 rs2) ∧ Decodes32 (.srl rd rs1 rs2) ∧ Decodes32 (.sra rd rs1 rs2) ∧
    Decodes32 (.or rd rs1 rs2) ∧ Decodes32 (.and rd rs1 rs2) ∧ Decodes32 (.addw rd rs1 rs2) ∧ Decodes32 (.subw rd rs1 rs2) ∧
    Decodes32 (.sllw rd rs1 rs2) ∧ Decodes32 (.srlw rd rs1 rs2) ∧ Decodes32 (.sraw rd rs1 rs2) := by
  refine ⟨?_, ?_, ?_, ?_, ?_, ?_, ?_, ?_, ?_, ?_, ?_, ?_, ?_, ?_, ?_⟩ <;> exact decodes32_of rfl (by simp [decode32])

theorem decodes32_products (rd rs1 rs2 : BitVec 5) :
    Decodes32 (.mul rd rs1 rs2) ∧ Decodes32 (.mulh rd rs1 rs2) ∧ Decodes32 (.mulhsu rd rs1 rs2) ∧ Decodes32 (.mulhu rd rs1 rs2) ∧
    Decodes32 (.div rd rs1 rs2) ∧ Decodes32 (.divu rd rs1 rs2) ∧ Decodes32 (.rem rd rs1 rs2) ∧ Decodes32 (.remu rd rs1 rs2) ∧
    Decodes32 (.mulw rd rs1 rs2) ∧ Decodes32 (.divw rd rs1 rs2) ∧ Decodes32 (.divuw rd rs1 rs2) ∧ Decodes32 (.remw rd rs1 rs2) ∧
    Decodes32 (.remuw rd rs1 rs2) := by
  refine ⟨?_, ?_, ?_, ?_, ?_, ?_, ?_, ?_, ?_, ?_, ?_, ?_, ?_⟩ <;> exact decodes32_of rfl (by simp [decode32])

theorem decodes32_loadReserved (rd rs1 : BitVec 5) (aq rl : Bool) :
    Decodes32 (.lrW rd rs1 aq rl) ∧ Decodes32 (.lrD rd rs1 aq rl) := by
  refine ⟨?_, ?_⟩ <;>
    exact decodes32_of rfl (by simp [decode32, getLsbD_append_low, getLsbD_append_high, -BitVec.getLsbD_eq_getElem])

theorem decodes32_wordAtomics (rd rs1 rs2 : BitVec 5) (aq rl : Bool) :
    Decodes32 (.scW rd rs1 rs2 aq rl) ∧ Decodes32 (.amoswapW rd rs1 rs2 aq rl) ∧ Decodes32 (.amoaddW rd rs1 rs2 aq rl) ∧
    Decodes32 (.amoxorW rd rs1 rs2 aq rl) ∧ Decodes32 (.amoandW rd rs1 rs2 aq rl) ∧ Decodes32 (.amoorW rd rs1 rs2 aq rl) ∧
    Decodes32 (.amominW rd rs1 rs2 aq rl) ∧ Decodes32 (.amomaxW rd rs1 rs2 aq rl) ∧ Decodes32 (.amominuW rd rs1 rs2 aq rl) ∧
    Decodes32 (.amomaxuW rd rs1 rs2 aq rl) := by
  refine ⟨?_, ?_, ?_, ?_, ?_, ?_, ?_, ?_, ?_, ?_⟩ <;>
    exact decodes32_of rfl (by simp [decode32, getLsbD_append_low, getLsbD_append_high, -BitVec.getLsbD_eq_getElem])

theorem decodes32_doubleAtomics (rd rs1 rs2 : BitVec 5) (aq rl : Bool) :
    Decodes32 (.scD rd rs1 rs2 aq rl) ∧ Decodes32 (.amoswapD rd rs1 rs2 aq rl) ∧ Decodes32 (.amoaddD rd rs1 rs2 aq rl) ∧
    Decodes32 (.amoxorD rd rs1 rs2 aq rl) ∧ Decodes32 (.amoandD rd rs1 rs2 aq rl) ∧ Decodes32 (.amoorD rd rs1 rs2 aq rl) ∧
    Decodes32 (.amominD rd rs1 rs2 aq rl) ∧ Decodes32 (.amomaxD rd rs1 rs2 aq rl) ∧ Decodes32 (.amominuD rd rs1 rs2 aq rl) ∧
    Decodes32 (.amomaxuD rd rs1 rs2 aq rl) := by
  refine ⟨?_, ?_, ?_, ?_, ?_, ?_, ?_, ?_, ?_, ?_⟩ <;>
    exact decodes32_of rfl (by simp [decode32, getLsbD_append_low, getLsbD_append_high, -BitVec.getLsbD_eq_getElem])

theorem decodes32_fence (pred succ : BitVec 4) :
    Decodes32 (.fence pred succ) :=
  decodes32_of rfl (by simp [decode32, decodeMiscMem])

theorem decodes32_fixed :
    Decodes32 .fenceTso ∧ Decodes32 .fenceI ∧ Decodes32 .ecall ∧ Decodes32 .ebreak ∧ Decodes32 .step ∧ Decodes32 .stret := by
  refine ⟨?_, ?_, ?_, ?_, ?_, ?_⟩ <;>
    exact decodes32_of rfl (by simp [decode32, decodeMiscMem, decodeSystem, decodeXC, decodeSync, decodeXS])

theorem decodes32_csr (rd rs1 : BitVec 5) (csr : BitVec 12) :
    Decodes32 (.csrrw rd csr rs1) ∧ Decodes32 (.csrrs rd csr rs1) ∧ Decodes32 (.csrrc rd csr rs1) ∧
    Decodes32 (.csrrwi rd csr rs1) ∧ Decodes32 (.csrrsi rd csr rs1) ∧ Decodes32 (.csrrci rd csr rs1) := by
  refine ⟨?_, ?_, ?_, ?_, ?_, ?_⟩ <;>
    exact decodes32_of rfl (by simp [decode32, decodeSystem])

theorem decodes32_claims (rd rs1 : BitVec 5) (cls : BitVec 3) (n : BitVec 7) :
    Decodes32 (.acq rd cls n rs1) ∧ Decodes32 (.tryacq rd cls n rs1) ∧ Decodes32 (.rel rd cls n rs1) := by
  refine ⟨?_, ?_, ?_⟩ <;>
    exact decodes32_of rfl (by simp [decode32, decodeXC])

theorem decodes32_claimq (rd : BitVec 5) (cls : BitVec 3) :
    Decodes32 (.claimq rd cls) :=
  decodes32_of rfl (by simp [decode32, decodeXC])

theorem decodes32_loop (rs1 : BitVec 5) (n : BitVec 12) :
    Decodes32 (.loop rs1 n) :=
  decodes32_of rfl (by simp [decode32, decodeXC, immI])

theorem decodes32_fhint (rs1 : BitVec 5) (k : BitVec 4) :
    Decodes32 (.fhint rs1 k) :=
  decodes32_of rfl (by simp [decode32, decodeXC])

theorem decodes32_repb (rs1 : BitVec 5) (n stride mask : BitVec 4) :
    Decodes32 (.repb rs1 n stride mask) :=
  decodes32_of rfl (by simp [decode32, decodeXC])

theorem decodes32_bitBranches (h : Bool) (rs1 : BitVec 5) (b : BitVec 6) (off : BitVec 10) :
    Decodes32 (.bbs h rs1 b off) ∧ Decodes32 (.bbc h rs1 b off) := by
  refine ⟨?_, ?_⟩ <;>
    exact decodes32_of rfl (by
      simp [decode32, decodeXC, bitIndex, offBit, bitIndex_pieces, offBit_pieces, getLsbD_append_high, -BitVec.getLsbD_eq_getElem])

theorem decodes32_fencex (a b : BitVec 5) :
    Decodes32 (.fencex a b) :=
  decodes32_of rfl (by simp [decode32, decodeXC, decodeSync])

theorem decodes32_halt (rs1 : BitVec 5) (retain : Bool) :
    Decodes32 (.halt rs1 retain) :=
  decodes32_of rfl (by simp [decode32, decodeXC, decodeSync, getLsbD_append_low, getLsbD_append_high, -BitVec.getLsbD_eq_getElem])

theorem decodes32_cancel (scope : BitVec 5) :
    Decodes32 (.cancel scope) :=
  decodes32_of rfl (by simp [decode32, decodeXC, decodeSync])

theorem decodes32_sends (rs1 rs2 : BitVec 5) :
    Decodes32 (.sendS rs1 rs2) ∧ Decodes32 (.sendM rs1 rs2) ∧ Decodes32 (.binit rs1 rs2) ∧ Decodes32 (.barrive rs1 rs2) := by
  refine ⟨?_, ?_, ?_, ?_⟩ <;>
    exact decodes32_of rfl (by simp [decode32, decodeXC, decodeMsg])

theorem decodes32_receives (rd : BitVec 5) :
    Decodes32 (.recv rd) ∧ Decodes32 (.tryrecv rd) := by
  refine ⟨?_, ?_⟩ <;>
    exact decodes32_of rfl (by simp [decode32, decodeXC, decodeMsg])

theorem decodes32_phases (rd rs1 rs2 : BitVec 5) :
    Decodes32 (.bwait rd rs1 rs2) ∧ Decodes32 (.btest rd rs1 rs2) := by
  refine ⟨?_, ?_⟩ <;>
    exact decodes32_of rfl (by simp [decode32, decodeXC, decodeMsg])

theorem decodes32_wholeRegisters (v imm : BitVec 6) (rs1 : BitVec 5) :
    Decodes32 (.vld v rs1 imm) ∧ Decodes32 (.vst v rs1 imm) := by
  refine ⟨?_, ?_⟩ <;>
    exact decodes32_of rfl (by simp [decode32, decodeXV])

theorem decodes32_lanes (w : BitVec 2) (v : BitVec 6) (rs1 rs2 : BitVec 5) :
    Decodes32 (.vlds w v rs1 rs2) ∧ Decodes32 (.vsts w v rs1 rs2) ∧ Decodes32 (.vins w v rs1 rs2) := by
  refine ⟨?_, ?_, ?_⟩ <;>
    exact decodes32_of rfl (by simp [decode32, decodeXV])

theorem decodes32_vext (u : Bool) (w : BitVec 2) (rd : BitVec 5) (v : BitVec 6) (rs1 : BitVec 5) :
    Decodes32 (.vext u w rd v rs1) :=
  decodes32_of rfl (by simp [decode32, decodeXV, getLsbD_append_low, getLsbD_append_high, -BitVec.getLsbD_eq_getElem])

theorem decodes32_splats (w : BitVec 2) (v : BitVec 6) (a : BitVec 5) :
    Decodes32 (.vsplat w v a) ∧ Decodes32 (.vsplatImm w v a) := by
  refine ⟨?_, ?_⟩ <;>
    exact decodes32_of rfl (by simp [decode32, decodeXV])

theorem decodes32_handler (rs1 : BitVec 5) :
    Decodes32 (.stres rs1) ∧ Decodes32 (.stkill rs1) ∧ Decodes32 (.escal rs1) := by
  refine ⟨?_, ?_, ?_⟩ <;>
    exact decodes32_of rfl (by simp [decode32, decodeXS])

/-- Every encoded parcel decodes to its instruction: the rows that have none vanish, the others are those above. -/
theorem decodes32 (i : Instr) : Decodes32 i := by
  cases hi : encode32 i with
  | none => exact fun p h => nomatch hi.symm.trans h
  | some p =>
    cases i <;> cases hi
    all_goals simp only [decodes32_upper, decodes32_branches, decodes32_loads, decodes32_stores, decodes32_immediates,
      decodes32_shifts, decodes32_wordShifts, decodes32_registers, decodes32_products, decodes32_loadReserved,
      decodes32_wordAtomics, decodes32_doubleAtomics, decodes32_fence, decodes32_fixed, decodes32_csr, decodes32_claims,
      decodes32_claimq, decodes32_loop, decodes32_fhint, decodes32_repb, decodes32_bitBranches, decodes32_fencex,
      decodes32_halt, decodes32_cancel, decodes32_sends, decodes32_receives, decodes32_phases, decodes32_wholeRegisters,
      decodes32_lanes, decodes32_vext, decodes32_splats, decodes32_handler]

end Sys2Proof.Proofs
end

section
/-! PROOFS. Decoding an encoding gives the instruction back (R64, R65, R75, R76, R84, R197, R198). -/

namespace Sys2Proof.Proofs

open Machine Oblig

/-! ### Parcels and bytes (R64) -/

theorem parcel_pieces (p : Parcel) : p.extractLsb' 24 8 ++ p.extractLsb' 16 8 ++ p.extractLsb' 8 8 ++ p.extractLsb' 0 8 = p := by
  rw [BitVec.extractLsb'_append_extractLsb'_eq_extractLsb' (by rfl), BitVec.extractLsb'_append_extractLsb'_eq_extractLsb' (by rfl)]
  exact two_pieces (m := 24) (l := 8) p

theorem parcelsOf_parcelBytes (p : Parcel) (bs : List Byte) : parcelsOf (parcelBytes p ++ bs) = p :: parcelsOf bs :=
  congrArg (· :: parcelsOf bs) (parcel_pieces p)

theorem parcelsOf_flatMap (ps : List Parcel) (bs : List Byte) : parcelsOf (ps.flatMap parcelBytes ++ bs) = ps ++ parcelsOf bs := by
  induction ps with
  | nil => rfl
  | cons p ps ih => rw [List.flatMap_cons, List.append_assoc, parcelsOf_parcelBytes, ih, List.cons_append]

theorem length_flatMap_parcelBytes (ps : List Parcel) : (ps.flatMap parcelBytes).length = 4 * ps.length := by
  induction ps with
  | nil => rfl
  | cons p ps ih => rw [List.flatMap_cons, List.length_append, ih, List.length_cons, Nat.mul_succ, Nat.add_comm]; rfl

/-! ### One instruction from the front of a stream -/

/-- The parcels are as many as their first one says, and the whole of them decodes to the instruction. -/
def Spells (ps : List Parcel) (i : Instr) : Prop := (∃ p, ps.head? = some p ∧ parcelCount p = .ok ps.length) ∧ decodeWhole ps = .ok i

theorem decodeParcels_of_spells {ps : List Parcel} {i : Instr} (h : Spells ps i) (qs : List Parcel) :
    decodeParcels (ps ++ qs) = .ok (i, qs) := by
  obtain ⟨⟨p, hhead, hcount⟩, hwhole⟩ := h
  obtain ⟨ps, rfl⟩ := List.head?_eq_some_iff.mp hhead
  have hlen : ¬ (p :: ps ++ qs).length < (p :: ps).length := by rw [List.length_append]; omega
  rw [List.cons_append, decodeParcels, hcount, ← List.cons_append]
  simp only [if_neg hlen, List.take_left, List.drop_left, hwhole]

theorem decode_of_spells {ps : List Parcel} {i : Instr} (h : Spells ps i) (hlen : ps.length ≤ 5) (rest : List Byte) :
    decode (ps.flatMap parcelBytes ++ rest) = .ok (i, rest) := by
  have hbytes := length_flatMap_parcelBytes ps
  have htake : (ps.flatMap parcelBytes ++ rest).take 20 = ps.flatMap parcelBytes ++ rest.take (20 - 4 * ps.length) := by
    rw [List.take_append, hbytes, List.take_of_length_le (by omega)]
  have hdrop : 4 * ((ps ++ parcelsOf (rest.take (20 - 4 * ps.length))).length - (parcelsOf (rest.take (20 - 4 * ps.length))).length) =
      (ps.flatMap parcelBytes).length := by
    rw [List.length_append, Nat.add_sub_cancel, hbytes]
  rw [decode, htake, parcelsOf_flatMap, decodeParcels_of_spells h]
  simp only [hdrop, List.drop_left]

theorem checked_of_formOk {i : Instr} (h : formOk i = true) : checked i = .ok i := if_pos h

/-! ### One parcel -/

/-- The major opcodes that a one-parcel instruction can have (R68). -/
def majorOpcodes : List ℕ :=
  [0x37, 0x17, 0x6F, 0x67, 0x63, 0x03, 0x23, 0x13, 0x1B, 0x33, 0x3B, 0x2F, 0x0F, 0x73, 0x0B, 0x2B, 0x7B]

theorem majorOpcode_of_decode32 {p : Parcel} {i : Instr} (h : decode32 p = .ok i) : (p.extractLsb' 0 7).toNat ∈ majorOpcodes := by
  unfold decode32 at h
  dsimp only at h
  split at h
  case h_18 => cases h
  all_goals
    next hop => rw [hop]; decide

/-- No major opcode starts a longer form (R65). -/
theorem parcelCount_of_majorOpcode {p : Parcel} (h : (p.extractLsb' 0 7).toNat ∈ majorOpcodes) : parcelCount p = .ok 1 := by
  have hlow : p.extractLsb' 0 2 = (p.extractLsb' 0 7).extractLsb' 0 2 := by
    ext j hj
    simp
  have hall : ∀ op : BitVec 7, op.toNat ∈ majorOpcodes → op.extractLsb' 0 2 = 3#2 ∧ ¬ (op = 0x1F#7 ∨ op = 0x3F#7) ∧ op ≠ 0x7F#7 := by
    decide
  obtain ⟨htwo, hlong, hcontainer⟩ := hall _ h
  rw [parcelCount, hlow, if_neg (not_not_intro htwo), if_neg hlong, if_neg hcontainer]

theorem spells_of_encode32 {i : Instr} {p : Parcel} (h : encode32 i = some p) (hok : formOk i = true) : Spells [p] i := by
  have hd := decodes32 i p h
  refine ⟨⟨p, rfl, parcelCount_of_majorOpcode (majorOpcode_of_decode32 hd)⟩, ?_⟩
  rw [decodeWhole, hd]
  exact checked_of_formOk hok

/-! ### Three and five parcels -/

theorem unpackX96_pack (cls fn : BitVec 5) (len : BitVec 3) (f : X96) :
    unpackX96 (packFirst cls fn len f) (packSecond f) (packThird f) = f := by
  simp [unpackX96, packFirst, packSecond, packThird, getLsbD_append_low, getLsbD_append_high, -BitVec.getLsbD_eq_getElem]

theorem packFirst_class (cls fn : BitVec 5) (len : BitVec 3) (f : X96) : (packFirst cls fn len f).extractLsb' 7 5 = cls := by
  simp [packFirst]

theorem packFirst_function (cls fn : BitVec 5) (len : BitVec 3) (f : X96) : (packFirst cls fn len f).extractLsb' 27 5 = fn := by
  simp [packFirst]

theorem parcelCount_packFirst (cls fn : BitVec 5) (f : X96) :
    parcelCount (packFirst cls fn 1 f) = .ok 3 ∧ parcelCount (packFirst cls fn 5 f) = .ok 5 := by
  constructor <;> simp [parcelCount, packFirst]

theorem x96Instr_x96Of {i : Instr} {cls fn : ℕ} {f : X96} (h : x96Of i = some (cls, fn, f)) :
    x96Instr cls fn f = some i ∧ cls < 8 ∧ fn < 32 := by
  revert h
  fun_cases x96Of i <;> rintro ⟨⟩ <;> exact ⟨rfl, by decide, by decide⟩

theorem x160Instr_x160Of {i : Instr} {cls fn : ℕ} {f : X96} {lit : Word} (h : x160Of i = some (cls, fn, f, lit)) :
    x160Instr cls fn f lit = some i ∧ cls < 8 ∧ fn < 32 := by
  revert h
  fun_cases x160Of i <;> rintro ⟨⟩ <;> exact ⟨rfl, by decide, by decide⟩

theorem toNat_ofNat_field {n : ℕ} (h : n < 32) : (BitVec.ofNat 5 n).toNat = n := Nat.mod_eq_of_lt h

theorem decode96_pack {i : Instr} {cls fn : ℕ} {f : X96} (h : x96Of i = some (cls, fn, f)) :
    decode96 (packFirst (.ofNat 5 cls) (.ofNat 5 fn) 1 f) (packSecond f) (packThird f) = .ok i := by
  obtain ⟨hinstr, hcls, hfn⟩ := x96Instr_x96Of h
  have hplain : ¬ (cls = 8 ∧ fn = 1) := fun h8 => absurd h8.1 hcls.ne
  simp only [decode96, unpackX96_pack, packFirst_class, packFirst_function, toNat_ofNat_field hfn,
    toNat_ofNat_field (hcls.trans (by decide)), if_neg hplain, hinstr]

theorem literal_pieces (lit : Word) : lit.extractLsb' 32 32 ++ lit.extractLsb' 0 32 = lit :=
  two_pieces (m := 32) (l := 32) lit

theorem decode160_pack {i : Instr} {cls fn : ℕ} {f : X96} {lit : Word} (h : x160Of i = some (cls, fn, f, lit)) :
    decode160 (packFirst (.ofNat 5 cls) (.ofNat 5 fn) 5 f) (packSecond f) (packThird f) (lit.extractLsb' 0 32) (lit.extractLsb' 32 32) =
      .ok i := by
  obtain ⟨hinstr, hcls, hfn⟩ := x160Instr_x160Of h
  have hplain : ¬ (cls = 8 ∧ fn = 0) := fun h8 => absurd h8.1 hcls.ne
  simp only [decode160, unpackX96_pack, packFirst_class, packFirst_function, toNat_ofNat_field hfn,
    toNat_ofNat_field (hcls.trans (by decide)), if_neg hplain, literal_pieces, hinstr]

theorem decode96_pchk (rd : BitVec 5) : decode96 (packFirst 8 1 1 {}) 0 (packThird { rs := rd }) = .ok (.pchk rd) := by
  have hblank : packSecond { rs := rd } = 0 := by simp [packSecond]
  have hfields : unpackX96 (packFirst 8 1 1 {}) 0 (packThird { rs := rd }) = { rs := rd } := hblank ▸ unpackX96_pack 8 1 1 { rs := rd }
  simp only [decode96, hfields, packFirst_class, packFirst_function]
  exact if_pos rfl

theorem decode160_phint (f0 f1 : BitVec 4) (c0 c1 : BitVec 5) (smask : BitVec 8) (vmask : Word) :
    decode160 (packFirst 8 0 5 {}) (0#7 ++ c1 ++ f1 ++ 0#7 ++ c0 ++ f0) (smask ++ 0#24) (vmask.extractLsb' 0 32) (vmask.extractLsb' 32 32) =
      .ok (.phint f0 c0 f1 c1 smask vmask) := by
  simp only [decode160, packFirst_class, packFirst_function]
  simp [decodePhint, packFirst, literal_pieces]

/-! ### Every instruction with an encoding -/

theorem spells_three {p0 p1 p2 : Parcel} {i : Instr} (hc : parcelCount p0 = .ok 3) (hd : decode96 p0 p1 p2 = .ok i) (hok : formOk i = true) :
    Spells [p0, p1, p2] i := by
  refine ⟨⟨p0, rfl, hc⟩, ?_⟩
  rw [decodeWhole, hd]
  exact checked_of_formOk hok

theorem spells_five {p0 p1 p2 p3 p4 : Parcel} {i : Instr} (hc : parcelCount p0 = .ok 5) (hd : decode160 p0 p1 p2 p3 p4 = .ok i)
    (hok : formOk i = true) : Spells [p0, p1, p2, p3, p4] i := by
  refine ⟨⟨p0, rfl, hc⟩, ?_⟩
  rw [decodeWhole, hd]
  exact checked_of_formOk hok

/-- An encoding has one, three or five parcels, which spell the instruction. -/
theorem spells_encode {i : Instr} (hok : formOk i = true) (hne : encode i ≠ []) :
    Spells (encode i) i ∧ (encode i).length ∈ [1, 3, 5] := by
  revert hne
  fun_cases encode i
  case case1 p hp => exact fun _ => ⟨spells_of_encode32 hp hok, by simp⟩
  case case2 cls fn f _ hx => exact fun _ => ⟨spells_three (parcelCount_packFirst _ _ f).1 (decode96_pack hx) hok, by simp⟩
  case case3 cls fn f lit _ _ hx => exact fun _ => ⟨spells_five (parcelCount_packFirst _ _ f).2 (decode160_pack hx) hok, by simp⟩
  case case4 rd _ _ _ => exact fun _ => ⟨spells_three (parcelCount_packFirst 8 1 {}).1 (decode96_pchk rd) hok, by simp⟩
  case case5 f0 c0 f1 c1 smask vmask _ _ _ =>
    exact fun _ => ⟨spells_five (parcelCount_packFirst 8 0 {}).2 (decode160_phint f0 f1 c0 c1 smask vmask) hok, by simp⟩
  case case6 => exact fun h => absurd rfl h

/-- Settles O58: the parcels of an encoding spell the instruction, and the decoder reads as many parcels as the first one says. -/
theorem decodeEncode : Obligations.DecodeEncode := by
  intro i rest hwf hne
  have hok : formOk i = true := (Bool.and_eq_true_iff.mp hwf).1
  obtain ⟨hspells, hlen⟩ := spells_encode hok hne
  have hle : (encode i).length ≤ 5 := by
    simp only [List.mem_cons, List.not_mem_nil, or_false] at hlen
    omega
  exact ⟨decode_of_spells hspells hle rest, hlen⟩

end Sys2Proof.Proofs
end

section
/-! PROOFS. How the party that issues goes on, jumps or traps, and what rests on that alone: branches, bad targets, traps, inactive
guards (R66 to R69, R79, R115, R125, R129, R136, R191). -/

namespace Sys2Proof.Proofs

open Machine Oblig

/-! ### The end of an instruction -/

/-- A party that exists ends its instruction, whichever it is. -/
theorem runParty_issuing {s : State} (h : issuing s = true) (i : Instr) (r : Res) : runParty i s r = retire (instrLen i) r := by
  unfold issuing at h
  split at h
  · next k hcur =>
    obtain ⟨t, ht⟩ := Option.isSome_iff_exists.mp h
    exact runParty_strand r hcur ht
  · next c hcur => exact runParty_handler r hcur

theorem issuing_of_issues {s : State} {t : Strand} (h : Issues s t) : issuing s = true := by
  obtain ⟨hcur, hfind⟩ := h
  simp only [issuing, hcur, hfind, Option.isSome_some]

/-- The party goes on in order, and nothing else differs. -/
theorem skips_seq {s : State} (h : issuing s = true) (len : ℕ) : Skips s (retire len (.ok s .seq)) len := by
  unfold issuing at h
  simp only [Skips, retire, complete]
  split at h
  · next k hcur =>
    obtain ⟨t, ht⟩ := Option.isSome_iff_exists.mp h
    exact ⟨t, advance t len .seq, ht, congrArg _ (setStrand_congr ht rfl), advance_frame t len .seq,
      goesOn_advance len ⟨rfl, rfl, rfl, rfl, rfl⟩⟩
  · rfl

/-- The party goes on at an address, and nothing else differs. -/
theorem jumps_jump {s : State} (h : issuing s = true) (len : ℕ) (target : Word) : Jumps s (retire len (.ok s (.jump target))) target := by
  unfold issuing at h
  simp only [Jumps, retire, complete]
  split at h
  · next k hcur =>
    obtain ⟨t, ht⟩ := Option.isSome_iff_exists.mp h
    exact ⟨t, ht, congrArg _ (setStrand_congr ht rfl)⟩
  · rfl

/-- The handler context takes a trap of which nothing is logged. -/
theorem handlerTraps_trapCur {s : State} {c : ℕ} (len : ℕ) (tr : Trap) (h : s.cur = .handler c) (hnote : tr.note = none)
    (hstall : tr.stall = false) : HandlerTraps s (retire len (.trap s tr)) c tr.cause tr.tval tr.fetch := by
  simp only [HandlerTraps, retire, hstall, trapCur, h, handlerTrap, noteTrap, hnote]
  rfl

/-- The party takes a trap of which nothing is logged. -/
theorem partyTraps_trapCur {s : State} (len : ℕ) (tr : Trap) (h : issuing s = true) (hnote : tr.note = none) (hstall : tr.stall = false) :
    PartyTraps s (retire len (.trap s tr)) tr.cause tr.tval tr.fetch := by
  unfold issuing at h
  unfold PartyTraps
  split at h
  · next k hcur =>
    obtain ⟨t, ht⟩ := Option.isSome_iff_exists.mp h
    obtain rfl := findStrand_key ht
    exact ⟨t, ht, traps_trapCur len tr ⟨hcur, ht⟩ hnote hstall⟩
  · next c hcur => exact handlerTraps_trapCur len tr hcur hnote hstall

/-! ### Transfers -/

/-- A transfer to an allowed target is taken. -/
theorem transfer_ok {s s1 : State} {target : Word} (h : targetOk s target = true) : transfer s s1 target = .ok s1 (.jump target) := by
  simp only [targetOk, Bool.and_eq_true, decide_eq_true_eq] at h
  obtain ⟨halign, hrange⟩ := h
  unfold transfer
  rw [if_neg (not_not_intro halign)]
  cases hcur : s.cur with
  | strand k =>
    simp only [hcur, decide_eq_true_eq] at hrange
    rw [Nat.div_eq_of_lt hrange]
    rfl
  | handler c => rfl

theorem transfer_misaligned {s s1 : State} {target : Word} (h : target.toNat % 4 ≠ 0) :
    transfer s s1 target = .trap s { cause := cMisaligned, tval := target } := if_pos h

theorem transfer_outside {s s1 : State} {t : Strand} {target : Word} (h : Issues s t) (halign : target.toNat % 4 = 0)
    (hrange : 2 ^ 60 ≤ target.toNat) : transfer s s1 target = .trap s { cause := cSegment, tval := target } := by
  have hdiv : target.toNat / 2 ^ 60 ≠ 0 := (Nat.div_pos hrange (by decide)).ne'
  rw [transfer, if_neg (not_not_intro halign), h.1]
  exact if_pos (by rw [Bool.true_and]; exact decide_eq_true hdiv)

/-- What a transfer to a bad target answers. -/
theorem transfer_traps {s : State} (h : issuing s = true) (len : ℕ) (s1 : State) (target : Word) :
    (target.toNat % 4 ≠ 0 → PartyTraps s (retire len (transfer s s1 target)) 0x01 target false) ∧
    ∀ t, Issues s t → target.toNat % 4 = 0 → 2 ^ 60 ≤ target.toNat → Traps s (retire len (transfer s s1 target)) t 0x02 target false := by
  refine ⟨fun hbad => ?_, fun t ht halign hrange => ?_⟩
  · rw [transfer_misaligned hbad]
    exact partyTraps_trapCur len _ h rfl rfl
  · rw [transfer_outside ht halign hrange]
    exact traps_trapCur len _ ht rfl rfl

/-- What a branch answers, by its condition. -/
theorem branchesOn_branch {s : State} (h : issuing s = true) (cond : Bool) (off : Word) :
    BranchesOn s (retire 4 (branch s cond off)) cond (pcOf s + off) := by
  refine ⟨?_, ?_⟩
  · rintro rfl hok
    rw [branch, if_pos rfl, transfer_ok hok]
    exact jumps_jump h 4 _
  · rintro rfl
    exact skips_seq h 4

/-! ### Branches -/

theorem not_slt_eq (a b : Word) : (!a.slt b) = decide (b.toInt ≤ a.toInt) := by
  rw [BitVec.slt, ← decide_not]
  exact decide_eq_decide.mpr not_lt

theorem not_ult_eq (a b : Word) : (!a.ult b) = decide (b ≤ a) := by
  rw [BitVec.ult, ← decide_not]
  exact decide_eq_decide.mpr not_lt

/-- BBS and BBC read the strand that issues. -/
theorem exec_bitBranch {s : State} {t : Strand} (h : Issues s t) (hint : Bool) (rs1 : BitVec 5) (i : BitVec 6) (off : BitVec 10) :
    exec (.bbs hint rs1 i off) s = retire 4 (branch s ((xGet s rs1).getLsbD i.toNat) (offB10 off)) ∧
    exec (.bbc hint rs1 i off) s = retire 4 (branch s (!(xGet s rs1).getLsbD i.toNat) (offB10 off)) := by
  have hget : xGet s rs1 = gx t rs1.toNat := by simp only [xGet, h.1, strandOf_eq h.2]
  rw [hget]
  exact ⟨runStrand_eq _ h.1 h.2 rfl, runStrand_eq _ h.1 h.2 rfl⟩

theorem pcOf_issues {s : State} {t : Strand} (h : Issues s t) : pcOf s = t.pc := by simp only [pcOf, h.1, strandOf_eq h.2]

/-- Settles O5: every branch is `branch` of its condition, which jumps or goes on. -/
theorem branchResults : Obligations.BranchResults := by
  intro s rs1 rs2 off h a b dest
  have branches (i : Instr) (cond cond' : Bool) (hc : cond = cond')
      (hi : exec i s = runParty i s (branch s cond (offB12 off))) (hlen : instrLen i = 4) : BranchesOn s (exec i s) cond' dest := by
    rw [hi, runParty_issuing h, hlen, ← hc]
    exact branchesOn_branch h cond (offB12 off)
  refine ⟨branches _ _ _ rfl rfl rfl, branches _ _ _ rfl rfl rfl, branches _ _ _ rfl rfl rfl, branches _ _ _ (not_slt_eq a b) rfl rfl,
    branches _ _ _ rfl rfl rfl, branches _ _ _ (not_ult_eq a b) rfl rfl, fun t hint i off ht => ?_⟩
  obtain ⟨hbs, hbc⟩ := exec_bitBranch ht hint rs1 i off
  rw [hbs, hbc, ← pcOf_issues ht]
  exact ⟨branchesOn_branch h _ _, branchesOn_branch h _ _⟩

/-- Settles O8: a taken transfer is `transfer` to its target, which traps before anything is written. -/
theorem transferTraps : Obligations.TransferTraps := by
  intro s rd rs1 rs2 off imm boff h traps a b dest
  have transfers (i : Instr) (s1 : State) (target : Word) (hi : exec i s = runParty i s (transfer s s1 target)) : traps (exec i s) target := by
    rw [hi, runParty_issuing h]
    exact transfer_traps h _ s1 target
  have branches (i : Instr) (cond : Bool) (hi : exec i s = runParty i s (branch s cond (offB12 boff))) (hc : cond = true) :
      traps (exec i s) dest := transfers i s dest (by rw [hi, branch, if_pos hc]; rfl)
  refine ⟨transfers _ _ _ rfl, transfers _ _ _ rfl, fun hc => branches _ _ rfl (decide_eq_true hc), fun hc => branches _ _ rfl (decide_eq_true hc),
    fun hc => branches _ _ rfl (decide_eq_true hc), fun hc => branches _ _ rfl ((not_slt_eq a b).trans (decide_eq_true hc)),
    fun hc => branches _ _ rfl (decide_eq_true hc), fun hc => branches _ _ rfl ((not_ult_eq a b).trans (decide_eq_true hc)),
    fun t hint i off ht => ?_⟩
  obtain ⟨hbs, hbc⟩ := exec_bitBranch ht hint rs1 i off
  rw [hbs, hbc, ← pcOf_issues ht]
  refine ⟨fun hc => ?_, fun hc => ?_⟩
  · rw [branch, if_pos hc]
    exact transfer_traps h 4 s _
  · rw [branch, if_pos (by rw [hc]; rfl)]
    exact transfer_traps h 4 s _

/-! ### Traps -/

theorem malformed_traps {s : State} (h : issuing s = true) (p : Parcel) :
    PartyTraps s (exec (.malformedEncoding p) s) 0x00 (p.setWidth 64) false :=
  partyTraps_trapCur 0 { cause := cIllegal, tval := p.setWidth 64 } h rfl rfl

/-- A fetch fault traps with SEGMENT, PAGE or ACCESS. -/
theorem fetchFault_traps {s : State} (h : issuing s = true) {cause : BitVec 8} (addr : Word) (hc : cause ∈ [0x02#8, 0x03#8, 0x04#8]) :
    PartyTraps s (exec (.fetchFault cause addr) s) cause.toNat addr (cause = 0x03) := by
  simp only [List.mem_cons, List.not_mem_nil, or_false] at hc
  obtain rfl | rfl | rfl := hc
  · exact partyTraps_trapCur 0 { cause := cSegment, tval := addr } h rfl rfl
  · exact partyTraps_trapCur 0 { cause := cPage, tval := addr, fetch := true } h rfl rfl
  · exact partyTraps_trapCur 0 { cause := cAccess, tval := addr } h rfl rfl

/-- No other cause is one of a fetch. -/
theorem fetchFault_other (s : State) {cause : BitVec 8} (addr : Word) (hc : cause ∉ [0x02#8, 0x03#8, 0x04#8]) :
    exec (.fetchFault cause addr) s = .next s := by
  have hnone : (cause.toNat = cSegment || cause.toNat = cPage || cause.toNat = cAccess) = false := by
    revert cause
    decide
  exact congrArg _ (if_neg (by rw [hnone]; exact Bool.false_ne_true))

/-- Settles O7: each meaning is a trap of the party that issues. -/
theorem trapEntry : Obligations.TrapEntry := by
  intro s parcel cause addr h
  have traps (i : Instr) (tr : Trap) (hi : exec i s = runParty i s (.trap s tr)) (hnote : tr.note = none) (hstall : tr.stall = false) :
      PartyTraps s (exec i s) tr.cause tr.tval tr.fetch := by
    rw [hi, runParty_issuing h]
    exact partyTraps_trapCur _ tr h hnote hstall
  exact ⟨traps .ecall { cause := cEcall, tval := 0 } rfl rfl rfl, traps .ebreak { cause := cEbreak, tval := pcOf s } rfl rfl rfl,
    malformed_traps h parcel, fetchFault_traps h addr, fetchFault_other s addr⟩

/-- Settles O9: `runHandler` gives a strand PRIV, with the first parcel outside a repetition. -/
theorem handlerOnly : Obligations.HandlerOnly := by
  refine ⟨fun s t rs1 i h hi hrep => ?_, fun s p h _ => malformed_traps h p⟩
  have priv (f : ℕ → Res) (he : exec i s = runHandler i s f) : Traps s (exec i s) t 0x0D (firstParcel i) false := by
    have hparcel : curParcel s i = firstParcel i := by simp only [curParcel, h.1, strandOf_eq h.2, hrep]
    have hrun : runHandler i s f = retire (instrLen i) (.trap s (parcelTrap cPriv s i)) := by simp only [runHandler, h.1, h.2]
    rw [he, hrun, ← hparcel]
    exact traps_trapCur _ (parcelTrap cPriv s i) h rfl rfl
  simp only [List.mem_cons, List.not_mem_nil, or_false] at hi
  obtain rfl | rfl | rfl | rfl := hi
  · exact priv _ rfl
  · exact priv _ rfl
  · exact priv _ rfl
  · exact priv _ rfl

/-! ### Inactive guards -/

/-- Settles O41: every engine instruction looks at its guard first. -/
theorem inactiveGuards : Obligations.InactiveGuards := by
  intro s t f i h ha hok hi
  have inactive (g : Strand → Res) (he : exec i s = runStrand i s g) (hlen : instrLen i = 12) (hg : g t = .ok s .seq) :
      Skips s (exec i s) 12 := by
    rw [he, runStrand_eq g h.1 h.2 hok, hlen, hg]
    exact skips_seq (issuing_of_issues h) 12
  have hoff : (!activeScalar t f) = true := by rw [ha]; rfl
  have hon : ¬ activeScalar t f = true := by rw [ha]; exact Bool.false_ne_true
  simp only [List.mem_cons, List.not_mem_nil, or_false] at hi
  obtain rfl | rfl | rfl | rfl | rfl | rfl | rfl | rfl | rfl | rfl | rfl | rfl | rfl | rfl | rfl | rfl | rfl | rfl | rfl | rfl := hi
  -- the commands of the matrix unit and the copies
  iterate 12 exact inactive _ rfl rfl (if_pos hoff)
  -- CPYQ and CPYCAN, written the other way round
  iterate 2 exact inactive _ rfl rfl (if_neg hon)
  -- XREQ, XPOLL, XWAIT, PUTX, PUTXADD and COLL
  iterate 6 exact inactive _ rfl rfl (if_pos hoff)

end Sys2Proof.Proofs
end

section
/-! PROOFS. A step runs the decoded instruction (R64 to R66, R126, R184), and the spec's worked encodings (R65, R70, R75). -/

namespace Sys2Proof.Proofs

open Machine Oblig

/-! ### Turns -/

theorem tick_schedule (s : State) : (tick s).schedule = s.schedule :=
  forUpTo_keeps (fun u : State => u.schedule = s.schedule) _ _ _ rfl (fun _ _ hu => hu)

/-- A scheduled turn comes first. -/
theorem chooseTurn_scheduled {s : State} {r : Turn} {l : List Turn} (h : s.schedule = r :: l) :
    chooseTurn (tick s) = (some r, { tick s with schedule := l }) := by
  rw [chooseTurn, (tick_schedule s).trans h]

section
variable {s s1 : State} {q : Turn}

theorem nextInstr_of_turn (hs : s.status ≠ 2) (hq : chooseTurn (tick s) = (some q, s1)) : nextInstr s = turnInstr s1 q := by
  rw [nextInstr, if_neg hs, hq]

/-- A turn that gives an instruction or event runs it. -/
theorem step_of_some {i : Instr} {u : State} (hs : s.status ≠ 2) (hq : chooseTurn (tick s) = (some q, s1))
    (h : turnInstr s1 q = (some i, u)) : step s = exec i u := by
  rw [step, nextInstr_of_turn hs hq, h]

/-- A turn that gives none has done its work. -/
theorem step_of_none {u : State} (hs : s.status ≠ 2) (hq : chooseTurn (tick s) = (some q, s1)) (h : turnInstr s1 q = (none, u)) :
    step s = .next u := by
  rw [step, nextInstr_of_turn hs hq, h]

end

/-! ### Fetching -/

section
variable {get : State → Word → Except Trap (Parcel × State)} {s u : State} {pc : Word} {p : Parcel} {ps : List Parcel}

theorem fetchInstr_decoded {i : Instr} (h : Fetches get s pc p ps u) (hd : decodeWhole (p :: ps) = .ok i) :
    fetchInstr get s pc = .ok (.ok i, u) := by
  obtain ⟨n, v, hget, hcount, hmore⟩ := h
  simp only [fetchInstr, hget, hcount, hmore, hd]

theorem fetchInstr_malformed {e : DecodeError} (h : Fetches get s pc p ps u) (hd : decodeWhole (p :: ps) = .error e) :
    fetchInstr get s pc = .ok (.error p, u) := by
  obtain ⟨n, v, hget, hcount, hmore⟩ := h
  simp only [fetchInstr, hget, hcount, hmore, hd]

theorem fetchInstr_fails {e : Trap} (h : get s pc = .error e) : fetchInstr get s pc = .error e := by
  simp only [fetchInstr, h]

end

/-! ### The instruction of a party -/

/-- What a strand that may issue, with no cancel and no recapture, issues. -/
theorem issueNext_strand {s : State} {k : StrandKey} {t : Strand} (hfind : findStrand { s with cur := .strand k } k = some t)
    (hready : strandReady { s with cur := .strand k } t = true) (hcancel : t.cancelPending = false) (hrecap : t.recapture = false) :
    (t.rep = none → issueNext s (.strand k) = fetched (fetchStrand { s with cur := .strand k } t t.pc) { s with cur := .strand k }) ∧
    ∀ r, t.rep = some r → issueNext s (.strand k) = repetition { s with cur := .strand k } t r := by
  constructor
  · intro hrep
    simp [issueNext, hfind, hready, hcancel, hrecap, hrep]
  · intro r hrep
    simp [issueNext, hfind, hready, hcancel, hrecap, hrep]

/-- What an awake handler context issues. -/
theorem issueNext_handler {s : State} {c : ℕ} (hawake : (coreOf { s with cur := .handler c } c).hawake = true)
    (hfrozen : (coreOf { s with cur := .handler c } c).hfrozen = false) (hfailed : (coreOf { s with cur := .handler c } c).failed = false) :
    issueNext s (.handler c) = fetched (fetchInstr (fun s a => fetchHandler s c a) { s with cur := .handler c }
      (coreOf { s with cur := .handler c } c).hpc) { s with cur := .handler c } := by
  simp [issueNext, hawake, hfrozen, hfailed]

/-- The buffered instruction of a repetition, staggered, or its trap. -/
theorem repetition_buffered {s : State} {t : Strand} {r : Rep} {b : Instr × ℕ × ℕ} (h : r.body[r.idx]? = some b) :
    (∀ i, passInstr s t r b.1 = .ok i → repetition s t r = (some i, s)) ∧
    ∀ e, passInstr s t r b.1 = .error e → repetition s t r = (none, takeTrap s t.key e) := by
  constructor
  · intro i hi
    simp only [repetition, h, hi]
  · intro e he
    simp only [repetition, h, he]

/-- Settles O56: the chosen turn names the instruction, which is fetched and decoded, or taken from the repetition buffer. -/
theorem stepRunsDecoded : Obligations.StepRunsDecoded := by
  intro s s1 q hs hq
  refine ⟨fun r l hl => ?_, fun i hi => step_of_some hs hq (hi ▸ rfl), fun a ha => step_of_none hs hq (ha ▸ rfl), ?_, ?_⟩
  · have hpair := hq.symm.trans (chooseTurn_scheduled hl)
    exact ⟨Option.some.inj (congrArg Prod.fst hpair), congrArg Prod.snd hpair⟩
  · rintro k t rfl v hfind hready hcancel hrecap
    obtain ⟨hplain, hrepeat⟩ := issueNext_strand hfind hready hcancel hrecap
    refine ⟨fun p ps u i hrep hf hd => step_of_some hs hq ?_, fun p ps u e hrep hf hd => step_of_some hs hq ?_,
      fun e hrep hf => step_of_some hs hq ?_, fun r b i hrep hb hi => step_of_some hs hq ?_, fun r b e hrep hb he => step_of_none hs hq ?_⟩
    · exact (hplain hrep).trans (congrArg (fetched · v) (fetchInstr_decoded hf hd))
    · exact (hplain hrep).trans (congrArg (fetched · v) (fetchInstr_malformed hf hd))
    · exact (hplain hrep).trans (congrArg (fetched · v) (fetchInstr_fails hf))
    · exact (hrepeat r hrep).trans ((repetition_buffered hb).1 i hi)
    · refine (hrepeat r hrep).trans (((repetition_buffered hb).2 e he).trans ?_)
      rw [findStrand_key hfind]
  · rintro c rfl v hawake hfrozen hfailed p ps u i hf hd
    exact step_of_some hs hq ((issueNext_handler hawake hfrozen hfailed).trans (congrArg (fetched · v) (fetchInstr_decoded hf hd)))

/-! ### Worked encodings -/

/-- The spec's example of an X96 instruction (R75): vfma.f32 v1, v2, -v3, v4 rm=sr sat=on when x7.12. -/
def exampleVfma : Instr :=
  .vfma { vd := 1, vs1 := 2, vs2 := 3, n2 := true, vs3 := 4, ty := 10, rm := 5, sat := true, ge := true, gr := 7, gb := 12 }

theorem encodeBytes_exampleVfma :
    encodeBytes exampleVfma = [0x7F, 0x90, 0x40, 0x18, 0x03, 0xA1, 0xD0, 0x04, 0xE0, 0x61, 0x00, 0x00] := by decide +kernel

theorem decode_exampleVfma : decode (encodeBytes exampleVfma) = .ok (exampleVfma, []) := by
  have h := (decodeEncode exampleVfma [] (by decide +kernel) (by decide +kernel)).1
  rwa [List.append_nil] at h

/-- A parcel whose bits [1:0] are not 11 starts no instruction (R65). -/
theorem parcelCount_not_three {p : Parcel} (h : p.extractLsb' 0 2 ≠ 3) : parcelCount p = .error .noSuchLength := if_pos h

/-- Settles O57: the X96 example decodes because it is an encoding; the others are evaluated. -/
theorem decodedWords : Obligations.DecodedWords := by
  refine ⟨encodeBytes_exampleVfma ▸ decode_exampleVfma, ?_, ?_, ?_, ?_, fun p hp => ⟨_, parcelCount_not_three hp⟩⟩ <;> decide +kernel

end Sys2Proof.Proofs
end

section
/-! PROOFS. What keeps storage in its canonical form (R107, R111, R317), function by function of the model: registers, memory and
translation, and the shared operations of instructions. -/

namespace Sys2Proof.Proofs

open Machine Oblig

/-- Storage has its canonical form. -/
abbrev Canonical (s : State) : Prop := Memory.wf s = true

/-- Storage is canonical in the state that an answer leads to. -/
def CanonicalAnswer (o : Answer) : Prop := ∀ u, o = .next u → Canonical u

@[simp] theorem canonicalAnswer_next (u : State) : CanonicalAnswer (.next u) ↔ Canonical u :=
  ⟨fun h => h u rfl, fun h v e => by cases e; exact h⟩

@[simp] theorem canonicalAnswer_fault (f : Fault) : CanonicalAnswer (.fault f) := fun _ e => by cases e

/-- The state that a result carries. -/
def resState : Res → State
  | .ok s _ => s
  | .trap s _ => s
  | .wait s _ => s

@[simp] theorem resState_ok (s : State) (n : Next) : resState (.ok s n) = s := rfl
@[simp] theorem resState_trap (s : State) (t : Trap) : resState (.trap s t) = s := rfl
@[simp] theorem resState_wait (s : State) (w : Wait) : resState (.wait s w) = s := rfl

/-- What is not storage does not bear on its form. -/
theorem canonical_with (s : State) strands crews retained postHolds cores clusters dies runs graphs contexts jobs colls links
    parked qps regions d2d shards hostDeny status diesUp faultPend cmdAddr cmdBusy cmdBlock cmdStatus cmdResult logBase
    logSize logTail logHead logLost recCount vectors gtc gtcSlow fabricAddr masterAddr nextId nextHandle cur schedule due
    steps response :
    Canonical { s with
      strands := strands, crews := crews, retained := retained, postHolds := postHolds, cores := cores, clusters := clusters,
      dies := dies, runs := runs, graphs := graphs, contexts := contexts, jobs := jobs, colls := colls, links := links,
      parked := parked, qps := qps, regions := regions, d2d := d2d, shards := shards, hostDeny := hostDeny, status := status,
      diesUp := diesUp, faultPend := faultPend, cmdAddr := cmdAddr, cmdBusy := cmdBusy, cmdBlock := cmdBlock, cmdStatus :=
      cmdStatus, cmdResult := cmdResult, logBase := logBase, logSize := logSize, logTail := logTail, logHead := logHead,
      logLost := logLost, recCount := recCount, vectors := vectors, gtc := gtc, gtcSlow := gtcSlow, fabricAddr := fabricAddr,
      masterAddr := masterAddr, nextId := nextId, nextHandle := nextHandle, cur := cur, schedule := schedule, due := due,
      steps := steps, response := response } = Canonical s := rfl

theorem canonical_ite {c : Prop} [Decidable c] {a b : State} (ha : Canonical a) (hb : Canonical b) : Canonical (if c then a else b) := by
  split
  · exact ha
  · exact hb

theorem canonical_resIte {c : Prop} [Decidable c] {a b : Res} (ha : Canonical (resState a)) (hb : Canonical (resState b)) :
    Canonical (resState (if c then a else b)) := by
  split
  · exact ha
  · exact hb

/-! ### Memory -/

theorem canonical_wakeLocs {s : State} {ls : List Loc} (h : Canonical s) : Canonical (wakeLocs s ls) :=
  foldl_keeps Canonical _ _ _ h (fun _ _ hu => (Memory.wf_wakeRun _ _).trans hu)

@[simp] theorem canonical_renameUnit {s : State} {core : ℕ} {x2 v : PowerUnit} : Memory.wf (renameUnit s core x2 v) = Memory.wf s := rfl

theorem canonical_walkPage {s u : State} {die : ℕ} {sp : Space64} {va : ℕ} {acc : Access} {host quiet : Bool} {r : TlbEntry}
    (h : Canonical s) (e : walkPage s die sp va acc host quiet = .ok (r, u)) : Canonical u := by
  unfold walkPage at e
  grind [Memory.wf_updateHome]

theorem canonical_translate {s u : State} {cluster : ℕ} {core : Option ℕ} {sp : Space64} {va : ℕ} {acc : Access} {host quiet : Bool}
    {r : ℕ} (h : Canonical s) (e : Machine.translate s cluster core sp va acc host quiet = .ok (r, u)) : Canonical u := by
  unfold Machine.translate at e
  grind [canonical_walkPage, Memory.wf_setCluster, Memory.wf_setCore]

theorem canonical_virtLocs {s u : State} {cluster : ℕ} {core : Option ℕ} {sp : Space64} {acc : Access} {host : Bool} {fuel va n : ℕ}
    {ea : Word} {ls : List Loc} (h : Canonical s) (e : virtLocs cluster core sp acc host fuel s va ea n = .ok (ls, u)) : Canonical u := by
  induction fuel generalizing s va ea n ls with
  | zero => grind [virtLocs]
  | succ fuel ih =>
    unfold virtLocs at e
    grind [canonical_translate]

theorem canonical_unlessHeld {u : State} {t : Strand} {r : List Loc × State} {ls : List Loc} (h : Canonical r.2)
    (e : unlessHeld t r = .ok (ls, u)) : Canonical u := by
  unfold unlessHeld at e
  grind

theorem canonical_locate {s u : State} {st : Strand} {ea : Word} {n : ℕ} {acc : Access} {ls : List Loc} (h : Canonical s)
    (e : locate s st ea n acc = .ok (ls, u)) : Canonical u := by
  unfold locate at e
  split at e
  · cases e
  · exact canonical_unlessHeld h e
  · split at e
    · cases e
    · next r hr => exact canonical_unlessHeld (canonical_virtLocs h hr) e
  · cases e

theorem canonical_locateHandler {s u : State} {core : ℕ} {ea : Word} {n : ℕ} {acc : Access} {r : List Loc} (h : Canonical s)
    (e : locateHandler s core ea n acc = .ok (r, u)) : Canonical u := by
  unfold locateHandler at e
  grind [canonical_virtLocs]

@[simp] theorem canonical_raiseVector {s : State} {v : ℕ} : Memory.wf (raiseVector s v) = Memory.wf s := rfl

theorem canonical_logEvent {s : State} {ev : Event} (h : Canonical s) : Canonical (logEvent s ev) := by
  unfold logEvent
  grind [canonical_with, Memory.wf_writeHome]

theorem canonical_noteFailure {s : State} {f : Failure} (h : Canonical s) : Canonical (noteFailure s f) := by
  unfold noteFailure
  grind [Memory.wf_setDie, canonical_logEvent]

theorem canonical_noteTrap {s : State} {t : Trap} (h : Canonical s) : Canonical (noteTrap s t) := by
  unfold noteTrap
  cases t.note with
  | none => exact h
  | some f => exact canonical_noteFailure h

/-! ### Ops -/

theorem canonical_xSet {s : State} {r : BitVec 5} {v : Word} (h : Canonical s) : Canonical (xSet s r v) := by
  unfold xSet
  grind [Memory.wf_setCore, Memory.wf_setStrand]

@[simp] theorem canonical_markDead {s : State} : Memory.wf (markDead s) = Memory.wf s := by
  unfold markDead
  split <;> rfl

@[simp] theorem canonical_complete {s : State} {len : ℕ} {n : Next} : Memory.wf (complete s len n) = Memory.wf s := by
  unfold complete
  split <;> rfl

@[simp] theorem canonical_sendPacket {s : State} {core : ℕ} {p : Packet} : Memory.wf (sendPacket s core p) = Memory.wf s := rfl

@[simp] theorem canonical_clearSaving {s : State} {t : Strand} : Memory.wf (clearSaving s t) = Memory.wf s := by
  unfold clearSaving
  split <;> rfl

theorem canonical_takeTrap {s : State} {k : StrandKey} {tr : Trap} (h : Canonical s) : Canonical (takeTrap s k tr) := by
  unfold takeTrap
  grind [canonical_clearSaving, Memory.wf_setStrand, canonical_sendPacket, canonical_noteTrap]

theorem canonical_handlerTrap {s : State} {core : ℕ} {tr : Trap} (h : Canonical s) : Canonical (handlerTrap s core tr) := by
  unfold handlerTrap
  grind [Memory.wf_setDie, canonical_noteTrap, Memory.wf_setCore]

theorem canonical_trapCur {s : State} {tr : Trap} (h : Canonical s) : Canonical (trapCur s tr) := by
  unfold trapCur
  grind [canonical_handlerTrap, canonical_takeTrap]

@[simp] theorem canonical_blockCur {s : State} {len : ℕ} {w : Wait} : Memory.wf (blockCur s len w) = Memory.wf s := by
  unfold blockCur
  split <;> rfl

theorem canonical_retire {len : ℕ} {r : Res} (h : Canonical (resState r)) : CanonicalAnswer (retire len r) := by
  cases r with
  | ok s n => exact (canonicalAnswer_next _).mpr (canonical_complete.trans h)
  | trap s t =>
    simp only [retire, canonicalAnswer_next]
    split
    · exact h
    · exact canonical_trapCur h
  | wait s w => exact (canonicalAnswer_next _).mpr (canonical_blockCur.trans h)

theorem canonical_runStrand {s : State} {i : Instr} {f : Strand → Res} (h : Canonical s) (hf : ∀ t, Canonical (resState (f t))) :
    CanonicalAnswer (runStrand i s f) := by
  unfold runStrand
  split
  · exact canonical_retire h
  · split
    · exact (canonicalAnswer_next s).mpr h
    · split
      · exact canonical_retire (hf _)
      · exact canonical_retire h

theorem canonical_runParty {s : State} {i : Instr} {r : Res} (h : Canonical s) (hr : Canonical (resState r)) :
    CanonicalAnswer (runParty i s r) := by
  unfold runParty
  split
  · exact canonical_retire hr
  · split
    · exact (canonicalAnswer_next s).mpr h
    · exact canonical_retire hr

theorem canonical_runHandler {s : State} {i : Instr} {f : ℕ → Res} (h : Canonical s) (hf : ∀ c, Canonical (resState (f c))) :
    CanonicalAnswer (runHandler i s f) := by
  unfold runHandler
  split
  · exact canonical_retire (hf _)
  · split
    · exact (canonicalAnswer_next s).mpr h
    · exact canonical_retire h

theorem canonical_runEvent {f : State} {unit : Bool} (h : Canonical f) : CanonicalAnswer (runEvent unit f) := by
  unfold runEvent
  split
  · exact (canonicalAnswer_next f).mpr h
  · exact canonicalAnswer_fault _

theorem canonical_locateCur {s u : State} {ea : Word} {n : ℕ} {acc : Access} {r : List Loc} (h : Canonical s)
    (e : locateCur s ea n acc = .ok (r, u)) : Canonical u := by
  unfold locateCur at e
  grind [canonical_locateHandler, canonical_locate]

theorem canonical_loadCur {s u : State} {ea : Word} {n : ℕ} {bs : List Byte} (h : Canonical s) (e : loadCur s ea n = .ok (bs, u)) :
    Canonical u := by
  unfold loadCur at e
  split at e
  · cases e
  · next ls s1 hl =>
    split at e
    · cases e
    · next r hr => cases e; exact Memory.wf_loadLocs (canonical_locateCur h hl) hr

theorem canonical_storeCur {s u : State} {ea : Word} {bs : List Byte} (h : Canonical s) (e : storeCur s ea bs = .ok u) : Canonical u := by
  unfold storeCur at e
  grind [Memory.wf_storeLocs, canonical_locateCur]

theorem canonical_loadAs {s u : State} {t : Strand} {ea : Word} {n : ℕ} {bs : List Byte} (h : Canonical s)
    (e : loadAs s t ea n = .ok (bs, u)) : Canonical u := by
  unfold loadAs at e
  split at e
  · cases e
  · next ls s1 hl =>
    split at e
    · cases e
    · next r hr => cases e; exact Memory.wf_loadLocs (canonical_locate h hl) hr

theorem canonical_logStrand {s : State} {src kind cause : ℕ} {k : StrandKey} {addr : ℕ} (h : Canonical s) : Canonical
    (logStrand s src kind cause k addr) := by
  unfold logStrand
  grind [canonical_logEvent]

theorem canonical_packageEvent {s : State} {ev : Event} (h : Canonical s) : Canonical (packageEvent s ev) := by
  unfold packageEvent
  grind [canonical_logEvent, canonical_raiseVector]

/-! ### Operands -/

theorem canonical_wakeRegs {s : State} {t : Strand} {gs : List (ℕ × ℕ)} (h : Canonical s) : Canonical (wakeRegs s t gs) :=
  foldl_keeps Canonical _ _ _ h (fun _ _ hu => (Memory.wf_wake _ _ _).trans hu)

end Sys2Proof.Proofs
end

section
/-! PROOFS. What keeps storage in its canonical form: records, fetching, the flow of control, pre-emption requests, CSRs, the debug
window, atomic operations and barriers. -/

namespace Sys2Proof.Proofs

open Machine Oblig

/-! ### Alu -/

theorem canonical_writeX {s : State} {rd : BitVec 5} {v : Word} (h : Canonical s) : Canonical (resState (writeX s rd v)) := by
  unfold writeX
  grind [resState, canonical_xSet]

/-! ### Record -/

theorem canonical_ctxWalk {s u : State} {ctx va : ℕ} {acc : Access} {r : TlbEntry} (h : Canonical s)
    (e : ctxWalk s ctx va acc = .ok (r, u)) : Canonical u := by
  unfold ctxWalk at e
  grind [canonical_walkPage]

theorem canonical_ctxLocsFuel {s u : State} {ctx fuel va n : ℕ} {acc : Access} {ls : List Loc} (h : Canonical s)
    (e : ctxLocsFuel ctx acc fuel s va n = .ok (ls, u)) : Canonical u := by
  induction fuel generalizing s va n ls with
  | zero => grind [ctxLocsFuel]
  | succ fuel ih =>
    unfold ctxLocsFuel at e
    grind [canonical_ctxWalk]

theorem canonical_ctxLocs {s u : State} {ctx va n : ℕ} {acc : Access} {r : List Loc} (h : Canonical s)
    (e : ctxLocs s ctx va n acc = .ok (r, u)) : Canonical u := by
  unfold ctxLocs at e
  grind [canonical_ctxLocsFuel]

theorem canonical_noteRead {s : State} {ctx va n : ℕ} (h : Canonical s) : Canonical (noteRead s ctx va n) := by
  unfold noteRead
  cases ctxFailure s ctx va n .load 0 hostSource with
  | none => exact h
  | some f => exact canonical_noteFailure h

theorem canonical_noteWalk {s : State} {ctx va n : ℕ} {acc : Access} (h : Canonical s) : Canonical (noteWalk s ctx va n acc) := by
  unfold noteWalk
  grind [canonical_noteFailure, canonical_ctxLocs]

theorem canonical_ctxWrite {s u : State} {ctx va : ℕ} {bs : List Byte} (h : Canonical s) (e : ctxWrite s ctx va bs = some u) : Canonical u
    := by
  unfold ctxWrite at e
  grind [Memory.wf_writeLocs, canonical_ctxLocs]

@[simp] theorem canonical_setContext {s : State} {ctx : ℕ} {f : Context → Context} : Memory.wf (setContext s ctx f) = Memory.wf s := by
  unfold setContext
  split <;> rfl

@[simp] theorem canonical_nameRun {s : State} {run : ℕ} : Memory.wf (nameRun s run) = Memory.wf s := rfl

theorem canonical_putRecord {s : State} {ctx : ℕ} {bytes : List Byte} (h : Canonical s) : Canonical (putRecord s ctx bytes) := by
  unfold putRecord
  split
  · exact h
  · next c hc =>
    have hwrite : Canonical ((ctxWrite s ctx (c.mani + c.maniPos) bytes).getD (noteWalk s ctx (c.mani + c.maniPos) 32 .store)) := by
      cases hw : ctxWrite s ctx (c.mani + c.maniPos) bytes with
      | none => exact canonical_noteWalk h
      | some u => exact canonical_ctxWrite h hw
    dsimp only
    split
    · exact canonical_raiseVector.trans (canonical_setContext.trans hwrite)
    · exact canonical_setContext.trans hwrite

theorem canonical_closeManifest {s : State} {ctx : ℕ} (h : Canonical s) : Canonical (closeManifest s ctx) := by
  unfold closeManifest
  grind [canonical_putRecord, canonical_setContext]

theorem canonical_appendRecord {s : State} {ctx : ℕ} {bytes : List Byte} (h : Canonical s) : Canonical (appendRecord s ctx bytes) := by
  unfold appendRecord
  grind [canonical_putRecord, canonical_closeManifest]

theorem canonical_recordDecision {s : State} {t : Strand} {kind flags src loc seq : ℕ} (h : Canonical s) : Canonical
    (recordDecision s t kind flags src loc seq) := by
  unfold recordDecision
  grind [canonical_appendRecord]

theorem canonical_serveRecord {s : State} {t : Strand} {kind loc seq : ℕ} (h : Canonical s) : Canonical (serveRecord s t kind loc seq)
    := by
  unfold serveRecord
  grind [Memory.wf_setRun]

theorem canonical_served {s : State} {t : Strand} {kind flags src loc seq : ℕ} (h : Canonical s) : Canonical
    (served s t kind flags src loc seq) := by
  unfold served
  grind [canonical_recordDecision, canonical_serveRecord]

@[simp] theorem canonical_diverges {s : State} {k : StrandKey} {index : ℕ} : Memory.wf (diverges s k index) = Memory.wf s := rfl

@[simp] theorem canonical_countRound {s : State} {t : Strand} {num : ℕ} : Memory.wf (countRound s t num) = Memory.wf s := rfl

/-! ### Fetch -/

theorem canonical_fetchLine {s u : State} {core : ℕ} {sp : Space64} {va : ℕ} {host : Bool} {r : List Byte} (h : Canonical s)
    (e : fetchLine s core sp va host = .ok (r, u)) : Canonical u := by
  unfold fetchLine at e
  grind [canonical_translate, Memory.wf_setCore]

theorem canonical_readLine {s u : State} {core : ℕ} {sp : Space64} {va : ℕ} {host : Bool} {r : List Byte} (h : Canonical s)
    (e : readLine s core sp va host = .ok (r, u)) : Canonical u := by
  unfold readLine at e
  grind [canonical_translate, canonical_fetchLine]

theorem canonical_hintLine {s : State} {core : ℕ} {x2 : Hint} (h : Canonical s) : Canonical (hintLine s core x2) := by
  unfold hintLine
  grind [Memory.wf_setCore, canonical_translate]

@[simp] theorem canonical_dropHint {s : State} {core : ℕ} {x2 : Hint} : Memory.wf (dropHint s core x2) = Memory.wf s := rfl

theorem canonical_scanLine {s u : State} {core : ℕ} {sp : Space64} {va : ℕ} {host : Bool} {r : List Byte} (h : Canonical s)
    (e : scanLine s core sp va host = .ok (r, u)) : Canonical u := by
  unfold scanLine at e
  grind [canonical_dropHint, canonical_hintLine, canonical_readLine]

/-- A reader that goes from canonical storage to canonical storage. -/
def ReaderKeeps {α β : Type} (get : State → α → Except Trap (β × State)) : Prop :=
  ∀ s a b u, Canonical s → get s a = .ok (b, u) → Canonical u

/-- The same for a reader of lines. -/
def LineKeeps (line : State → ℕ → Space64 → ℕ → Bool → Except Failure (List Byte × State)) : Prop :=
  ∀ s core sp va host bs u, Canonical s → line s core sp va host = .ok (bs, u) → Canonical u

theorem canonical_parcelBy {s u : State} {line : State → ℕ → Space64 → ℕ → Bool → Except Failure (List Byte × State)} {t : Strand}
    {a : Word} {p : Parcel} (hline : LineKeeps line) (h : Canonical s) (e : parcelBy line s t a = .ok (p, u)) : Canonical u := by
  unfold parcelBy at e
  split at e
  · cases e
  · split at e
    · cases e
    · next bs s1 hl => cases e; exact hline _ _ _ _ _ _ _ h hl
  · cases e

theorem lineKeeps_fetchLine : LineKeeps fetchLine := fun _ _ _ _ _ _ _ h e => canonical_fetchLine h e

theorem canonical_fetchParcel {s u : State} {t : Strand} {a : Word} {p : Parcel} (h : Canonical s)
    (e : fetchParcel s t a = .ok (p, u)) : Canonical u := canonical_parcelBy lineKeeps_fetchLine h e

theorem canonical_fetchHandler {s u : State} {core : ℕ} {a : Word} {r : Parcel} (h : Canonical s) (e : fetchHandler s core a = .ok (r, u))
    : Canonical u := by
  unfold fetchHandler at e
  grind [canonical_fetchLine]

theorem canonical_fetchMore {s u : State} {get : State → Word → Except Trap (Parcel × State)} {n : ℕ} {a : Word} {ps : List Parcel}
    (hget : ReaderKeeps get) (h : Canonical s) (e : fetchMore get n s a = .ok (ps, u)) : Canonical u := by
  induction n generalizing s a ps with
  | zero => cases e; exact h
  | succ n ih =>
    unfold fetchMore at e
    split at e
    · cases e
    · next p s1 hp =>
      split at e
      · cases e
      · next ps' s2 hps => cases e; exact ih (hget _ _ _ _ h hp) hps

theorem canonical_fetchInstr {s u : State} {get : State → Word → Except Trap (Parcel × State)} {a : Word} {r : Except Parcel Instr}
    (hget : ReaderKeeps get) (h : Canonical s) (e : fetchInstr get s a = .ok (r, u)) : Canonical u := by
  unfold fetchInstr at e
  split at e
  · cases e
  · next p s1 hp =>
    have hs1 := hget _ _ _ _ h hp
    split at e
    · cases e; exact hs1
    · split at e
      · cases e
      · next ps s2 hps =>
        have hs2 := canonical_fetchMore hget hs1 hps
        split at e
        · cases e; exact hs2
        · cases e; exact hs2

theorem readerKeeps_fetchParcel (t : Strand) : ReaderKeeps (fun s a => fetchParcel s t a) := fun _ _ _ _ h e => canonical_fetchParcel h e

theorem canonical_fetchStrand {s u : State} {t : Strand} {a : Word} {r : Except Parcel Instr} (h : Canonical s)
    (e : fetchStrand s t a = .ok (r, u)) : Canonical u := canonical_fetchInstr (readerKeeps_fetchParcel t) h e

theorem canonical_captureBody {s u : State} {t : Strand} {mask n off : ℕ} {base : Word} {r : Option (List (Instr × ℕ × ℕ))}
    (h : Canonical s) (e : captureBody t mask n s base off = .ok (r, u)) : Canonical u := by
  induction n generalizing s off r with
  | zero => cases e; exact h
  | succ n ih =>
    unfold captureBody at e
    grind [canonical_fetchStrand]

/-! ### Control -/

theorem canonical_transfer {s s1 : State} {target : Word} (h : Canonical s) (h1 : Canonical s1) :
    Canonical (resState (transfer s s1 target)) := by
  grind [transfer, resState]

theorem canonical_branch {s : State} {taken : Bool} {off : Word} (h : Canonical s) : Canonical (resState (branch s taken off)) := by
  unfold branch
  split
  · exact canonical_transfer h h
  · exact h

theorem canonical_jumpLink {s : State} {rd : BitVec 5} {target : Word} {marks : Bool} (h : Canonical s) : Canonical
    (resState (jumpLink s rd target marks)) := by
  unfold jumpLink
  grind [resState, canonical_markDead, canonical_transfer, canonical_xSet]

theorem canonical_fenceEffect {s : State} {pred succ : BitVec 4} (h : Canonical s) : Canonical (fenceEffect s pred succ) := by
  unfold fenceEffect
  grind [Memory.wf_acquire, Memory.wf_release]

theorem canonical_fence {s : State} {pred succ : BitVec 4} (h : Canonical s) : Canonical (resState (fence s pred succ)) := by
  unfold fence
  grind [resState, canonical_fenceEffect]

theorem canonical_fencexEffect {s : State} {a b : ℕ} (h : Canonical s) : Canonical (fencexEffect s a b) := by
  unfold fencexEffect
  grind [Memory.wf_acquire, Memory.wf_release]

theorem lineKeeps_scanLine : LineKeeps scanLine := fun _ _ _ _ _ _ _ h e => canonical_scanLine h e

theorem canonical_scanBody {s u : State} {t : Strand} {n : ℕ} {a b : Word} (h : Canonical s) (e : scanBody t n s a = .ok (b, u)) :
    Canonical u := by
  induction n generalizing s a with
  | zero => cases e; exact h
  | succ n ih =>
    unfold scanBody at e
    split at e
    · cases e
    · next p s1 hp => exact ih (canonical_parcelBy lineKeeps_scanLine h hp) e

theorem canonical_hintOne {s : State} {t : Strand} {line : ℕ} (h : Canonical s) : Canonical (hintOne t line s) := by
  unfold hintOne
  grind [Memory.wf_setCore]

theorem canonical_fillHint {s : State} {core : ℕ} (h : Canonical s) : Canonical (fillHint s core) := by
  unfold fillHint
  grind [Memory.wf_setDie, canonical_dropHint, canonical_hintLine]

theorem canonical_walkFor {s : State} {w : WalkReq} (h : Canonical s) : Canonical (walkFor s w) := by
  unfold walkFor
  grind [Memory.wf_setCore, canonical_translate]

theorem canonical_walkQueue {s : State} {die : ℕ} (h : Canonical s) : Canonical (walkQueue s die) := by
  unfold walkQueue
  split
  · exact h
  · exact foldl_keeps Canonical _ _ _ ((Memory.wf_setDie _ _ _).trans h) (fun _ _ hu => canonical_walkFor hu)

/-! ### Saving -/

@[simp] theorem canonical_dropClaim {s : State} {t : Strand} : Memory.wf (dropClaim s t) = Memory.wf s := rfl

@[simp] theorem canonical_dropDrain {s : State} {t : Strand} : Memory.wf (dropDrain s t) = Memory.wf s := by
  unfold dropDrain
  split <;> rfl

theorem canonical_abandon {s : State} {t : Strand} (h : Canonical s) : Canonical (abandon s t) := by
  unfold abandon
  grind [canonical_dropClaim, canonical_dropDrain, Memory.wf_setStrand]

@[simp] theorem canonical_beginSave {s : State} {t : Strand} {live : BitVec 64 × BitVec 16 × BitVec 8 × Bool} : Memory.wf
    (beginSave s t live) = Memory.wf s := rfl

theorem canonical_requestSlot {s : State} {core i : ℕ} (h : Canonical s) : Canonical (requestSlot core i s) := by
  unfold requestSlot
  grind [canonical_beginSave, Memory.wf_setStrand, Memory.wf_setCore]

/-- An act on one slot of a core that keeps storage canonical. -/
def ActKeeps (act : ℕ → ℕ → State → State) : Prop := ∀ core i s, Canonical s → Canonical (act core i s)

theorem canonical_forGroup {s : State} {act : ℕ → ℕ → State → State} {core i : ℕ} (hact : ActKeeps act) (h : Canonical s) :
    Canonical (forGroup act core i s) := by
  unfold forGroup
  split
  · exact hact _ _ _ h
  · exact foldl_keeps Canonical _ _ _ h (fun _ _ hu => hact _ _ _ hu)

theorem canonical_withdrawSlot {s : State} {core i : ℕ} (h : Canonical s) : Canonical (withdrawSlot core i s) := by
  unfold withdrawSlot
  grind [Memory.wf_setStrand, Memory.wf_setCore]

theorem actKeeps_withdrawSlot : ActKeeps withdrawSlot := fun _ _ _ h => canonical_withdrawSlot h
theorem actKeeps_requestSlot : ActKeeps requestSlot := fun _ _ _ h => canonical_requestSlot h

theorem canonical_withdrawGroup {s : State} {core i : ℕ} (h : Canonical s) : Canonical (withdrawGroup core i s) := by
  unfold withdrawGroup
  dsimp only
  split
  · exact canonical_forGroup actKeeps_withdrawSlot h
  · exact h

theorem canonical_forCovered {s : State} {act : ℕ → ℕ → State → State} {except : Strand → Bool} {manager : Bool} {core i : ℕ}
    (hact : ActKeeps act) (h : Canonical s) : Canonical (forCovered act except manager core i s) := by
  unfold forCovered
  dsimp only
  split
  · exact hact _ _ _ h
  · exact foldl_keeps Canonical _ _ _ h (fun _ _ hu => hact _ _ _ hu)

theorem canonical_withdrawBit {s : State} {core v i : ℕ} {manager : Bool} (h : Canonical s) :
    Canonical (withdrawBit core v manager i s) := by
  unfold withdrawBit
  dsimp only
  split
  · exact h
  · exact canonical_forCovered actKeeps_withdrawSlot h

theorem canonical_requestBit {s : State} {core v i : ℕ} {manager : Bool} {old : BitVec 4} (h : Canonical s) :
    Canonical (requestBit core v manager old i s) := by
  unfold requestBit
  split
  · exact canonical_forCovered actKeeps_requestSlot h
  · exact h

theorem canonical_writeReq {s : State} {core v : ℕ} {manager : Bool} (h : Canonical s) : Canonical (writeReq s core v manager) :=
  forUpTo_keeps Canonical _ _ _ (forUpTo_keeps Canonical _ _ _ h (fun _ _ hu => canonical_withdrawBit hu)) (fun _ _ hu => canonical_requestBit hu)

theorem canonical_forceSave {s : State} {k : StrandKey} (h : Canonical s) : Canonical (forceSave s k) := by
  unfold forceSave
  grind [canonical_beginSave]

/-! ### Csr -/

theorem canonical_writeFltpc {s u : State} {core : ℕ} {v : Word} (h : Canonical s) (e : writeFltpc s core v = .ok u) : Canonical u := by
  unfold writeFltpc at e
  grind [Memory.wf_setStrand]

theorem canonical_writePreempt {s : State} {core : ℕ} {v : Word} {manager : Bool} (h : Canonical s) : Canonical
    (writePreempt s core v manager) := by
  unfold writePreempt
  grind [canonical_writeReq, Memory.wf_setCore]

theorem canonical_writeHandlerCsr {s u : State} {core a : ℕ} {v : Word} (h : Canonical s) (e : writeHandlerCsr s core a v = some (.ok u))
    : Canonical u := by
  unfold writeHandlerCsr at e
  grind [canonical_writePreempt, canonical_writeFltpc, Memory.wf_setCore]

theorem canonical_strandCsr {s : State} {t : Strand} {i : Instr} {a : ℕ} {rd : BitVec 5} {write : Option (Word → Word)} (h : Canonical s)
    : Canonical (resState (strandCsr s t i a rd write)) := by
  unfold strandCsr
  grind [resState, Memory.wf_setStrand, canonical_writeX]

theorem canonical_handlerCsr {s : State} {core : ℕ} {i : Instr} {a : ℕ} {rd : BitVec 5} {write : Option (Word → Word)} (h : Canonical s) :
    Canonical (resState (handlerCsr s core i a rd write)) := by
  unfold handlerCsr
  grind [resState, canonical_writeHandlerCsr, canonical_writeX]

theorem canonical_csrAccess {s : State} {i : Instr} {csr : BitVec 12} {rd : BitVec 5} {write : Option (Word → Word)} (h : Canonical s) :
    CanonicalAnswer (csrAccess i s csr rd write) := by
  unfold csrAccess
  grind [canonical_handlerCsr, canonical_strandCsr, canonical_runParty]

theorem canonical_csrStore {s : State} {k : StrandKey} {n : ℕ} {v : Word} (h : Canonical s) : Canonical (csrStore s k n v) := by
  unfold csrStore
  grind [Memory.wf_setStrand]

/-! ### Window -/

theorem canonical_wakeWindow {s : State} {die q off : ℕ} (h : Canonical s) : Canonical (wakeWindow s die q off) := by
  unfold wakeWindow
  grind [Memory.wf_wake]

theorem canonical_writeWindow {s u : State} {die q off size : ℕ} {v : VReg} (h : Canonical s)
    (e : writeWindow s die q off size v = some u) : Canonical u := by
  unfold writeWindow at e
  split at e
  · cases e
  · split at e
    · cases e
    · split at e
      · obtain ⟨t, -, rfl⟩ := Option.map_eq_some_iff.mp e
        exact h
      · split at e
        · cases e
        · cases e; exact canonical_wakeWindow h

theorem canonical_windowError {s : State} {q off : ℕ} (h : Canonical s) : Canonical (windowError s q off) := by
  unfold windowError
  grind [canonical_with, canonical_noteFailure]

/-! ### Atomic -/

theorem canonical_locateAtomic {s u : State} {ea : Word} {n : ℕ} {r : List Loc} (h : Canonical s) (e : locateAtomic s ea n = .ok (r, u)) :
    Canonical u := by
  unfold locateAtomic at e
  grind [canonical_locateCur]

@[simp] theorem canonical_setResv {s : State} {r : Option Reservation} : Memory.wf (setResv s r) = Memory.wf s := by
  unfold setResv
  split <;> rfl

theorem canonical_atHome {s u : State} {op : Atomic} {n : ℕ} {ea : Word} {sp : Space} {a : ℕ} {r : Word} (h : Canonical s)
    (e : atHome s op n ea sp a = .ok (r, u)) : Canonical u := by
  unfold atHome at e
  grind [Memory.wf_updateHome, Memory.wf_writeHome, canonical_setResv]

theorem canonical_atomicServed {s : State} {op : Atomic} {rd : BitVec 5} {sp : Space} {a : ℕ} {failed : Bool} (h : Canonical s) :
    Canonical (atomicServed s op rd sp a failed) := by
  unfold atomicServed
  grind [canonical_served, canonical_countRound]

theorem canonical_doAtomic {s : State} {op : Atomic} {n : ℕ} {rd : BitVec 5} {ea : Word} {aq rl : Bool} (h : Canonical s) :
    Canonical (resState (doAtomic s op n rd ea aq rl)) := by
  unfold doAtomic
  split
  · exact h
  · next s1 hl => exact canonical_locateAtomic h hl
  · next sp a _ s1 hl =>
    have hs1 := canonical_locateAtomic h hl
    have hs3 : ∀ s2, Canonical s2 → Canonical (if sp = .dev then toHome s2 (curCore s1) a n else wakeLoc s2 (sp, a)) :=
      fun s2 h2 => canonical_ite (Memory.wf_toHome _ _ _ h2) ((Memory.wf_wakeLoc _ _).trans h2)
    split
    · exact h
    · split
      · exact canonical_diverges.trans hs1
      · exact hs1
      · dsimp only
        have hs2 : Canonical (if rl then release s1 (curCore s1) (curKey s1) else s1) := canonical_ite (Memory.wf_release _ _ hs1) hs1
        split
        · exact h
        · next v s4 ha =>
          have hs4 := canonical_atHome (hs3 _ hs2) ha
          split
          · exact canonical_diverges.trans hs1
          · refine canonical_writeX (canonical_ite ?_ ?_)
            · exact (Memory.wf_acquire _ _).trans (canonical_atomicServed hs4)
            · exact canonical_atomicServed hs4

theorem canonical_runAtomic {s : State} {i : Instr} {op : Atomic} {n : ℕ} {rd rs1 : BitVec 5} {aq rl : Bool} (h : Canonical s) :
    CanonicalAnswer (runAtomic i s op n rd rs1 aq rl) := by
  have hres {c : Prop} [Decidable c] : Canonical (resState (if c then .trap s (illegal s i) else doAtomic s op n rd (xGet s rs1) aq rl)) := by
    split
    · exact h
    · exact canonical_doAtomic h
  exact canonical_runParty h hres

/-! ### Barrier -/

theorem canonical_reportFault {s u : State} {t : Strand} {covers : PendFault → Bool} {tr : Trap} (h : Canonical s)
    (e : reportFault s t covers = some (tr, u)) : Canonical u := by
  obtain ⟨f, -, hf⟩ := Option.map_eq_some_iff.mp e
  cases hf
  exact h

@[simp] theorem canonical_addFault {s : State} {k : StrandKey} {f : PendFault} : Memory.wf (addFault s k f) = Memory.wf s := rfl

theorem canonical_creditFault {s : State} {t : Strand} {order : ℕ} {ptr : Word} {a : ℕ} (h : Canonical s) : Canonical
    (creditFault s t order ptr a) := by
  unfold creditFault
  grind [canonical_noteFailure, canonical_addFault]

theorem canonical_credit {s : State} {k : StrandKey} {order : ℕ} {ptr : Word} {n bits : ℕ} (h : Canonical s) : Canonical
    (credit s k order ptr n bits) := by
  unfold credit
  grind [Memory.wf_updateHome, Memory.wf_wakeLoc, canonical_creditFault]

theorem canonical_waitBarrier {s : State} {t : Strand} {rd : BitVec 5} {ptr : Word} {phase : ℕ} (h : Canonical s) : Canonical
    (resState (waitBarrier s t rd ptr phase)) := by
  unfold waitBarrier
  grind [resState, Memory.wf_acquire, canonical_xSet, canonical_reportFault, Memory.wf_wakeLoc]

end Sys2Proof.Proofs
end

section
/-! PROOFS. What keeps storage in its canonical form: vector loads and stores, copies, links, collectives and messages. -/

namespace Sys2Proof.Proofs

open Machine Oblig

/-! ### VecMove -/

theorem canonical_locateAll {s u : State} {t : Strand} {n : ℕ} {acc : Access} {eas : List Word} {r : List (List Loc)} (h : Canonical s)
    (e : locateAll t n acc s eas = .ok (r, u)) : Canonical u := by
  induction eas generalizing s r with
  | nil => cases e; exact h
  | cons ea eas ih =>
    unfold locateAll at e
    split at e
    · cases e
    · next ls s1 hl =>
      split at e
      · cases e
      · next l s2 hr => cases e; exact ih (canonical_locate h hl) hr

theorem canonical_loadElems {s u : State} {core : ℕ} {exact : Bool} {es : List (Word × List Loc)} {r : List ℕ} (h : Canonical s)
    (e : loadElems core exact s es = .ok (r, u)) : Canonical u := by
  induction es generalizing s r with
  | nil => cases e; exact h
  | cons x es ih =>
    unfold loadElems at e
    split at e
    · cases e
    · next bs s1 hl =>
      split at e
      · cases e
      · next vs s2 hr => cases e; exact ih (Memory.wf_loadLocs h hl) hr

theorem canonical_storeElems {s : State} {t : Strand} {n : ℕ} {l : List (List Loc × ℕ)} (h : Canonical s) :
    Canonical (storeElems t n s l) :=
  foldl_keeps Canonical _ _ _ h (fun _ _ hu => Memory.wf_storeLocs _ _ _ _ hu)

theorem canonical_gatherElems {s u : State} {t : Strand} {n : ℕ} {exact : Bool} {eas : List Word} {r : List ℕ} (h : Canonical s)
    (e : gatherElems s t n exact eas = .ok (r, u)) : Canonical u := by
  unfold gatherElems at e
  split at e
  · cases e
  · split at e
    · cases e
    · next ls s1 hl => exact canonical_loadElems (canonical_locateAll h hl) e

theorem canonical_scatterElems {s u : State} {t : Strand} {n : ℕ} {eas : List Word} {vs : List ℕ} (h : Canonical s)
    (e : scatterElems s t n eas vs = .ok u) : Canonical u := by
  unfold scatterElems at e
  grind [canonical_storeElems, canonical_locateAll]

theorem canonical_withRegs {s : State} {t : Strand} {gs : List (ℕ × ℕ)} {f : State → Res} (h : Canonical s)
    (hf : ∀ u, Canonical u → Canonical (resState (f u))) : Canonical (resState (withRegs s t gs f)) := by
  unfold withRegs
  split
  · exact h
  · exact hf _ (canonical_wakeRegs h)

theorem canonical_writeStrand {s : State} {t : Strand} {f : Strand → Strand} (h : Canonical s) :
    Canonical (resState (writeStrand s t f)) := h

/-! ### VecMem -/

theorem canonical_addAt {s : State} {sp : Space} {a ty mode : ℕ} {sat : Bool} {v : Exact} (h : Canonical s) : Canonical
    (addAt s sp a ty mode sat v) := by
  unfold addAt
  grind [Memory.wf_updateHome, canonical_logEvent, Memory.wf_wakeLoc]

theorem canonical_addLocs {s : State} {ls : List Loc} {ty mode : ℕ} {sat : Bool} {v : Exact} (h : Canonical s) :
    Canonical (addLocs s ls ty mode sat v) := by
  unfold addLocs
  split
  · exact h
  · dsimp only
    split
    · exact canonical_logEvent (canonical_wakeLocs h)
    · exact Memory.wf_writeRuns (fun _ _ _ _ hu => Memory.wf_updateHome _ _ _ hu) _ _ (canonical_wakeLocs h)

theorem canonical_applyPost {s : State} {run : ℕ} {p : AddPost} (h : Canonical s) : Canonical (applyPost run s p) := by
  unfold applyPost
  grind [canonical_addLocs, canonical_addAt]

@[simp] theorem canonical_takeSeq {s : State} {t : Strand} : Memory.wf (takeSeq s t) = Memory.wf s := rfl

theorem canonical_atHomes {s : State} {core n : ℕ} {ps : List AddPost} (h : Canonical s) : Canonical (atHomes s core n ps) :=
  foldl_keeps Canonical _ _ _ h (fun _ _ hu => canonical_ite (Memory.wf_toHome _ _ _ hu) ((Memory.wf_wakeLoc _ _).trans hu))

theorem canonical_makeAdd {s : State} {run : ℕ} {p : AddPost} (h : Canonical s) : Canonical (makeAdd s run p) := by
  unfold makeAdd
  grind [canonical_applyPost, canonical_countRound]

theorem canonical_serveHeld {s : State} {run fuel : ℕ} (h : Canonical s) : Canonical (serveHeld run fuel s) := by
  induction fuel generalizing s with
  | zero => exact h
  | succ fuel ih =>
    unfold serveHeld
    split
    · exact ih ((Memory.wf_setRun _ _ _).trans (canonical_serveRecord (canonical_makeAdd (canonical_atHomes h))))
    · split
      · exact canonical_diverges.trans h
      · exact h

theorem canonical_serveAdds {s : State} {run : ℕ} (h : Canonical s) : Canonical (serveAdds s run) := by
  unfold serveAdds
  grind [canonical_serveHeld]

theorem canonical_arriveAdd {s : State} {t : Strand} {p : AddPost} (h : Canonical s) : Canonical (arriveAdd t s p) := by
  unfold arriveAdd
  grind [canonical_makeAdd, canonical_recordDecision]

@[simp] theorem canonical_holdAdds {s : State} {t : Strand} {arrive : List AddPost} : Memory.wf (holdAdds s t arrive) = Memory.wf s := rfl

theorem canonical_vamoOpen {s : State} {t : Strand} {n : ℕ} {arrive : List AddPost} (h : Canonical s) :
    Canonical (vamoOpen s t n arrive) := by
  unfold vamoOpen
  dsimp only
  split
  · exact canonical_serveAdds (canonical_holdAdds.trans (canonical_atHomes h))
  · exact foldl_keeps Canonical _ _ _ (canonical_atHomes h) (fun _ _ hu => canonical_arriveAdd hu)

theorem canonical_vamoEffect {s : State} {t : Strand} {f : X96} {i : Instr} {ps : List AddPost} (h : Canonical s) :
    Canonical (resState (vamoEffect s t f i ps)) := by
  have hadds : Canonical (ps.foldl (applyPost t.key.run) (atHomes s t.core (tyWidth f.ty.toNat / 8) ps)) :=
    foldl_keeps Canonical _ _ _ (canonical_atHomes h) (fun _ _ hu => canonical_applyPost hu)
  unfold vamoEffect
  dsimp only
  split
  · exact canonical_ite (canonical_takeSeq.trans hadds) hadds
  · generalize (if f.ord = true then [] else vamoArrive s t ps) = arrive
    refine canonical_resIte h ?_
    · split
      · exact canonical_diverges.trans h
      · exact canonical_ite (canonical_takeSeq.trans (canonical_vamoOpen h)) (canonical_vamoOpen h)

/-! ### Copy -/

theorem canonical_locateEng {s u : State} {t : Strand} {ea : Word} {n : ℕ} {acc : Access} {r : List Loc} (h : Canonical s)
    (e : locateEng s t ea n acc = .ok (r, u)) : Canonical u := by
  unfold locateEng at e
  grind [canonical_virtLocs]

theorem canonical_wakeScratch {s : State} {core off n : ℕ} {gs : List ℕ} (h : Canonical s) : Canonical (wakeScratch s core gs off n) :=
  foldl_keeps Canonical _ _ _ h (fun _ _ hu => (Memory.wf_wake _ _ _).trans hu)

@[simp] theorem canonical_copyDrop {s : State} {cl : ℕ} {c : CopyCmd} : Memory.wf (copyDrop s cl c) = Memory.wf s := rfl

theorem canonical_copyCredit {s : State} {cl : ℕ} {c : CopyCmd} {n bits : ℕ} (h : Canonical s) : Canonical (copyCredit s cl c n bits)
    := by
  unfold copyCredit
  grind [Memory.wf_setCluster, canonical_copyDrop, canonical_credit]

theorem canonical_copyStop {s : State} {cl bits : ℕ} {c : CopyCmd} (h : Canonical s) : Canonical (copyStop cl bits s c) := by
  unfold copyStop
  grind [canonical_credit, canonical_copyDrop]

theorem canonical_copyFault {s : State} {cl : ℕ} {c : CopyCmd} {tr : Trap} (h : Canonical s) : Canonical (copyFault s cl c tr) := by
  unfold copyFault
  grind [canonical_addFault, canonical_logStrand, canonical_noteTrap, canonical_copyStop]

theorem canonical_reduceApply {s : State} {t : Strand} {c : CopyCmd} {h : Shape} {row i e : ℕ} {l : Loc} {more : List Loc}
    {bad post : Bool} (hs : Canonical s) : Canonical (reduceApply s t c h row i e l more bad post) := by
  unfold reduceApply
  split
  · exact foldl_keeps Canonical _ _ _ (canonical_wakeLocs hs) (fun _ _ hu => Memory.wf_spoilHome _ _ _ hu)
  · split
    · exact hs
    · dsimp only
      split
      · exact canonical_countRound.trans (canonical_served (canonical_addLocs hs))
      · exact canonical_addLocs hs

theorem canonical_reduceRun {s : State} {c : CopyCmd} {h : Shape} {n row fuel i : ℕ} {bad : List Bool} {dst : List Loc}
    (hs : Canonical s) : Canonical (reduceRun c h n row bad dst fuel s i).1 := by
  induction fuel generalizing s i with
  | zero => exact hs
  | succ fuel ih =>
    unfold reduceRun
    dsimp only
    split
    · exact hs
    · split
      · exact hs
      · exact hs
      · exact ih (canonical_reduceApply hs)

theorem canonical_writeMarked {s : State} {ls : List Loc} {bs : List Byte} {bad : List Bool} (h : Canonical s) :
    Canonical (writeMarked s ls bs bad) := Memory.wf_poisonLocs _ (Memory.wf_writeLocs _ _ (canonical_wakeLocs h))

theorem canonical_copyPart {s : State} {cl : ℕ} {c : CopyCmd} {h : Shape} {r pos n : ℕ} {src : List Byte × List Bool}
    {dests : List (List Loc)} (hs : Canonical s) : Canonical (copyPart s cl c h r pos n src dests) := by
  unfold copyPart
  dsimp only
  split
  · split
    · exact canonical_diverges.trans (canonical_copyCredit (canonical_reduceRun hs))
    · exact canonical_copyCredit (canonical_reduceRun hs)
  · exact canonical_copyCredit (foldl_keeps Canonical _ _ _ hs (fun _ _ hu => canonical_writeMarked hu))

@[simp] theorem canonical_setCopy {s : State} {cl id : ℕ} {f : CopyCmd → CopyCmd} : Memory.wf (setCopy s cl id f) = Memory.wf s := rfl

theorem canonical_rowBytes {s u : State} {cl : ℕ} {c : CopyCmd} {t : Strand} {h : Shape} {r : ℕ} {b : List Byte × List Bool}
    (hs : Canonical s) (e : rowBytes s cl c t h r = .ok (b, u)) : Canonical u := by
  unfold rowBytes at e
  split at e
  · cases e; exact hs
  · split at e
    · cases e
    · next sl s1 hl => cases e; exact canonical_setCopy.trans (canonical_wakeLocs (canonical_locateEng hs hl))

theorem canonical_copyStep {s : State} {cl : ℕ} {c : CopyCmd} {bytes : ℕ} (h : Canonical s) : Canonical (copyStep s cl c bytes) := by
  unfold copyStep
  split
  · exact h
  · dsimp only
    split
    · exact h
    · split
      · exact canonical_copyFault h
      · next src s1 hr =>
        have hs1 := canonical_rowBytes h hr
        split
        · exact canonical_copyPart hs1
        · split
          · exact canonical_copyFault hs1
          · next dl s2 hl => exact canonical_copyPart (canonical_locateEng hs1 hl)

@[simp] theorem canonical_copyStart {s : State} {t : Strand} {i : Instr} {kind : ℕ} {rec : List Byte} {x5 : Shape} {bar : Word} :
    Memory.wf (copyStart s t i kind rec x5 bar) = Memory.wf s := rfl

theorem canonical_copyIssue {s : State} {t : Strand} {i : Instr} {kind : ℕ} {f : X96} (h : Canonical s) : Canonical
    (resState (copyIssue s t i kind f)) := by
  unfold copyIssue
  grind [resState, canonical_copyStart, canonical_loadAs]

/-! ### Link -/

@[simp] theorem canonical_putLink {s : State} {j : ℕ} {f : Link → Link} : Memory.wf (putLink s j f) = Memory.wf s := rfl

@[simp] theorem canonical_queueFlit {s : State} {j : ℕ} {f : Flit} : Memory.wf (queueFlit s j f) = Memory.wf s := rfl

@[simp] theorem canonical_sendFlit {s : State} {j : ℕ} {f : Flit} : Memory.wf (sendFlit s j f) = Memory.wf s := rfl

theorem canonical_sendFlits {s : State} {fs : List Flit} (h : Canonical s) : Canonical (sendFlits s fs) := by
  unfold sendFlits
  dsimp only
  split
  · exact h
  · exact foldl_keeps Canonical _ _ _ h (fun _ _ hu => canonical_sendFlit.trans hu)

theorem canonical_spread {s : State} {type : ℕ} {ps : List (BitVec 512)} (h : Canonical s) : Canonical (spread s type ps) := by
  unfold spread
  grind [canonical_sendFlits]

theorem canonical_sendParked {s : State} (h : Canonical s) : Canonical (sendParked s) := by
  unfold sendParked
  grind [canonical_with, canonical_sendFlits]

theorem canonical_tellMembers {s : State} {j : Job} {n : Config.MemberNews} (h : Canonical s) : Canonical (tellMembers s j n) := by
  unfold tellMembers
  grind [canonical_spread]

@[simp] theorem canonical_consume {s : State} {p : Flit → Bool} : Memory.wf (consume s p) = Memory.wf s := rfl

/-! ### Coll -/

theorem canonical_collChecked {s : State} {t : Strand} {i : Instr} {f : X96} {ptr bar : Word} {r : CollRec} (h : Canonical s) : Canonical
    (resState (collChecked s t i f ptr bar r)) := by
  unfold collChecked
  grind [resState, canonical_with, Memory.wf_setStrand]

theorem canonical_collTell {s : State} {c : Coll} {n : Config.CollNews} (h : Canonical s) : Canonical (collTell s c n) := by
  unfold collTell
  grind [canonical_spread]

theorem canonical_collEnd {s : State} {c : Coll} {result bits : ℕ} (h : Canonical s) : Canonical (collEnd s c result bits) := by
  have h1 : Canonical { consume s (flitFor c) with colls := s.colls.filter (fun x => x.id ≠ c.id) } :=
    (canonical_consume (s := s) (p := flitFor c)).trans h
  unfold collEnd
  dsimp only
  split
  · exact h1
  · exact canonical_credit (canonical_ite h1 (Memory.wf_writeLocs _ _ (canonical_wakeLocs h1)))

theorem canonical_collFailed {s : State} {c : Coll} {cause : CollCause} (h : Canonical s) : Canonical (collFailed s c cause) := by
  unfold collFailed
  grind [canonical_collEnd, canonical_logStrand]

theorem canonical_collFailAll {s : State} {c : Coll} {cause : CollCause} (h : Canonical s) : Canonical (collFailAll s c cause) := by
  unfold collFailAll
  grind [canonical_collTell, canonical_collFailed]

theorem canonical_stopColl {s : State} {fail : State → Coll → CollCause → State} {cause : CollCause} {c : Coll}
    (hfail : ∀ u, Canonical u → Canonical (fail u c cause)) (h : Canonical s) : Canonical (stopColl fail cause s c) := by
  unfold stopColl
  split
  · exact canonical_collEnd h
  · exact hfail _ h

theorem canonical_collFault {s : State} {c : Coll} {tr : Trap} (h : Canonical s) : Canonical (collFault s c tr) := by
  unfold collFault
  grind [canonical_addFault, canonical_collTell, canonical_logStrand, canonical_collEnd, canonical_noteTrap]

theorem canonical_collLocs {s u : State} {t : Strand} {p : Word} {n : ℕ} {acc : Access} {r : List Loc} (h : Canonical s)
    (e : collLocs s t p n acc = .ok (r, u)) : Canonical u := by
  unfold collLocs at e
  grind [canonical_locateEng]

theorem canonical_collSource {s u : State} {t : Strand} {c : Coll} {pos n : ℕ} {bs : List Byte} (h : Canonical s)
    (e : collSource s t c pos n = .ok (bs, u)) : Canonical u := by
  unfold collSource at e
  split at e
  · split at e
    · cases e
    · next ls s1 hl => cases e; exact canonical_wakeLocs (canonical_collLocs h hl)
  · cases e; exact h

theorem canonical_collSend {s : State} {c : Coll} {own : List Byte} (h : Canonical s) : Canonical (collSend s c own) := by
  unfold collSend
  grind [canonical_with, canonical_spread, canonical_collTell]

theorem canonical_collRun {s : State} {t : Strand} {c : Coll} {own : List Byte} (h : Canonical s) : Canonical (collRun s t c own) := by
  unfold collRun
  dsimp only
  split
  · split
    · exact canonical_collFault h
    · next ls s1 hl =>
      have hdone (bs : List Byte) (bad : List Loc) : Canonical (poisonLocs (writeLocs (wakeLocs s1 ls) ls bs) bad) :=
        Memory.wf_poisonLocs _ (Memory.wf_writeLocs _ _ (canonical_wakeLocs (canonical_collLocs h hl)))
      split
      · exact canonical_spread (hdone _ _)
      · exact hdone _ _
  · exact h

/-! ### Message -/

theorem canonical_deliver {s : State} {t r : Strand} {multi : Bool} {payload : Word} (h : Canonical s) : Canonical
    (deliver s t r multi payload) := by
  unfold deliver
  grind [Memory.wf_setStrand, Memory.wf_wakeLoc, Memory.wf_writeHome, Memory.wf_release]

theorem canonical_sendServed {s : State} {t r : Strand} {multi : Bool} {g : ℕ} (h : Canonical s) : Canonical (sendServed s t r multi g)
    := by
  unfold sendServed
  grind [canonical_served, canonical_countRound]

theorem canonical_trySend {s : State} {t : Strand} {multi : Bool} {g : ℕ} {payload parcel : Word} (h : Canonical s) :
    Canonical (resState (trySend s t multi g payload parcel)) := by
  unfold trySend
  dsimp only
  split
  · exact h
  · exact h
  · next r hr =>
    have hgo : Canonical (resState (match sendGate s t multi g with
        | .hold => .wait s (.send multi g payload parcel)
        | .diverge j => .ok (diverges s t.key j) .stay
        | .go => .ok (deliver (sendServed s t r multi g) t r multi payload) .seq)) := by
      split
      · exact h
      · exact canonical_diverges.trans h
      · exact canonical_deliver (canonical_sendServed h)
    exact canonical_resIte h (canonical_resIte h (canonical_resIte h (canonical_resIte h (canonical_resIte h hgo))))

theorem canonical_tryRecv {s : State} {t : Strand} {rd : BitVec 5} (h : Canonical s) : Canonical (resState (tryRecv s t rd)) := by
  unfold tryRecv
  split
  · exact h
  · exact (Memory.wf_acquire s t.core).trans h

end Sys2Proof.Proofs
end

section
/-! PROOFS. What keeps storage in its canonical form: pools, supersteps, the matrix unit, the transform unit and claims. -/

namespace Sys2Proof.Proofs

open Machine Oblig

/-! ### Pool -/

theorem canonical_grantUnits {s : State} {k : StrandKey} {cls a : ℕ} (h : Canonical s) : Canonical (grantUnits s k cls a) := by
  unfold grantUnits
  dsimp only
  split
  · exact (Memory.wf_setStrand _ _ _).trans (foldl_keeps Canonical _ _ _ h (fun _ _ hu => (Memory.wf_wake _ _ _).trans hu))
  · exact (Memory.wf_setStrand _ _ _).trans
      (foldl_keeps Canonical _ _ _ h (fun _ _ hu => (Memory.wf_wake _ _ _).trans (Memory.wf_zeroGranule _ _ hu)))
  · exact h
  · exact h

@[simp] theorem canonical_powerDown {s : State} {core : ℕ} {p : PowerUnit → Bool} : Memory.wf (powerDown s core p) = Memory.wf s := rfl

@[simp] theorem canonical_capHeir {s : State} {k : StrandKey} {n : ℕ} : Memory.wf (capHeir s k n) = Memory.wf s := rfl

@[simp] theorem canonical_releaseUnits {s : State} {k : StrandKey} {cls a : ℕ} : Memory.wf (releaseUnits s k cls a) = Memory.wf s := by
  unfold releaseUnits
  split <;> rfl

theorem canonical_finishBlocked {s : State} {k : StrandKey} {f : State → State} (hf : ∀ u, Canonical u → Canonical (f u)) (h : Canonical s) :
    Canonical (finishBlocked s k f) := by
  unfold finishBlocked
  split
  · exact h
  · split
    · exact h
    · exact canonical_complete.trans (hf _ h)

theorem canonical_grantRequest {s : State} {cluster : ℕ} {q : ClaimReq} (h : Canonical s) : Canonical (grantRequest s cluster q) := by
  have hs : Canonical (setCluster s cluster (fun c => { c with claimq := c.claimq.erase q, stalled := false })) := h
  exact canonical_finishBlocked (fun _ hu => canonical_xSet hu) (canonical_grantUnits hs)

theorem canonical_servePass {s : State} {cluster : ℕ} (h : Canonical s) : Canonical (servePass cluster s).1 := by
  unfold servePass
  refine foldl_keeps (fun acc : State × Bool => Canonical acc.1) _ _ _ h (fun acc p hacc => ?_)
  refine foldl_keeps (fun acc : State × Bool => Canonical acc.1) _ _ _ hacc (fun acc q hacc => ?_)
  split
  · exact canonical_grantRequest hacc
  · exact hacc

theorem canonical_serveLoop {s : State} {cluster fuel : ℕ} (h : Canonical s) : Canonical (serveLoop cluster fuel s) := by
  induction fuel generalizing s with
  | zero => exact h
  | succ fuel ih =>
    unfold serveLoop
    dsimp only
    split
    · exact ih (canonical_servePass h)
    · exact canonical_servePass h

theorem canonical_serveClaims {s : State} {cluster : ℕ} (h : Canonical s) : Canonical (serveClaims s cluster) := by
  unfold serveClaims
  grind [canonical_serveLoop]

/-! ### Superstep -/

theorem canonical_arrive {s : State} {t : Strand} (h : Canonical s) : Canonical (arrive s t) := by
  unfold arrive
  grind [canonical_with, Memory.wf_release, Memory.wf_setStrand]

theorem canonical_stepStart {s : State} {t : Strand} (h : Canonical s) : Canonical (resState (stepStart s t)) :=
  canonical_resIte (canonical_arrive h) h

theorem canonical_putChecked {s : State} {t : Strand} {i : Instr} {f : X96} {add : Bool} {mode : ℕ} (h : Canonical s) :
    Canonical (resState (putChecked s t i f add mode)) := by
  unfold putChecked
  dsimp only
  refine canonical_resIte h (canonical_resIte h (canonical_resIte h (canonical_resIte h ?_)))
  split
  · exact h
  · split
    · exact h
    · exact canonical_resIte h (canonical_resIte h h)

theorem canonical_putIssue {s : State} {t : Strand} {i : Instr} {f : X96} {add : Bool} (h : Canonical s) : Canonical
    (resState (putIssue s t i f add)) := by
  unfold putIssue
  grind [resState, canonical_putChecked]

theorem canonical_deliveryFault {s : State} {run : ℕ} {p : Posting} (h : Canonical s) : Canonical (deliveryFault run s p) := by
  unfold deliveryFault
  grind [canonical_logStrand, Memory.wf_setStrand]

theorem canonical_foldl_wakeLoc {s : State} {ls : List Loc} (h : Canonical s) : Canonical (ls.foldl wakeLoc s) :=
  foldl_keeps Canonical _ _ _ h (fun _ _ hu => (Memory.wf_wakeLoc _ _).trans hu)

theorem canonical_deliverBytes {s : State} {ls : List Loc} {bs : List Byte} {bad : List Bool} (h : Canonical s) :
    Canonical (deliverBytes s ls bs bad) := Memory.wf_poisonLocs _ (Memory.wf_writeLocs _ _ (canonical_foldl_wakeLoc h))

theorem canonical_deliverAdd {s : State} {p : Posting} {ls : List Loc} {bs : List Byte} {bad : List Bool} (h : Canonical s) :
    Canonical (deliverAdd p ls bs bad s) := by
  refine foldl_keeps Canonical _ _ _ h (fun u i hu => ?_)
  split
  · exact hu
  · exact canonical_ite (Memory.wf_spoilHome _ _ _ ((Memory.wf_wakeLoc _ _).trans hu)) (canonical_addAt hu)

theorem canonical_deliverOne {s : State} {run : ℕ} {x2 : Posting × List Byte × List Bool} (h : Canonical s) : Canonical
    (deliverOne run s x2) := by
  unfold deliverOne
  grind [canonical_deliverBytes, canonical_deliverAdd]

theorem canonical_deliverArrivals {s : State} {run fuel : ℕ} {l : List (Posting × List Byte × List Bool)} (h : Canonical s) :
    Canonical (deliverArrivals run fuel s l).1 := by
  induction fuel generalizing s l with
  | zero => exact h
  | succ fuel ih =>
    unfold deliverArrivals
    dsimp only
    split
    · exact h
    · exact ih (canonical_ite (canonical_served (canonical_deliverOne h)) (canonical_deliverOne h))

theorem canonical_freePostHolds {s : State} {p : PostHold → Bool} (h : Canonical s) : Canonical (freePostHolds s p) :=
  foldl_keeps Canonical _ _ _ (foldl_keeps Canonical _ _ _ h (fun _ _ hu => canonical_powerDown.trans hu))
    (fun _ _ hu => canonical_serveClaims hu)

theorem canonical_dropPostHolds {s : State} {run : ℕ} (h : Canonical s) : Canonical (dropPostHolds s run) := by
  unfold dropPostHolds
  grind [canonical_freePostHolds]

theorem canonical_landStrand {s : State} {t : Strand} (h : Canonical s) : Canonical (landStrand s t) := by
  unfold landStrand
  grind [Memory.wf_acquire, Memory.wf_setStrand, canonical_finishBlocked]

theorem canonical_crossRun {s : State} {run : ℕ} (h : Canonical s) : Canonical (crossRun s run) := by
  have hwake : Canonical (((runOf s run).postings.filter (deliverable s run)).foldl (fun s p => (postingLocs s run p).foldl wakeLoc s) s) :=
    foldl_keeps Canonical _ _ _ h (fun _ _ hu => canonical_foldl_wakeLoc hu)
  have hfault := foldl_keeps Canonical ((runOf s run).postings.filter (fun p => !deliverable s run p)) _ (deliveryFault run) hwake
    (fun _ _ hu => canonical_deliveryFault hu)
  have hkeyed := fun l => foldl_keeps Canonical l _ (deliverOne run) hfault (fun _ _ hu => canonical_deliverOne hu)
  have hloose := fun l n l' => canonical_deliverArrivals (run := run) (fuel := n) (l := l') (hkeyed l)
  unfold crossRun
  dsimp only
  split
  · exact canonical_diverges.trans (hloose _ _ _)
  · refine canonical_dropPostHolds (foldl_keeps Canonical _ _ _ ?_ (fun _ _ hu => canonical_landStrand hu))
    exact (Memory.wf_setRun _ _ _).trans (foldl_keeps Canonical _ _ _ (hloose _ _ _) (fun _ _ hu => canonical_applyPost hu))

@[simp] theorem canonical_restartWait {s : State} {k : StrandKey} : Memory.wf (restartWait s k) = Memory.wf s := rfl

theorem canonical_probe {s : State} {t : Strand} (h : Canonical s) : Canonical (probe s t) := by
  unfold probe
  dsimp only
  split
  · exact canonical_takeTrap (foldl_keeps Canonical _ _ _ h (fun _ _ hu => canonical_restartWait.trans hu))
  · exact canonical_restartWait.trans h

/-! ### Matrix -/

@[simp] theorem canonical_setSlot {s : State} {cl p : ℕ} {f : SlotSt → SlotSt} : Memory.wf (setSlot s cl p f) = Memory.wf s := rfl

@[simp] theorem canonical_setQueue {s : State} {core : ℕ} {f : List MatrixCmd → List MatrixCmd} : Memory.wf (setQueue s core f) =
    Memory.wf s := rfl

@[simp] theorem canonical_arbTake {s : State} {cl : ℕ} : Memory.wf (arbTake s cl) = Memory.wf s := by
  unfold arbTake
  split <;> rfl

@[simp] theorem canonical_dequeue {s : State} {c : MatrixCmd} : Memory.wf (dequeue s c) = Memory.wf s := rfl

@[simp] theorem canonical_requeue {s : State} {c : MatrixCmd} : Memory.wf (requeue s c) = Memory.wf s := rfl

theorem canonical_enqueue {s : State} {t : Strand} {slot : Option ℕ} {m : ℕ} {op : MatrixOp} (h : Canonical s) : Canonical
    (enqueue s t slot m op).1 := by
  unfold enqueue
  grind [canonical_with, Memory.wf_setStrand, canonical_setSlot, canonical_setQueue]

theorem canonical_unitEvent {s : State} {cl kind cause : ℕ} {k : StrandKey} {addr : ℕ} (h : Canonical s) : Canonical
    (unitEvent s cl kind cause k addr) := by
  unfold unitEvent
  grind [canonical_logStrand]

@[simp] theorem canonical_poisonSlot {s : State} {cl p : ℕ} : Memory.wf (poisonSlot s cl p) = Memory.wf s := rfl

theorem canonical_unitError {s : State} {cl cause : ℕ} {k : StrandKey} {addr : ℕ} (h : Canonical s) : Canonical
    (unitError s cl cause k addr) := by
  unfold unitError
  grind [Memory.wf_setCluster, canonical_unitEvent]

theorem canonical_matrixFault {s : State} {cl : ℕ} {c : MatrixCmd} {cause : ℕ} {tval : Word} {addr : ℕ} (h : Canonical s) : Canonical
    (matrixFault s cl c cause tval addr) := by
  unfold matrixFault
  grind [canonical_unitError, canonical_addFault, canonical_poisonSlot, canonical_dequeue]

@[simp] theorem canonical_stepCommit {s : State} {cl : ℕ} {c : MatrixCmd} {op : MmaOp} {p : ℕ} {sl : SlotSt} : Memory.wf
    (stepCommit s cl c op p sl) = Memory.wf s := by
  unfold stepCommit
  split <;> rfl

theorem canonical_wakeOperands {s : State} {c : MatrixCmd} {op : MmaOp} (h : Canonical s) : Canonical (wakeOperands s c op) := by
  have hrows := fun l : List ℕ => foldl_keeps Canonical l s
    (fun s r => wakeScratch s c.core c.granules (op.a + r * op.stride + 4 * op.step * mxBytes op.fa)
    (min 4 (op.k / 32 - 4 * op.step) * mxBytes op.fa)) h (fun _ _ hu => canonical_wakeScratch hu)
  exact canonical_ite (hrows _) (canonical_wakeScratch (hrows _))

theorem canonical_stepProducts {s0 : State} {cl : ℕ} {c : MatrixCmd} {op : MmaOp} {p bad : ℕ} (h_s0 : Canonical s0) : Canonical
    (stepProducts s0 cl c op p bad) := by
  unfold stepProducts
  grind [canonical_stepCommit, canonical_unitEvent, canonical_matrixFault, canonical_wakeOperands]

theorem canonical_tileStep {s : State} {cl : ℕ} {c : MatrixCmd} {op : MmaOp} {p bad : ℕ} (h : Canonical s) : Canonical
    (tileStep s cl c op p bad) := by
  unfold tileStep
  grind [canonical_stepProducts, canonical_matrixFault, canonical_dequeue]

theorem canonical_drainWrite {s : State} {seed : Word} {sl : SlotSt} {core : ℕ} {gs : List ℕ} {op : DrainOp} (h : Canonical s) :
    Canonical (drainWrite s seed sl core gs op).1 :=
  foldl_keeps (fun acc : State × ℕ => Canonical acc.1) _ _ _ h (fun _ _ hacc => Memory.wf_writeLocs _ _ (canonical_wakeLocs hacc))

theorem canonical_drainRun {s : State} {cl : ℕ} {c : MatrixCmd} {op : DrainOp} {p : ℕ} (h : Canonical s) : Canonical
    (drainRun s cl c op p) := by
  unfold drainRun
  grind [canonical_setSlot, Memory.wf_setStrand, canonical_drainWrite, canonical_dequeue, canonical_matrixFault]

theorem canonical_loadTable {s : State} {cl : ℕ} {c : MatrixCmd} {tab fmt ptr : ℕ} (h : Canonical s) : Canonical
    (loadTable s cl c tab fmt ptr) := by
  unfold loadTable
  grind [canonical_dequeue, canonical_matrixFault, Memory.wf_setCluster]

theorem canonical_matrixIssue {s : State} {t : Strand} {f : X96} {queued : Bool} {r : Res} (h : Canonical s) (hr : Canonical (resState r)) :
    Canonical (resState (matrixIssue s t f queued r)) := canonical_resIte h (canonical_resIte h hr)

theorem canonical_readList {s u : State} {t : Strand} {ptr : Word} {r : List ℕ} (h : Canonical s) (e : readList s t ptr = .ok (r, u)) :
    Canonical u := by
  unfold readList at e
  grind [canonical_loadAs]

theorem canonical_mmaRows {s u : State} {t : Strand} {i : Instr} {f : X96} {gather : Bool} {nr : ℕ} {r : Option (List ℕ)}
    (h : Canonical s) (e : mmaRows s t i f gather nr = .ok (r, u)) : Canonical u := by
  unfold mmaRows at e
  grind [canonical_readList]

theorem canonical_mmaIssue {s : State} {t : Strand} {i : Instr} {f : X96} {gather : Bool} (h : Canonical s) :
    Canonical (resState (mmaIssue s t i f gather)) := by
  unfold mmaIssue
  split
  · exact h
  · split
    · exact h
    · dsimp only
      split
      · exact h
      · split
        · exact h
        · split
          · exact h
          · next l s1 hl => exact canonical_enqueue (canonical_mmaRows h hl)

theorem canonical_drainNumbers {s u : State} {t : Strand} {f : X96} {row0 n : ℕ} {listed : Bool} {r : List (ℕ × ℕ)} (h : Canonical s)
    (e : drainNumbers s t f row0 n listed = .ok (r, u)) : Canonical u := by
  unfold drainNumbers at e
  grind [canonical_readList]

theorem canonical_drainOp {s u : State} {t : Strand} {i : Instr} {f : X96} {mode : ℕ} {listed : Bool} {r : ℕ} {r2 : DrainOp}
    (h : Canonical s) (e : drainOp s t i f mode listed = .ok (r, r2, u)) : Canonical u := by
  unfold drainOp at e
  grind [canonical_drainNumbers]

theorem canonical_drainIssue {s : State} {t : Strand} {i : Instr} {f : X96} {listed : Bool} (h : Canonical s) : Canonical
    (resState (drainIssue s t i f listed)) := by
  unfold drainIssue
  grind [resState, canonical_enqueue, canonical_drainOp, canonical_matrixIssue]

theorem canonical_waitPeek {s : State} {t : Strand} {m : ℕ} {rd : BitVec 5} {op : DrainOp} (h : Canonical s) : Canonical
    (resState (waitPeek s t m rd op)) := by
  unfold waitPeek
  grind [resState, Memory.wf_setStrand, canonical_drainWrite, canonical_reportFault]

theorem canonical_waitDrain {s : State} {t : Strand} {id : ℕ} {slot : Option ℕ} (h : Canonical s) : Canonical
    (resState (waitDrain s t id slot)) := by
  unfold waitDrain
  grind [resState, canonical_reportFault]

theorem canonical_waitMatrix {s : State} {t : Strand} {slot : Option ℕ} (h : Canonical s) : Canonical (resState (waitMatrix s t slot))
    := by
  unfold waitMatrix
  grind [resState, canonical_reportFault]

/-! ### Xform -/

theorem canonical_setBlockState {s : State} {t : Strand} {ptr : Word} {v : ℕ} (h : Canonical s) : Canonical (setBlockState s t ptr v)
    := by
  unfold setBlockState
  grind [canonical_wakeLocs, Memory.wf_writeLocs]

theorem canonical_xBlockRead {s u : State} {t : Strand} {ptr : Word} (h : Canonical s) (e : xBlockRead s t ptr = .ok u) : Canonical u
    := by
  unfold xBlockRead at e
  grind [canonical_loadAs]

theorem canonical_waitXform {s : State} {t : Strand} {rd : BitVec 5} {ptr : Word} (h : Canonical s) : Canonical
    (resState (waitXform s t rd ptr)) := by
  unfold waitXform
  grind [resState, Memory.wf_acquire, Memory.wf_setStrand, canonical_xBlockRead]

theorem canonical_xRead {s u : State} {t : Strand} {ea : Word} {n : ℕ} {r : List Byte} (h : Canonical s) (e : xRead s t ea n = .ok (r, u))
    : Canonical u := by
  unfold xRead at e
  grind [canonical_wakeLocs, canonical_locateEng]

theorem canonical_xWrite {s u : State} {t : Strand} {ea : Word} {bs : List Byte} (h : Canonical s) (e : xWrite s t ea bs = .ok u) :
    Canonical u := by
  unfold xWrite at e
  grind [canonical_wakeLocs, Memory.wf_writeLocs, canonical_locateEng]

theorem canonical_xThen {s : State} {t : Strand} {ea : Word} {n : ℕ} {f : List Byte → State → XRes} (h : Canonical s)
    (hf : ∀ bs u, Canonical u → Canonical (f bs u).1) : Canonical (xThen s t ea n f).1 := by
  unfold xThen
  split
  · exact h
  · next bs s1 hr => exact hf _ _ (canonical_xRead h hr)

theorem canonical_xPut {s : State} {t : Strand} {ea : Word} {bs : List Byte} {f : State → XRes} (h : Canonical s)
    (hf : ∀ u, Canonical u → Canonical (f u).1) : Canonical (xPut s t ea bs f).1 := by
  unfold xPut
  split
  · exact h
  · next s1 hw => exact hf _ (canonical_xWrite h hw)

theorem canonical_xEncode {s : State} {t : Strand} {b : XBlock} {freq : List ℕ} {i pos : ℕ} (h : Canonical s) :
    Canonical (xEncode t b freq i pos s).1 := by
  unfold xEncode
  dsimp only
  split
  · exact h
  · refine canonical_xThen h (fun bs u hu => ?_)
    split
    · exact hu
    · split
      · exact hu
      · exact canonical_xPut hu (fun _ hv => canonical_xPut hv (fun _ hw => hw))

theorem canonical_xRows {s u : State} {t : Strand} {b : XBlock} {fuel i : ℕ} {r : List (List Byte)} (h : Canonical s)
    (e : xRows t b fuel i s = .ok (r, u)) : Canonical u := by
  induction fuel generalizing s i r with
  | zero => cases e; exact h
  | succ fuel ih =>
    unfold xRows at e
    split at e
    · cases e
    · next bs s1 hr =>
      split at e
      · cases e
      · next r' s2 hrows => cases e; exact ih (canonical_xRead h hr) hrows

theorem canonical_xCols {s : State} {t : Strand} {b : XBlock} {off fuel k : ℕ} {rows : List (List Byte)} (h : Canonical s) :
    Canonical (xCols t b off rows fuel k s).1 := by
  induction fuel generalizing s k with
  | zero => exact h
  | succ fuel ih => exact canonical_xPut h (fun _ hu => ih hu)

theorem canonical_xTranspose {s : State} {t : Strand} {b : XBlock} {i : ℕ} (h : Canonical s) : Canonical (xTranspose t b i s).1 := by
  unfold xTranspose
  split
  · exact h
  · next rows s1 hr => exact canonical_xCols (canonical_xRows h hr)

theorem canonical_xRepack {s : State} {t : Strand} {b : XBlock} {i : ℕ} (h : Canonical s) : Canonical (xRepack t b i s).1 := by
  unfold xRepack
  dsimp only
  split
  · exact canonical_xThen h (fun _ _ hu => canonical_xPut hu (fun _ hv => canonical_xPut hv (fun _ hw => hw)))
  · exact canonical_xThen h (fun _ _ hu => canonical_xThen hu (fun _ _ hv => canonical_xPut hv (fun _ hw => hw)))

theorem canonical_xVerify {s : State} {t : Strand} {b : XBlock} {freq : List ℕ} {i q : ℕ} (h : Canonical s) :
    Canonical (xVerify t b freq i q s).1 := by
  have fault {u : State} (dst : Word) (bs : List Byte) (fail : XFail) (hu : Canonical u) : Canonical (match xWrite u t dst bs with
      | .error e => ((u, .error (.error e)) : XRes)
      | .ok s1 => (s1, .error fail)).1 := by
    split
    · exact hu
    · next s1 hw => exact canonical_xWrite hu hw
  unfold xVerify
  refine canonical_xThen h (fun e u hu => ?_)
  split
  · exact fault _ _ _ hu
  · refine canonical_xThen hu (fun bs v hv => ?_)
    split
    · exact fault _ _ _ hv
    · exact canonical_xPut hv (fun _ hw => hw)

theorem canonical_xPiece {s : State} {t : Strand} {b : XBlock} {i pos : ℕ} (h : Canonical s) : Canonical (xPiece t b i pos s).1 := by
  unfold xPiece
  dsimp only
  split
  · split
    · exact canonical_xThen h (fun _ _ hu => canonical_xEncode hu)
    · exact h
  · refine canonical_xThen h (fun bs u hu => ?_)
    split
    · exact hu
    · exact canonical_xPut hu (fun _ hv => hv)
  · exact canonical_xTranspose h
  · exact canonical_xRepack h
  · exact canonical_xThen h (fun _ _ hu => canonical_xVerify hu)

@[simp] theorem canonical_setXform {s : State} {cl : ℕ} {q : XformReq} {f : XformReq → XformReq} : Memory.wf (setXform s cl q f) =
    Memory.wf s := rfl

theorem canonical_xAdvance {s : State} {cl : ℕ} {q : XformReq} (h : Canonical s) : Canonical (xAdvance s cl q).1 := by
  unfold xAdvance
  grind [canonical_setXform, canonical_credit, canonical_xPiece]

theorem canonical_xRest {s : State} {cl fuel : ℕ} {q : XformReq} (h : Canonical s) : Canonical (xRest cl fuel q s).1 := by
  induction fuel generalizing s q with
  | zero => exact h
  | succ fuel ih =>
    have hx := canonical_xAdvance (cl := cl) (q := q) h
    unfold xRest
    split
    · next s1 e heq => rwa [heq] at hx
    · next s1 q1 heq => rw [heq] at hx; exact ih hx

theorem canonical_xFinish {s : State} {cl : ℕ} {q : XformReq} {final bits : ℕ} (h : Canonical s) : Canonical (xFinish s cl q final bits)
    := by
  unfold xFinish
  grind [canonical_credit, canonical_setBlockState, canonical_serveClaims, Memory.wf_setCluster]

theorem canonical_xLog {s : State} {cl : ℕ} {k : StrandKey} {f : XFail} (h : Canonical s) : Canonical (xLog s cl k f) := by
  unfold xLog
  grind [canonical_noteTrap, canonical_logStrand]

theorem canonical_xFailed {s : State} {cl : ℕ} {q : XformReq} {f : XFail} (h : Canonical s) : Canonical (xFailed s cl q f) := by
  unfold xFailed
  grind [Memory.wf_setStrand, canonical_xLog, canonical_xFinish]

theorem canonical_xComplete {s : State} {cl : ℕ} {q : XformReq} (h : Canonical s) : Canonical (xComplete s cl q) := by
  unfold xComplete
  grind [canonical_xFailed, canonical_xFinish, canonical_xRest]

theorem canonical_xOnePiece {s : State} {cl : ℕ} (h : Canonical s) : Canonical (xOnePiece s cl) := by
  unfold xOnePiece
  grind [canonical_xFailed, canonical_xAdvance]

theorem canonical_xCancel {s : State} {cl : ℕ} {q : XformReq} (h : Canonical s) : Canonical (xCancel cl s q) := by
  unfold xCancel
  grind [canonical_xFinish]

/-! ### Claim -/

@[simp] theorem canonical_joinQueue {s : State} {t : Strand} {cls a : ℕ} : Memory.wf (joinQueue s t cls a) = Memory.wf s := rfl

theorem canonical_tryRel {s : State} {t : Strand} {rd : BitVec 5} {cls a : ℕ} (h : Canonical s) : Canonical
    (resState (tryRel s t rd cls a)) := by
  unfold tryRel
  grind [resState, canonical_serveClaims, canonical_releaseUnits, canonical_xSet]

theorem canonical_recordWait {s : State} {k : StrandKey} (h : Canonical s) : Canonical (recordWait s k) := by
  unfold recordWait
  grind [canonical_logStrand, Memory.wf_setCluster]

end Sys2Proof.Proofs
end

section
/-! PROOFS. What keeps storage in its canonical form: the life of strands, saves, and the binding and resuming of crews. -/

namespace Sys2Proof.Proofs

open Machine Oblig

/-! ### Life -/

theorem canonical_stopCommands {s : State} {t : Strand} (h : Canonical s) : Canonical (stopCommands s t) := by
  have hcopies := foldl_keeps Canonical (copiesOf s t) (dropClaim s t) (copyStop (clusterOfStrand t) stCancelled)
    (canonical_dropClaim.trans h) (fun _ _ hu => canonical_copyStop hu)
  exact foldl_keeps Canonical _ _ _
    (canonical_setQueue.trans (foldl_keeps Canonical _ _ _ hcopies (fun _ _ hu => canonical_xCancel hu)))
    (fun _ _ hu => canonical_stopColl (fun _ hv => canonical_collFailAll hv) hu)

theorem canonical_reportEnded {s : State} {t : Strand} (h : Canonical s) : Canonical (reportEnded s t) :=
  foldl_keeps Canonical _ _ _ (foldl_keeps Canonical _ _ _ h (fun _ _ hu => canonical_logStrand hu)) (fun _ _ hu => canonical_logStrand hu)

@[simp] theorem canonical_keepPosted {s : State} {k : StrandKey} {core : ℕ} {stay : Tab ℕ} : Memory.wf (keepPosted s k core stay) =
    Memory.wf s := by
  unfold keepPosted
  split <;> rfl

@[simp] theorem canonical_forgetMaster {s : State} {k : StrandKey} : Memory.wf (forgetMaster s k) = Memory.wf s := rfl

@[simp] theorem canonical_endMastership {s : State} {t : Strand} : Memory.wf (endMastership s t) = Memory.wf s := rfl

@[simp] theorem canonical_clearSlotBits {s : State} {t : Strand} : Memory.wf (clearSlotBits s t) = Memory.wf s := rfl

@[simp] theorem canonical_dropEscalated {s : State} {t : Strand} : Memory.wf (dropEscalated s t) = Memory.wf s := rfl

theorem canonical_freeEntries {s : State} {run : ℕ} {p : ℕ → ℕ → BindEntry → Bool} (h : Canonical s) : Canonical (freeEntries s run p) :=
  forUpTo_keeps Canonical _ _ _ h (fun _ _ hu => (Memory.wf_setDie _ _ _).trans hu)

theorem canonical_freeDone {s : State} {run : ℕ} (h : Canonical s) : Canonical (freeDone s run) := by
  unfold freeDone
  grind [canonical_freeEntries]

theorem canonical_crewDone {s : State} {k : StrandKey} (h : Canonical s) : Canonical (crewDone s k) := by
  unfold crewDone
  grind [canonical_with, Memory.wf_setRun, Memory.wf_setCrew, Memory.wf_setCluster]

@[simp] theorem canonical_crossingDue {s : State} {run : ℕ} : Memory.wf (crossingDue s run) = Memory.wf s := by
  unfold crossingDue
  split <;> rfl

theorem canonical_surrenderCrew {s : State} {k : StrandKey} (h : Canonical s) : Canonical (surrenderCrew s k) := by
  unfold surrenderCrew
  grind [Memory.wf_setCrew, Memory.wf_setCluster]

theorem canonical_leftSlot {s : State} {t : Strand} (h : Canonical s) : Canonical (leftSlot s t) := by
  unfold leftSlot
  grind [canonical_crewDone, canonical_surrenderCrew, canonical_freeDone, canonical_serveClaims, canonical_crossingDue]

theorem canonical_endStrand {s : State} {k : StrandKey} {keep : Bool} (h : Canonical s) : Canonical (endStrand s k keep) := by
  unfold endStrand
  grind [canonical_keepPosted, canonical_leftSlot, Memory.wf_setStrand, canonical_powerDown, canonical_reportEnded, canonical_dropClaim,
    canonical_dropEscalated, canonical_endMastership, canonical_clearSlotBits]

theorem canonical_retainStrand {s : State} {t : Strand} {tag : Word} (h : Canonical s) : Canonical (retainStrand s t tag) := by
  have hended : Canonical (clearSlotBits (dropEscalated (reportEnded s t) t) t) := canonical_reportEnded h
  exact canonical_leftSlot (forUpTo_keeps Canonical _ _ _
    ((Memory.wf_setCore _ _ _).trans (canonical_ite ((Memory.wf_setCrew _ _ _ _).trans hended) hended))
    (fun _ _ hu => canonical_renameUnit.trans hu))

theorem canonical_dropRetained {s : State} {x1 : Retained} (h : Canonical s) : Canonical (dropRetained s x1) := by
  unfold dropRetained
  grind [canonical_with, canonical_keepPosted, Memory.wf_setStrand, canonical_serveClaims, canonical_powerDown, canonical_endMastership,
    Memory.wf_setCluster]

theorem canonical_tryHalt {s : State} {t : Strand} {tag : Word} {retain : Bool} {parcel : Word} (h : Canonical s) : Canonical
    (resState (tryHalt s t tag retain parcel)) := by
  unfold tryHalt
  grind [resState, canonical_endStrand, canonical_retainStrand, Memory.wf_release]

@[simp] theorem canonical_cancelStrand {s : State} {t : Strand} : Memory.wf (cancelStrand s t) = Memory.wf s := by
  unfold cancelStrand
  split <;> rfl

theorem canonical_discardPosts {s : State} {run : ℕ} {p : ℕ → Bool} (h : Canonical s) : Canonical (discardPosts s run p) := by
  unfold discardPosts
  grind [canonical_freePostHolds, Memory.wf_setRun]

theorem canonical_cancelCrew {s : State} {run crew : ℕ} (h : Canonical s) : Canonical (cancelCrew s run crew) :=
  foldl_keeps Canonical _ _ _ (canonical_discardPosts h) (fun _ _ hu => canonical_cancelStrand.trans hu)

theorem canonical_endRun {s : State} {run status src : ℕ} (h : Canonical s) : Canonical (endRun s run status src) := by
  have hnamed : Canonical (freeEntries (nameRun s run) run (fun _ _ _ => true)) := canonical_freeEntries (canonical_nameRun.trans h)
  exact canonical_ite h (foldl_keeps Canonical _ _ _ (canonical_discardPosts ((Memory.wf_setRun _ _ _).trans hnamed))
    (fun _ _ hu => canonical_cancelStrand.trans hu))

theorem canonical_cancelGraph {s : State} {g src : ℕ} (h : Canonical s) : Canonical (cancelGraph s g src) :=
  foldl_keeps Canonical _ _ _ h (fun _ _ hu => canonical_endRun hu)

theorem canonical_cancelScope {s : State} {t : Strand} {scope : ℕ} (h : Canonical s) : Canonical (cancelScope s t scope) := by
  unfold cancelScope
  grind [canonical_endRun, canonical_cancelGraph, canonical_cancelCrew]

theorem canonical_endCancelled {s : State} {t : Strand} (h : Canonical s) : Canonical (endCancelled s t) := by
  unfold endCancelled
  grind [canonical_discardPosts, canonical_stopCommands, canonical_endStrand]

theorem canonical_cancelNow {s : State} {t : Strand} (h : Canonical s) : Canonical (cancelNow s t) := by
  unfold cancelNow
  grind [canonical_endCancelled, canonical_dropRetained]

@[simp] theorem canonical_thaw {s : State} {t : Strand} : Memory.wf (thaw s t) = Memory.wf s := rfl

theorem canonical_kill {s : State} {t : Strand} (h : Canonical s) : Canonical (kill s t) := by
  unfold kill
  grind [canonical_stopCommands, canonical_endStrand, canonical_endCancelled]

theorem canonical_escalate {s : State} {core : ℕ} {p : Packet} (h : Canonical s) : Canonical (escalate s core p) := by
  unfold escalate
  grind [canonical_logStrand, canonical_raiseVector, Memory.wf_setStrand, Memory.wf_setDie]

@[simp] theorem canonical_disposePacket {s : State} {core : ℕ} {k : StrandKey} : Memory.wf (disposePacket s core k) = Memory.wf s := rfl

theorem canonical_dispose {s : State} {i : Instr} {rs1 : BitVec 5} {f : State → ℕ → Strand → State} (h : Canonical s)
    (hf : ∀ u c t, Canonical u → Canonical (f u c t)) : CanonicalAnswer (dispose i rs1 s f) := by
  refine canonical_runHandler h (fun c => ?_)
  split
  · exact h
  · exact canonical_resIte (hf _ _ _ (canonical_disposePacket.trans h)) h

@[simp] theorem canonical_nextPacket {s : State} {core : ℕ} : Memory.wf (nextPacket s core) = Memory.wf s := rfl

theorem canonical_waitRes {s : State} {t : Strand} {w : Wait} (h : Canonical s) : Canonical (resState (waitRes s t w)) := by
  unfold waitRes
  grind [resState, canonical_doAtomic, canonical_fencexEffect, canonical_tryHalt, canonical_waitPeek, canonical_waitDrain,
    canonical_waitMatrix, canonical_stepStart, canonical_waitXform, canonical_trySend, canonical_tryRecv, canonical_waitBarrier,
    canonical_tryRel]

theorem canonical_unblock {s : State} {t : Strand} {len : ℕ} {w : Wait} (h : Canonical s) : Canonical (unblock s t len w) := by
  have hres := canonical_waitRes (s := { s with cur := .strand t.key }) (t := t) (w := w) h
  unfold unblock
  split
  · next s1 w1 heq => rw [heq] at hres; exact (Memory.wf_setStrand _ _ _).trans hres
  · next s1 tr heq => rw [heq] at hres; exact canonical_ite h (canonical_takeTrap hres)
  · next s1 n heq => rw [heq] at hres; exact canonical_complete.trans ((Memory.wf_setStrand _ _ _).trans hres)

@[simp] theorem canonical_expireResv {s : State} {k : StrandKey} : Memory.wf (expireResv s k) = Memory.wf s := rfl

theorem canonical_markCover {s : State} {ctx : ℕ} {what : CoverKind} {id status : ℕ} (h : Canonical s) : Canonical
    (markCover s ctx what id status) := by
  unfold markCover
  grind [canonical_setContext]

theorem canonical_shutReplay {s : State} {r : Run} (h : Canonical s) : Canonical (shutReplay s r) := by
  unfold shutReplay
  grind [canonical_markCover, canonical_setContext]

theorem canonical_stopStrand {s : State} {t : Strand} (h : Canonical s) : Canonical (stopStrand s t) := by
  unfold stopStrand
  grind [canonical_cancelNow, canonical_endMastership, canonical_reportEnded, Memory.wf_setStrand, canonical_leftSlot]

theorem canonical_stopRun {s : State} {k : StrandKey} {src run : ℕ} (h : Canonical s) : Canonical (stopRun k src s run) :=
  foldl_keeps Canonical _ _ _ (canonical_endRun h) (fun _ _ hu => canonical_stopStrand hu)

theorem canonical_freezeDiverged {s : State} {t : Strand} {index : ℕ} (h : Canonical s) : Canonical (freezeDiverged s t index) := by
  unfold freezeDiverged
  grind [canonical_stopCommands, canonical_abandon, canonical_takeTrap, Memory.wf_setStrand]

/-! ### Save -/

@[simp] theorem canonical_endRequest {s : State} {t : Strand} {f g : BitVec 4 → BitVec 4} : Memory.wf (endRequest s t f g) = Memory.wf s
    := rfl

theorem canonical_endMates {s : State} {t : Strand} (h : Canonical s) : Canonical (endMates s t) :=
  foldl_keeps Canonical _ _ _ h (fun _ _ hu => canonical_endRequest.trans hu)

theorem canonical_serveGroup {s : State} {g : List Strand} (h : Canonical s) : Canonical (serveGroup s g) :=
  foldl_keeps Canonical _ _ _ h (fun _ _ hu => canonical_serveClaims hu)

theorem canonical_refuseSave {s : State} {t : Strand} (h : Canonical s) : Canonical (refuseSave s t) := by
  unfold refuseSave
  grind [canonical_endMates, canonical_endRequest, canonical_logStrand, canonical_serveGroup]

theorem canonical_saveFault {s u : State} {t : Strand} (h : Canonical s) (e : saveFault s t = some u) : Canonical u := by
  obtain ⟨⟨tr, s1⟩, hr, rfl⟩ := Option.map_eq_some_iff.mp e
  exact canonical_takeTrap (canonical_abandon (canonical_reportFault h hr))

theorem canonical_stopForSave {s : State} {t : Strand} {c : CopyCmd} (h : Canonical s) : Canonical (stopForSave s t c) := by
  unfold stopForSave
  grind [Memory.wf_wakeLoc, Memory.wf_updateHome, canonical_copyDrop]

@[simp] theorem canonical_reissueCopies {s : State} {cl : ℕ} {cs : List CopyCmd} : Memory.wf (reissueCopies s cl cs) = Memory.wf s := rfl

theorem canonical_writePieces {s : State} {core ctx base : ℕ} {ps : List Piece} (h : Canonical s) :
    Canonical (writePieces core ctx base ps s).1 := by
  induction ps generalizing s with
  | nil => exact h
  | cons p rest ih =>
    unfold writePieces
    split
    · exact h
    · split
      · exact h
      · next ls s1 hl => exact ih (Memory.wf_writeLocs _ _ (canonical_ctxLocs h hl))

theorem canonical_surrender {s : State} {t : Strand} (h : Canonical s) : Canonical (surrender s t) := by
  unfold surrender
  grind [canonical_surrenderCrew, canonical_freeDone, canonical_serveClaims, Memory.wf_setStrand, Memory.wf_setCrew,
    canonical_endRequest, canonical_powerDown]

theorem canonical_abortSave {s : State} {t : Strand} {addr : ℕ} (h : Canonical s) : Canonical (abortSave s t addr) := by
  unfold abortSave
  grind [canonical_abandon, canonical_takeTrap, canonical_serveGroup, canonical_logStrand, canonical_endMates, canonical_endRequest]

theorem canonical_wakeSaved {s : State} {t : Strand} {p : SavePlan} (h : Canonical s) : Canonical (wakeSaved s t p) :=
  foldl_keeps Canonical _ _ _ (foldl_keeps Canonical _ _ _ h (fun _ _ hu => (Memory.wf_wake _ _ _).trans hu))
    (fun _ _ hu => (Memory.wf_wake _ _ _).trans hu)

theorem canonical_writeArea {s : State} {t : Strand} {p : SavePlan} (h : Canonical s) : Canonical (writeArea s t p).1 := by
  have hawake : Canonical (release (wakeSaved s t p) t.core t.key) := Memory.wf_release _ _ (canonical_wakeSaved h)
  unfold writeArea
  dsimp only
  split
  · exact hawake
  · have hstopped := foldl_keeps Canonical p.copies _ (fun s c => stopForSave s t c) hawake (fun _ _ hu => canonical_stopForSave hu)
    have hpieces := canonical_writePieces (core := t.core) (ctx := t.ctx) (base := t.saveAddr)
      (ps := savePieces (p.copies.foldl (fun s c => stopForSave s t c) (release (wakeSaved s t p) t.core t.key)) t p) hstopped
    split
    · next s2 a f heq => rwa [heq] at hpieces
    · next s2 heq => rwa [heq] at hpieces

theorem canonical_writeAreas {s : State} {ps : List (Strand × SavePlan)} (h : Canonical s) : Canonical (writeAreas ps s).1 := by
  induction ps generalizing s with
  | nil => exact h
  | cons p rest ih =>
    obtain ⟨t, p⟩ := p
    have harea := canonical_writeArea (t := t) (p := p) h
    unfold writeAreas
    split
    · next s1 cs f heq => rwa [heq] at harea
    · next s1 cs heq => rw [heq] at harea; exact ih harea

theorem canonical_writeCtrls {s : State} {ps : List (Strand × SavePlan)} (h : Canonical s) : Canonical (writeCtrls ps s).1 := by
  induction ps generalizing s with
  | nil => exact h
  | cons p rest ih =>
    obtain ⟨t, p⟩ := p
    have hctrl := canonical_writePieces (core := t.core) (ctx := t.ctx) (base := t.saveAddr)
      (ps := [clean 0 (leBytes 8 (1 + 2 * b2n p.forced))]) h
    unfold writeCtrls
    split
    · next s1 heq => rw [heq] at hctrl; exact ih hctrl
    · next s1 a f heq => rwa [heq] at hctrl

theorem canonical_failSaves {s : State} {stopped : List (Strand × List CopyCmd)} {t : Strand} {f : SaveFailure} (h : Canonical s) :
    Canonical (failSaves s stopped t f) := by
  have hissued := foldl_keeps Canonical stopped s (fun s e => reissueCopies s (clusterOfStrand e.1) e.2) h
    (fun _ _ hu => canonical_reissueCopies.trans hu)
  refine canonical_abortSave ?_
  cases f.2 with
  | none => exact hissued
  | some f => exact canonical_noteFailure hissued

theorem canonical_writeSaves {s : State} {g : List Strand} (h : Canonical s) : Canonical (writeSaves s g) := by
  have hareas := canonical_writeAreas (ps := savePlans s g) h
  unfold writeSaves
  dsimp only
  split
  · next s1 cs t f heq => rw [heq] at hareas; exact canonical_failSaves hareas
  · next s1 cs heq =>
    rw [heq] at hareas
    have hctrls := canonical_writeCtrls (ps := savePlans s g) hareas
    split
    · next s2 t f heq2 => rw [heq2] at hctrls; exact canonical_failSaves hctrls
    · next s2 heq2 =>
      rw [heq2] at hctrls
      exact foldl_keeps Canonical _ _ _ (foldl_keeps Canonical _ _ _ hctrls (fun _ _ hu => canonical_abandon hu))
        (fun _ _ hu => canonical_surrender hu)

theorem canonical_saveStep {s : State} {t : Strand} {live : BitVec 64 × BitVec 16 × BitVec 8 × Bool} (h : Canonical s) : Canonical
    (saveStep s t live) := by
  unfold saveStep
  grind [canonical_writeSaves, canonical_saveFault, canonical_refuseSave]

/-! ### Bind -/

@[simp] theorem canonical_setEntry {s : State} {die entry : ℕ} {x3 : Option BindEntry} : Memory.wf (setEntry s die entry x3) = Memory.wf s
    := rfl

@[simp] theorem canonical_loadTables {s : State} {cl ctx : ℕ} : Memory.wf (loadTables s cl ctx) = Memory.wf s := rfl

theorem canonical_writeEntry {s : State} {core slot addr size : ℕ} (h : Canonical s) : Canonical (writeEntry s core slot addr size) := by
  unfold writeEntry
  grind [Memory.wf_writeHome]

@[simp] theorem canonical_passHeir {s : State} {a b : StrandKey} : Memory.wf (passHeir s a b) = Memory.wf s := rfl

theorem canonical_takeHolding {s : State} {k : StrandKey} {x : Retained} (h : Canonical s) : Canonical (takeHolding s k x) :=
  forUpTo_keeps Canonical _ _ _ h (fun _ _ hu => canonical_renameUnit.trans hu)

theorem canonical_settleTo {s : State} {k : StrandKey} {cls low high : ℕ} (h : Canonical s) : Canonical (settleTo s k cls low high) := by
  unfold settleTo
  grind [canonical_releaseUnits, canonical_grantUnits]

theorem canonical_settle {s : State} {k : StrandKey} {cls : ℕ} (h : Canonical s) : Canonical (settle s k cls) := by
  unfold settle
  grind [canonical_settleTo]

theorem canonical_startCount {s : State} {t : Strand} (h : Canonical s) : Canonical (startCount s t) :=
  canonical_ite h ((Memory.wf_setStrand _ _ _).trans (foldl_keeps Canonical _ _ _ h (fun _ _ hu => canonical_requestSlot hu)))

theorem canonical_bindStrand {s u : State} {run crew cl idx k : ℕ} {b : BindRec} (h : Canonical s)
    (e : bindStrand s run crew cl idx k b = some u) : Canonical u := by
  unfold bindStrand at e
  grind [canonical_with, canonical_settle, canonical_takeHolding, canonical_writeEntry, canonical_startCount, Memory.wf_acquire]

theorem canonical_bindStrands {s u : State} {run crew cl idx : ℕ} {b : BindRec} {fuel k : ℕ} (h : Canonical s)
    (e : bindStrands run crew cl idx b fuel k s = some u) : Canonical u := by
  induction fuel generalizing s k with
  | zero => cases e; exact h
  | succ fuel ih =>
    unfold bindStrands at e
    split at e
    · cases e
    · next s1 hb => exact ih (canonical_bindStrand h hb) e

theorem canonical_admitCrew {s u : State} {run crew cl idx : ℕ} {b : BindRec} (h : Canonical s)
    (e : admitCrew s run crew cl idx b = some u) : Canonical u := by
  unfold admitCrew at e
  grind [canonical_with, canonical_loadTables, canonical_serveClaims, Memory.wf_setRun, canonical_settle, canonical_bindStrands]

theorem canonical_restoreGranules {s u : State} {t : Strand} {l : List (ℕ × ℕ)} (h : Canonical s)
    (e : restoreGranules t l s = some u) : Canonical u := by
  induction l generalizing s with
  | nil => cases e; exact h
  | cons g rest ih =>
    unfold restoreGranules at e
    split at e
    · cases e
    · exact ih (Memory.wf_writeLocs _ _ h) e

theorem canonical_restoreMarks {s : State} {cl : ℕ} {l : List (ℕ × Option StrandKey × Bool)} (h : Canonical s) :
    Canonical (restoreMarks s cl l) := by
  induction l generalizing s with
  | nil => exact h
  | cons m rest ih => exact ih (canonical_setSlot.trans h)

theorem canonical_restoreSlots {s u : State} {t : Strand} {cl : ℕ} {ms : List ℕ} {l : List (ℕ × ℕ)} (h : Canonical s)
    (e : restoreSlots t cl ms l s = some u) : Canonical u := by
  induction l generalizing s with
  | nil => cases e; exact h
  | cons m rest ih =>
    unfold restoreSlots at e
    split at e
    · refine ih ?_ e
      split
      · exact canonical_ite (canonical_setSlot.trans h) h
      · exact h
    · cases e

theorem canonical_reissueCopy {s : State} {t : Strand} {cl : ℕ} {bs : List Byte} (h : Canonical s) : Canonical (reissueCopy s t cl bs)
    := by
  unfold reissueCopy
  grind [canonical_with, Memory.wf_setCluster, canonical_addFault, canonical_logStrand, Memory.wf_setStrand]

theorem canonical_restoreCopies {s u : State} {t : Strand} {cl : ℕ} {l : List ℕ} (h : Canonical s)
    (e : restoreCopies t cl l s = some u) : Canonical u := by
  induction l generalizing s with
  | nil => cases e; exact h
  | cons off rest ih =>
    unfold restoreCopies at e
    split at e
    · cases e
    · exact ih (canonical_reissueCopy h) e

theorem canonical_restoreBarriers {s u : State} {t : Strand} {mask : ℕ} {l : List ℕ} (h : Canonical s)
    (e : restoreBarriers t mask l s = some u) : Canonical u := by
  induction l generalizing s with
  | nil => cases e; exact h
  | cons off rest ih =>
    unfold restoreBarriers at e
    split at e
    · cases e
    · exact ih (canonical_ite h (Memory.wf_writeHome _ _ _ h)) e

theorem canonical_restoreStrand {s u : State} {t : Strand} {w : ℕ → ℕ} (h : Canonical s) (e : restoreStrand s t w = some u) :
    Canonical u := by
  unfold restoreStrand at e
  dsimp only at e
  split at e
  · cases e
  · split at e
    · cases e
    · next s1 hgrans =>
      split at e
      · cases e
      · next s2 hslots =>
        split at e
        · cases e
        · next s3 hbars =>
          split at e
          · cases e
          · next s4 hcopies =>
            have hs1 := canonical_restoreGranules ((Memory.wf_setStrand _ _ _).trans h) hgrans
            exact canonical_ctxWrite (canonical_restoreCopies (canonical_restoreBarriers (canonical_restoreSlots hs1 hslots) hbars)
              hcopies) e

theorem canonical_placeSaved {s u : State} {t : Strand} {cl : ℕ} {b : BindRec} (h : Canonical s) (e : placeSaved s t cl b = some u) :
    Canonical u := by
  unfold placeSaved at e
  grind [canonical_settleTo, canonical_takeHolding, canonical_writeEntry, Memory.wf_setStrand, canonical_startCount, Memory.wf_acquire]

@[simp] theorem canonical_resumeTables {s : State} {c : Crew} {ctx cl : ℕ} : Memory.wf (resumeTables s c ctx cl) = Memory.wf s := by
  unfold resumeTables
  split <;> rfl

theorem foldOpt_keeps {α β : Type} {P : β → Prop} {f : β → α → Option β} {l : List α} {b c : β} (hb : P b)
    (hf : ∀ b a c, P b → f b a = some c → P c) (e : foldOpt f l b = some c) : P c := by
  induction l generalizing b with
  | nil => cases e; exact hb
  | cons a l ih =>
    unfold foldOpt at e
    split at e
    · cases e
    · next d hd => exact ih (hf _ _ _ hb hd) e

theorem canonical_resumeCrew {s u : State} {run crew cl : ℕ} {b : BindRec} (h : Canonical s)
    (e : resumeCrew s run crew cl b = some u) : Canonical u := by
  unfold resumeCrew at e
  dsimp only at e
  split at e
  · cases e
  · split at e
    · cases e
    · split at e
      · cases e
      · next s1 hplaced =>
        have hs1 : Canonical s1 := foldOpt_keeps ((Memory.wf_setCrew _ _ _ _).trans (canonical_resumeTables.trans h))
          (fun _ _ _ hu hp => canonical_placeSaved hu hp) hplaced
        split at e
        · obtain ⟨s4, hrestored, rfl⟩ := Option.map_eq_some_iff.mp e
          refine canonical_serveClaims (foldOpt_keeps ((Memory.wf_setCrew _ _ _ _).trans (canonical_restoreMarks (canonical_settleTo
            (canonical_settleTo hs1)))) (fun v t w hv hw => ?_) hrestored)
          split at hw
          · cases hw
          · exact canonical_restoreStrand hv hw
        · cases e

theorem canonical_dispatchCrew {s u : State} {run crew die entry : ℕ} {b : BindRec} (h : Canonical s)
    (e : dispatchCrew s run crew die entry b = some u) : Canonical u := by
  obtain ⟨s1, hs1, rfl⟩ := Option.map_eq_some_iff.mp e
  refine (Memory.wf_setCrew _ _ _ _).trans ?_
  split at hs1
  · exact canonical_resumeCrew h hs1
  · exact canonical_admitCrew h hs1

theorem canonical_restoreNote {s : State} {run crew die : ℕ} {b : BindRec} (h : Canonical s) : Canonical (restoreNote s run crew die b) := by
  refine canonical_ite ?_ h
  generalize List.findSome? _ _ = trouble
  cases trouble with
  | none => exact h
  | some f => exact canonical_noteFailure h

theorem canonical_dispatchNext {s : State} {die entry : ℕ} {resume : Bool} (h : Canonical s) : Canonical (dispatchNext s die entry resume)
    := by
  unfold dispatchNext
  grind [canonical_setEntry, canonical_restoreNote, canonical_dispatchCrew]

theorem canonical_gangBind {s u : State} {run : ℕ} {l : List (ℕ × ℕ × ℕ × BindRec)} (h : Canonical s)
    (e : gangBind s run l = some u) : Canonical u :=
  foldOpt_keeps h (fun _ _ _ hu hd => canonical_dispatchCrew hu hd) e

theorem canonical_gangMark {s : State} {l : List (ℕ × ℕ × BindRec)} (h : Canonical s) : Canonical (gangMark s l) := by
  refine foldl_keeps Canonical _ _ _ h (fun _ _ hu => ?_)
  split
  · exact canonical_setEntry.trans hu
  · exact hu

@[simp] theorem canonical_raisePriority {s : State} {run : ℕ} : Memory.wf (raisePriority s run) = Memory.wf s := by
  unfold raisePriority
  split <;> rfl

@[simp] theorem canonical_drowse {s : State} {core : ℕ} {unit : PowerUnit} : Memory.wf (drowse s core unit) = Memory.wf s := by
  unfold drowse
  split <;> rfl

end Sys2Proof.Proofs
end

section
/-! PROOFS. What keeps storage in its canonical form: launches, the loader, the package, the host port, the fabric, loads and stores, and
vector arithmetic. -/

namespace Sys2Proof.Proofs

open Machine Oblig

/-! ### Launch -/

theorem canonical_putQueue {s : State} {ctx q : ℕ} {f : Queue → Queue} (h : Canonical s) : Canonical (putQueue s ctx q f) := by
  unfold putQueue
  grind [canonical_setContext]

theorem canonical_packetDone {s : State} {ctx q i : ℕ} {irq : Bool} (h : Canonical s) : Canonical (packetDone s ctx q i irq) := by
  unfold packetDone
  grind [canonical_raiseVector, canonical_putQueue]

theorem canonical_hostFault {s : State} {ctx addr : ℕ} (h : Canonical s) : Canonical (hostFault s ctx addr) := by
  unfold hostFault
  grind [canonical_logEvent, canonical_raiseVector]

theorem canonical_releaseAll {s : State} (h : Canonical s) : Canonical (releaseAll s) :=
  foldl_keeps Canonical _ _ _ h (fun _ _ hu => Memory.wf_drainStores _ hu)

theorem canonical_countUp {s : State} {ctx addr status tag : ℕ} (h : Canonical s) : Canonical (countUp s ctx addr status tag) := by
  unfold countUp
  grind [Memory.wf_writeLocs, canonical_noteFailure, canonical_ctxLocs, canonical_hostFault, canonical_releaseAll]

theorem canonical_signalWrite {s u : State} {ctx addr v : ℕ} (h : Canonical s) (e : signalWrite s ctx addr v = some u) : Canonical u := by
  unfold signalWrite at e
  grind [Memory.wf_writeLocs, canonical_ctxLocs, canonical_releaseAll]

@[simp] theorem canonical_putGraph {s : State} {g : ℕ} {f : Graph → Graph} : Memory.wf (putGraph s g f) = Memory.wf s := rfl

theorem canonical_graphCheck {s : State} {g : ℕ} (h : Canonical s) : Canonical (graphCheck s g) := by
  unfold graphCheck
  grind [canonical_countUp, canonical_packetDone, canonical_putGraph]

@[simp] theorem canonical_graphEnd {s : State} {g : ℕ} {cause : ℕ × ℕ × ℕ} : Memory.wf (graphEnd s g cause) = Memory.wf s := rfl

theorem canonical_nodeDone {s : State} {g : ℕ} {succ : List Word} (h : Canonical s) : Canonical (nodeDone s g succ) := by
  unfold nodeDone
  grind [canonical_putGraph, canonical_graphCheck]

theorem canonical_nodeLaunched {s : State} {g run status : ℕ} (h : Canonical s) : Canonical (nodeLaunched s g run status) := by
  unfold nodeLaunched
  grind [canonical_graphEnd, canonical_graphCheck, canonical_nodeDone, canonical_putGraph]

theorem canonical_finishRun {s : State} {run status : ℕ} (h : Canonical s) : Canonical (finishRun s run status) := by
  unfold finishRun
  grind [canonical_nodeLaunched, canonical_packetDone, Memory.wf_setRun, canonical_countUp]

theorem canonical_dropPostings {s : State} {run : ℕ} (h : Canonical s) : Canonical (dropPostings s run) :=
  canonical_dropPostHolds ((Memory.wf_setRun _ _ _).trans (foldl_keeps Canonical _ _ _ h (fun _ _ hu => canonical_logStrand hu)))

theorem canonical_applyAdds {s : State} {run : ℕ} (h : Canonical s) : Canonical (applyAdds s run) :=
  (Memory.wf_setRun _ _ _).trans (foldl_keeps Canonical _ _ _ h (fun _ _ hu => canonical_applyPost hu))

theorem canonical_stageEnd {s : State} {run status : ℕ} (h : Canonical s) : Canonical (stageEnd s run status) := by
  unfold stageEnd
  grind [canonical_with, canonical_setContext]

theorem canonical_noteManifest {s : State} {r : Run} (h : Canonical s) : Canonical (noteManifest s r) := by
  unfold noteManifest
  cases Option.bind r.replay _ with
  | none => exact h
  | some a => exact canonical_noteRead h

theorem canonical_passRun {s : State} {run : ℕ} {r : Run} (h : Canonical s) : Canonical (passRun s run r) := by
  unfold passRun
  grind [Memory.wf_setRun, canonical_closeManifest, canonical_noteManifest]

theorem canonical_launchPass {s : State} {run : ℕ} {r : Run} {ordered : Bool} (h : Canonical s) : Canonical (launchPass s run r ordered)
    := by
  unfold launchPass
  grind [canonical_with, canonical_setContext, canonical_passRun, canonical_finishRun, Memory.wf_setRun]

theorem canonical_launchBegin {s : State} {run : ℕ} (h : Canonical s) : Canonical (launchBegin s run) := by
  unfold launchBegin
  grind [canonical_launchPass, canonical_noteRead, canonical_finishRun, canonical_nameRun]

@[simp] theorem canonical_dropTlbs {s : State} {ctx : ℕ} : Memory.wf (dropTlbs s ctx) = Memory.wf s := rfl

theorem canonical_stopQueue {s : State} {ctx q i : ℕ} (h : Canonical s) : Canonical (stopQueue s ctx q i) := by
  unfold stopQueue
  grind [canonical_putQueue, canonical_noteRead, canonical_hostFault]

theorem canonical_malformedPacket {s : State} {ctx q i v : ℕ} (h : Canonical s) : Canonical (malformedPacket s ctx q i v) := by
  unfold malformedPacket
  grind [canonical_countUp, canonical_raiseVector, canonical_packetDone, canonical_putQueue]

theorem canonical_atPacket {s : State} {ctx q op : ℕ} {f : State → ℕ → ℕ → State} (h : Canonical s)
    (hf : ∀ u i v, Canonical u → Canonical (f u i v)) : Canonical (atPacket s ctx q op f) := by
  refine canonical_ite h ?_
  split
  · exact canonical_stopQueue h
  · exact canonical_ite (canonical_malformedPacket h) (canonical_ite h
      (canonical_ite (canonical_malformedPacket h) (hf _ _ _ (canonical_putQueue h))))

@[simp] theorem canonical_newRun {s : State} {r : Run} : Memory.wf (newRun s r) = Memory.wf s := rfl

theorem canonical_cancelLaunchId {s : State} {ctx id src : ℕ} (h : Canonical s) : Canonical (cancelLaunchId s ctx id src) :=
  foldl_keeps Canonical _ _ _ h (fun _ _ hu => canonical_endRun hu)

theorem canonical_cancelGraphId {s : State} {ctx id src : ℕ} (h : Canonical s) : Canonical (cancelGraphId s ctx id src) :=
  foldl_keeps Canonical _ _ _ h (fun _ _ hu => canonical_graphCheck (canonical_cancelGraph hu))

theorem canonical_cancelEffect {s : State} {ctx v : ℕ} (h : Canonical s) : Canonical (cancelEffect s ctx v) := by
  unfold cancelEffect
  grind [canonical_cancelLaunchId, canonical_cancelGraphId, canonical_markCover, canonical_logEvent]

theorem canonical_startNode {s : State} {g : ℕ} {a : Word} {type : ℕ} {f : State → Node → State} (h : Canonical s)
    (hf : ∀ u n, Canonical u → Canonical (f u n)) : Canonical (startNode s g a type f) := by
  have htaken {u : State} (hu : Canonical u) : Canonical (graphCheck (graphEnd u g (walkerCause s stMalformed)) g) :=
    canonical_graphCheck (canonical_graphEnd.trans hu)
  refine canonical_ite h ?_
  split
  · exact htaken (canonical_ite (canonical_noteRead (canonical_putGraph.trans h)) (canonical_putGraph.trans h))
  · exact canonical_ite (htaken (canonical_putGraph.trans h)) (canonical_ite h (hf _ _ (canonical_putGraph.trans h)))

@[simp] theorem canonical_startLaunchNode {s : State} {g : ℕ} {a : Word} {staging : Bool} {n : Node} : Memory.wf
    (startLaunchNode g a staging s n) = Memory.wf s := rfl

theorem canonical_startTest {s : State} {g : ℕ} {n : Node} (h : Canonical s) : Canonical (startTest g s n) := by
  unfold startTest
  grind [canonical_nodeDone, canonical_noteRead, canonical_graphEnd, canonical_graphCheck]

/-! ### Loader -/

theorem canonical_promises {s : State} {ctx : ℕ} (h : Canonical s) : Canonical (promises s ctx) := by
  unfold promises
  grind [canonical_setContext]

theorem canonical_rebind {s u : State} {ctx : ℕ} {c : Context} {objs : List LoadedObj} {names : List (List Byte)} (h : Canonical s)
    (e : rebind s ctx c objs names = .ok u) : Canonical u := by
  unfold rebind at e
  dsimp only at e
  split at e
  · cases e
  · next s1 hpatched =>
    cases e
    refine foldOpt_keeps h (fun v r w hv hw => ?_) hpatched
    split at hw
    · cases hw
    · split at hw
      · cases hw
      · cases hw; exact Memory.wf_writeLocs _ _ hv

@[simp] theorem canonical_dropLines {s : State} {ctx : ℕ} : Memory.wf (dropLines s ctx) = Memory.wf s := rfl

theorem canonical_loadElf {s u : State} {ctx : ℕ} {b : List Byte} {r : ℕ} (h : Canonical s) (e : loadElf s ctx b = .ok (u, r)) :
    Canonical u := by
  unfold loadElf at e
  dsimp only at e
  repeat' split at e
  all_goals try cases e
  next s1 hbound =>
  have hs1 : Canonical s1 := canonical_rebind (Memory.wf_writeLocs (s := { s with nextHandle := s.nextHandle + 1 }) _ _ h) hbound
  exact canonical_dropLines.trans (canonical_promises (canonical_setContext.trans hs1))

theorem canonical_noteLoad {s : State} {ctx : ℕ} {b : List Byte} (h : Canonical s) : Canonical (noteLoad s ctx b) := by
  unfold noteLoad
  split
  · cases codeGap _ _ _ with
    | none => exact h
    | some base => exact canonical_noteWalk h
  · exact h

theorem canonical_unloadElf {s u : State} {ctx handle : ℕ} (h : Canonical s) (e : unloadElf s ctx handle = .ok u) : Canonical u := by
  unfold unloadElf at e
  grind [canonical_setContext, canonical_promises, canonical_dropLines]

/-! ### Package -/

theorem canonical_logBad {s : State} {src addr : ℕ} (h : Canonical s) : Canonical (logBad s src addr) := by
  unfold logBad
  grind [canonical_logEvent]

theorem canonical_saveError {s : State} {t : Strand} (h : Canonical s) : Canonical (saveError s t) := by
  unfold saveError
  grind [canonical_abortSave]

theorem canonical_registerError {s : State} {k : StrandKey} (h : Canonical s) : Canonical (registerError s k) := by
  unfold registerError
  grind [canonical_takeTrap, canonical_saveError, canonical_logStrand]

theorem canonical_bufferError {s : State} {k : StrandKey} (h : Canonical s) : Canonical (bufferError s k) := by
  unfold bufferError
  grind [canonical_logStrand, canonical_saveError]

theorem canonical_failStrand {s : State} {core : ℕ} {t : Strand} (h : Canonical s) : Canonical (failStrand core s t) := by
  unfold failStrand
  grind [canonical_abandon, canonical_clearSaving, Memory.wf_setStrand, canonical_escalate]

theorem canonical_loseCluster {s : State} {cl : ℕ} (h : Canonical s) : Canonical (loseCluster s cl) := by
  refine canonical_ite h (foldl_keeps Canonical _ _ _ ?_ (fun _ _ hu => canonical_tellMembers hu))
  exact foldl_keeps Canonical _ _ _ (canonical_packageEvent h) (fun _ _ hu => canonical_endRun hu)

theorem canonical_dieLinkReplay {s : State} {i : ℕ} {ok : Bool} (h : Canonical s) : Canonical (dieLinkReplay s i ok) := by
  unfold dieLinkReplay
  grind [canonical_with, canonical_loseCluster]

theorem canonical_answerHardFault {s : State} {cl : ℕ} (h : Canonical s) : Canonical (answerHardFault s cl) :=
  canonical_ite h (foldl_keeps Canonical _ _ _ h (fun _ _ hu => canonical_loseCluster hu))

@[simp] theorem canonical_bootDie {s : State} {fw : Firmware} {d : ℕ} : Memory.wf (bootDie fw d s) = Memory.wf s := rfl

/-! ### HostPort -/

theorem canonical_ringDoorbell {s : State} {ctx q : ℕ} {v : Word} (h : Canonical s) : Canonical (ringDoorbell s ctx q v) := by
  unfold ringDoorbell
  grind [canonical_putQueue, canonical_logEvent]

@[simp] theorem canonical_endCommand {s : State} {status result : ℕ} : Memory.wf (endCommand s status result) = Memory.wf s := rfl

theorem canonical_startCommand {s : State} (h : Canonical s) : Canonical (startCommand s) := by
  unfold startCommand
  grind [canonical_with, canonical_endCommand]

theorem canonical_atCommand {s : State} {op : ℕ} {f : ℕ → State} (h : Canonical s) (hf : ∀ v, Canonical (f v)) :
    Canonical (atCommand s op f) :=
  canonical_ite h (canonical_ite (canonical_endCommand.trans h) (hf _))

theorem canonical_cancelPacketAt {s : State} {ctx q i : ℕ} (h : Canonical s) : Canonical (cancelPacketAt s ctx q i) := by
  -- The packet is read only after the body stands in place of the name: compared with it, the kernel would compute the read.
  generalize hbody : cancelPacketAt = body
  delta cancelPacketAt at hbody
  subst hbody
  dsimp only
  split
  · exact h
  · exact canonical_ite (canonical_packetDone (canonical_countUp h)) h

theorem canonical_cancelQueued {s : State} {ctx q : ℕ} (h : Canonical s) : Canonical (cancelQueued s ctx q) :=
  canonical_putQueue (foldl_keeps Canonical _ _ _ h (fun _ _ hu => canonical_cancelPacketAt hu))

theorem canonical_cancelContext {s : State} {ctx : ℕ} (h : Canonical s) : Canonical (cancelContext s ctx) := by
  have hqueues := foldl_keeps Canonical (List.range ((contextOf s ctx).elim 0 (·.queues.length))) s (fun s q => cancelQueued s ctx q) h
    (fun _ _ hu => canonical_cancelQueued hu)
  exact foldl_keeps Canonical _ _ _ (foldl_keeps Canonical _ _ _ hqueues (fun _ _ hu => canonical_graphCheck (canonical_cancelGraph hu)))
    (fun _ _ hu => canonical_endRun hu)

theorem canonical_freeContext2 {s : State} {ctx : ℕ} (h : Canonical s) : Canonical (freeContext2 s ctx) := by
  have hdropped := foldl_keeps Canonical (s.retained.filter (fun r => r.ctx = ctx)) s dropRetained h (fun _ _ hu => canonical_dropRetained hu)
  exact hdropped

@[simp] theorem canonical_putJob {s : State} {ctx id : ℕ} {f : Job → Job} : Memory.wf (putJob s ctx id f) = Memory.wf s := rfl

@[simp] theorem canonical_dropJob {s : State} {ctx id : ℕ} : Memory.wf (dropJob s ctx id) = Memory.wf s := rfl

@[simp] theorem canonical_consumeNews {s : State} {j : Job} {setting : Bool} : Memory.wf (consumeNews s j setting) = Memory.wf s := rfl

@[simp] theorem canonical_consumeColls {s : State} {j : Job} : Memory.wf (consumeColls s j) = Memory.wf s := rfl

theorem canonical_manageSets {s : State} {j : Job} {on : Bool} (h : Canonical s) : Canonical (manageSets s j on) :=
  forUpTo_keeps Canonical _ _ _ h (fun _ _ hu => foldl_keeps Canonical _ _ _ hu (fun _ _ hv => canonical_queueFlit.trans hv))

theorem canonical_programSets {s : State} {j : Job} (h : Canonical s) : Canonical (programSets s j) :=
  forUpTo_keeps Canonical _ _ _ (canonical_manageSets h) (fun _ _ hu => canonical_putLink.trans hu)

theorem canonical_freeSets {s : State} {j : Job} (h : Canonical s) : Canonical (freeSets s j) :=
  forUpTo_keeps Canonical _ _ _ (canonical_manageSets h) (fun _ _ hu => canonical_putLink.trans hu)

theorem canonical_jobIsSet {s : State} {j : Job} (h : Canonical s) : Canonical (jobIsSet s j) := by
  unfold jobIsSet
  grind [canonical_putJob, canonical_programSets, canonical_endCommand]

theorem canonical_failJob {s : State} {j : Job} {status : ℕ} (h : Canonical s) : Canonical (failJob s j status) := by
  unfold failJob
  grind [canonical_tellMembers, canonical_dropJob, canonical_endCommand]

theorem canonical_startJob {s : State} {ctx id v : ℕ} (h : Canonical s) : Canonical (startJob s ctx id v) := by
  unfold startJob
  grind [canonical_with, canonical_jobIsSet, canonical_dropJob, canonical_consumeNews, canonical_consumeColls, canonical_tellMembers,
    canonical_endCommand]

theorem canonical_awaitJob {s : State} {j : Job} (h : Canonical s) : Canonical (awaitJob s j) :=
  canonical_ite (canonical_failJob h) (canonical_ite (canonical_failJob h) (canonical_ite (canonical_failJob h)
    (canonical_ite (canonical_jobIsSet (canonical_consumeNews.trans h)) (canonical_ite (canonical_failJob h) (canonical_putJob.trans h)))))

theorem canonical_atJob {s : State} {op : ℕ} {f : Job → State} (h : Canonical s) (hf : ∀ j, Canonical (f j)) :
    Canonical (atJob s op f) := by
  refine canonical_atCommand h (fun v => ?_)
  split
  · exact canonical_endCommand.trans h
  · exact canonical_ite (hf _) (canonical_endCommand.trans h)

@[simp] theorem canonical_closeJob {s : State} {j : Job} : Memory.wf (closeJob s j) = Memory.wf s := rfl

theorem canonical_finishJob {s : State} {j : Job} {status : ℕ} (h : Canonical s) : Canonical (finishJob s j status) := by
  unfold finishJob
  grind [canonical_putJob, canonical_countUp, canonical_freeSets]

theorem canonical_stopLaunch {s : State} {status src : ℕ} {cause : CollCause} {r : ℕ} (h : Canonical s) : Canonical
    (stopLaunch status src cause s r) := by
  unfold stopLaunch
  grind [canonical_endRun, canonical_logEvent]

theorem canonical_stopJob {s : State} {j : Job} {status src : ℕ} {cause : CollCause} (h : Canonical s) :
    Canonical (stopJob s j status src cause) := by
  have hcolls := foldl_keeps Canonical (s.colls.filter (fun c => c.ctx = j.ctx && c.job = j.id)) s (stopColl collFailed cause) h
    (fun _ _ hu => canonical_stopColl (fun _ hv => canonical_collFailed hv) hu)
  exact foldl_keeps Canonical _ _ _ (canonical_closeJob.trans (canonical_markCover hcolls)) (fun _ _ hu => canonical_stopLaunch hu)

theorem canonical_loseMember {s : State} {addr : ℕ} {j : Job} (h : Canonical s) : Canonical (loseMember addr s j) := by
  unfold loseMember
  grind [canonical_tellMembers, canonical_finishJob, canonical_stopJob, canonical_packageEvent]

theorem canonical_jobProgress {s : State} {j : Job} (h : Canonical s) : Canonical (jobProgress s j) := by
  unfold jobProgress
  grind [canonical_tellMembers, canonical_putJob, canonical_loseMember, canonical_stopJob, canonical_finishJob, canonical_consumeNews]

theorem canonical_writeBar {s : State} {off : ℕ} {v : Word} (h : Canonical s) : Canonical (writeBar s off v) := by
  unfold writeBar
  grind [canonical_with, canonical_startCommand, canonical_ringDoorbell]

/-! ### Fabric -/

@[simp] theorem canonical_answer {s : State} {j type seq : ℕ} : Memory.wf (answer s j type seq) = Memory.wf s := rfl

theorem canonical_onFlit {s k : State} {j type : ℕ} {f : Flit} (h : Canonical s) (h_k : Canonical k) : Canonical (onFlit s j type f k)
    := by
  unfold onFlit
  grind [canonical_answer]

theorem canonical_inSequence {s : State} {j type : ℕ} {f : Flit} {k : State → State} (h : Canonical s)
    (hk : ∀ u, Canonical u → Canonical (k u)) : Canonical (inSequence s j type f k) :=
  canonical_onFlit h (canonical_ite (canonical_answer.trans h) (hk _ (canonical_answer.trans (canonical_putLink.trans h))))

@[simp] theorem canonical_toInbox {s : State} {j : ℕ} {f : Flit} : Memory.wf (toInbox j f s) = Memory.wf s := rfl

theorem canonical_meetMaster {s : State} {m : ℕ} (h : Canonical s) : Canonical (meetMaster m s) := by
  have hdies := forUpTo_keeps Canonical Config.dies s (fun d s => setDie s d (fun x => { x with gtc := max x.gtc m })) h
    (fun _ _ hu => (Memory.wf_setDie _ _ _).trans hu)
  exact canonical_ite hdies h

theorem canonical_hearTime {s : State} {n : ℕ × ℕ} (h : Canonical s) : Canonical (hearTime n s) := by
  unfold hearTime
  grind [canonical_with, canonical_meetMaster]

theorem canonical_sendTime {s : State} (h : Canonical s) : Canonical (sendTime s) :=
  canonical_ite h (foldl_keeps Canonical _ _ _ h (fun _ _ hu => canonical_sendFlit.trans hu))

theorem canonical_dropLink {s : State} {j : ℕ} (h : Canonical s) : Canonical (dropLink s j) := by
  unfold dropLink
  grind [canonical_packageEvent, canonical_sendFlits, canonical_putLink]

@[simp] theorem canonical_linkLost {s : State} {j : ℕ} : Memory.wf (linkLost s j) = Memory.wf s := by
  unfold linkLost
  split <;> rfl

theorem canonical_programPlane {s : State} {j : ℕ} {anew : Bool} (h : Canonical s) : Canonical (programPlane s j anew) :=
  canonical_ite (foldl_keeps Canonical _ _ _ h (fun _ _ hu => canonical_sendFlit.trans hu)) h

@[simp] theorem canonical_putQp {s : State} {qp : ℕ} {x : QueuePair} : Memory.wf (putQp s qp x) = Memory.wf s := rfl

@[simp] theorem canonical_addRegion {s : State} {pa len : ℕ} : Memory.wf (addRegion s pa len) = Memory.wf s := by
  unfold addRegion
  split <;> rfl

theorem canonical_setRings {s : State} {port qp work comp entries : ℕ} (h : Canonical s) : Canonical
    (setRings s port qp work comp entries) := by
  unfold setRings
  grind [canonical_putQp]

theorem canonical_writeWork {s : State} {port qp : ℕ} {w : EthWork} (h : Canonical s) : Canonical (writeWork s port qp w) := by
  unfold writeWork
  grind [Memory.wf_writeHome, canonical_putQp]

theorem canonical_enterDone {s : State} {port qp : ℕ} {d : EthDone} (h : Canonical s) : Canonical (enterDone s port qp d) := by
  unfold enterDone
  grind [Memory.wf_writeHome, canonical_putQp]

theorem canonical_completeWork {s : State} {port qp id : ℕ} {ok : Bool} (h : Canonical s) : Canonical (completeWork s port qp id ok) := by
  unfold completeWork
  grind [canonical_putQp, canonical_enterDone]

theorem canonical_transmit {s : State} {port qp : ℕ} {w : EthWork} (h : Canonical s) : Canonical (transmit s port qp w) := by
  unfold transmit
  grind [canonical_putQp, canonical_completeWork, canonical_logEvent]

theorem canonical_failQp {s : State} {port qp : ℕ} (h : Canonical s) : Canonical (failQp s port qp) :=
  canonical_ite h (canonical_logEvent (foldl_keeps Canonical _ _ _ (canonical_putQp.trans h) (fun _ _ hu => canonical_completeWork hu)))

theorem canonical_sendAgain {s : State} {port qp : ℕ} {p : EthSent → Bool} (h : Canonical s) : Canonical (sendAgain s port qp p) := by
  unfold sendAgain
  grind [canonical_putQp]

theorem canonical_resend {s : State} {port qp : ℕ} {p : EthSent → Bool} (h : Canonical s) : Canonical (resend s port qp p) := by
  unfold resend
  grind [canonical_putQp, canonical_sendAgain, canonical_failQp]

theorem canonical_ackTimeout {s : State} {port qp : ℕ} (h : Canonical s) : Canonical (ackTimeout s port qp) := by
  unfold ackTimeout
  grind [canonical_resend]

theorem canonical_sendReads {s : State} {port qp : ℕ} (h : Canonical s) : Canonical (sendReads port qp s) :=
  foldl_keeps Canonical _ _ _ h (fun _ _ hu => canonical_transmit hu)

theorem canonical_acknowledge {s : State} {port qp psn : ℕ} (h : Canonical s) : Canonical (acknowledge s port qp psn) :=
  canonical_ite h (foldl_keeps Canonical _ _ _ (canonical_putQp.trans h) (fun _ _ hu => canonical_completeWork hu))

theorem canonical_takeResponse {s : State} {port qp psn : ℕ} {data : List Byte} (h : Canonical s) : Canonical
    (takeResponse s port qp psn data) := by
  unfold takeResponse
  grind [canonical_completeWork, canonical_sendReads, canonical_putQp, Memory.wf_writeHome]

@[simp] theorem canonical_reply {s : State} {port qp : ℕ} {ps : List EthPacket} : Memory.wf (reply s port qp ps) = Memory.wf s := rfl

theorem canonical_inOrder {s : State} {port qp psn n : ℕ} {act : State → Option State} {answer : State → List EthPacket}
    (h : Canonical s) (hact : ∀ u, act s = some u → Canonical u) : Canonical (inOrder s port qp psn n act answer) := by
  refine canonical_ite h (canonical_ite ?_ (canonical_ite (canonical_reply.trans h) (canonical_reply.trans h)))
  split
  · exact h
  · next s1 ha => exact canonical_ite (hact _ ha) (canonical_reply.trans (canonical_putQp.trans (hact _ ha)))

theorem canonical_receive {s : State} {port qp : ℕ} {data : List Byte} {last : Bool} {imm : Option ℕ} (h : Canonical s) : Canonical
    (receive s port qp data last imm) := by
  unfold receive
  grind [canonical_putQp, canonical_enterDone, Memory.wf_writeHome, canonical_failQp]

theorem canonical_takeRead {s : State} {port qp psn pa len : ℕ} (h : Canonical s) : Canonical (takeRead port qp psn pa len s) := by
  unfold takeRead
  grind [canonical_inOrder, canonical_logEvent]

theorem canonical_takePacket {s : State} {port : ℕ} {p : EthPacket} (h : Canonical s) : Canonical (takePacket s port p) := by
  unfold takePacket
  grind [canonical_sendAgain, canonical_resend, canonical_acknowledge, canonical_takeResponse, canonical_takeRead, canonical_receive,
    Memory.wf_writeHome, canonical_inOrder, canonical_reply]

/-! ### LoadStore -/

theorem canonical_loadX {s : State} {rd : BitVec 5} {ea : Word} {n : ℕ} {signed : Bool} (h : Canonical s) : Canonical
    (resState (loadX s rd ea n signed)) := by
  unfold loadX
  grind [resState, canonical_loadCur, canonical_wakeWindow, canonical_writeX]

theorem canonical_storeX {s : State} {ea : Word} {n : ℕ} {v : Word} (h : Canonical s) : Canonical (resState (storeX s ea n v)) := by
  unfold storeX
  grind [resState, canonical_storeCur, canonical_writeWindow]

/-! ### VecArith -/

theorem canonical_varith {s : State} {fn : ℕ} {lit : Option Word} {f : X96} {i : Instr} (h : Canonical s) :
    CanonicalAnswer (varith fn lit f i s) := by
  refine canonical_runStrand h (fun t => ?_)
  split
  · exact h
  · exact canonical_withRegs h (fun _ hu => canonical_writeStrand hu)

/-! ### VecConv -/

theorem canonical_convGroup {s : State} {t : Strand} {vd k w n : ℕ} {f : X96} {g : ℕ → ℕ × ℕ} (h : Canonical s) : Canonical
    (resState (convGroup s t vd k w n f g)) := by
  unfold convGroup
  grind [resState, canonical_writeStrand]

theorem canonical_vconv {s : State} {f : X96} {i : Instr} {gs : List (ℕ × ℕ)} {g : State → Strand → ℕ → Res} (h : Canonical s)
    (hg : ∀ u t m, Canonical u → Canonical (resState (g u t m))) : CanonicalAnswer (vconv f i s gs g) := by
  refine canonical_runStrand h (fun t => ?_)
  split
  · exact h
  · exact canonical_withRegs h (fun _ hu => hg _ _ _ hu)

/-! ### VecLane -/

theorem canonical_vlane {s : State} {f : X96} {i : Instr} {rounds : Bool} {gs : List (ℕ × ℕ)} {g : State → Strand → ℕ → Res}
    (h : Canonical s) (hg : ∀ u t m, Canonical u → Canonical (resState (g u t m))) : CanonicalAnswer (vlane f i s rounds gs g) := by
  refine canonical_runStrand h (fun t => ?_)
  split
  · exact h
  · exact canonical_resIte h (canonical_withRegs h (fun _ hu => hg _ _ _ hu))

theorem canonical_laneWrite {s : State} {t : Strand} {f : X96} {g : ℕ → ℕ} (h : Canonical s) : Canonical (resState (laneWrite s t f g))
    := by
  unfold laneWrite
  grind [resState, canonical_writeStrand]

theorem canonical_vcmp {s : State} {lit : Option Word} {f : X96} {i : Instr} (h : Canonical s) : CanonicalAnswer (vcmp lit f i s) := by
  unfold vcmp
  grind [canonical_writeStrand, canonical_vlane]

end Sys2Proof.Proofs
end

section
/-! PROOFS. What keeps storage in its canonical form: acts, and the choice of what a step executes. -/

namespace Sys2Proof.Proofs

open Machine Oblig

/-! ### Act -/

theorem canonical_hostWrite {s : State} {pa : ℕ} {data : List Byte} {bad : Bool} (h : Canonical s) : Canonical (hostWrite s pa data bad)
    := by
  unfold hostWrite
  grind [Memory.wf_poison, Memory.wf_writeHome]

theorem canonical_manage {s : State} {core csr : ℕ} {v : Word} (h : Canonical s) : Canonical (manage s core csr v) := by
  unfold manage
  grind [canonical_writeHandlerCsr, canonical_writePreempt]

theorem canonical_preemptHeld {s : State} {run crew : ℕ} (h : Canonical s) : Canonical (preemptHeld s run crew) :=
  canonical_ite (foldl_keeps Canonical _ _ _ h (fun _ _ hu => canonical_forGroup (fun _ _ _ hv => canonical_requestSlot hv) hu)) h

theorem canonical_performAct {s : State} {a : Act} (h : Canonical s) : Canonical (performAct a s) := by
  unfold performAct
  grind [canonical_with, canonical_ackTimeout, canonical_setRings, canonical_addRegion, canonical_sendTime, canonical_linkLost,
    canonical_dieLinkReplay, canonical_xOnePiece, canonical_drowse, canonical_raisePriority, canonical_recordWait, canonical_expireResv,
    canonical_answerHardFault, Memory.wf_setCluster, canonical_walkQueue, canonical_fillHint, canonical_preemptHeld, canonical_manage,
    canonical_hostWrite, canonical_serveAdds, Memory.wf_dropOwner]

/-! ### Turn -/

theorem canonical_tick {s : State} (h : Canonical s) : Canonical (tick s) :=
  forUpTo_keeps Canonical _ _ _ h (fun _ _ hu => (Memory.wf_setDie _ _ _).trans hu)

theorem canonical_issueTurn {s u : State} {r : Turn} (h : Canonical s) (e : issueTurn s = some (r, u)) : Canonical u := by
  obtain ⟨core, -, hturn⟩ := Option.bind_eq_some_iff.mp e
  obtain ⟨p, -, hp⟩ := Option.map_eq_some_iff.mp hturn
  cases hp
  exact (Memory.wf_setCore _ _ _).trans h

theorem canonical_chooseTurn {s : State} (h : Canonical s) : Canonical (chooseTurn s).2 := by
  unfold chooseTurn
  grind [canonical_with, canonical_issueTurn]

theorem canonical_fetched {s : State} {r : Except Trap (Except Parcel Instr × State)} (h : Canonical s)
    (hr : ∀ x u, r = .ok (x, u) → Canonical u) : Canonical (fetched r s).2 := by
  unfold fetched
  split
  · exact canonical_noteTrap h
  · exact hr _ _ rfl
  · exact hr _ _ rfl

theorem canonical_repetition {s : State} {t : Strand} {r : Rep} (h : Canonical s) : Canonical (repetition s t r).2 := by
  unfold repetition
  grind [canonical_takeTrap]

theorem canonical_recapture {s : State} {t : Strand} (h : Canonical s) : Canonical (recapture s t).2 := by
  unfold recapture
  dsimp only
  split
  · exact canonical_takeTrap h
  · next s1 hcap => exact canonical_takeTrap (canonical_captureBody h hcap)
  · next body s1 hcap => exact canonical_repetition ((Memory.wf_setStrand _ _ _).trans (canonical_captureBody h hcap))

theorem canonical_issueNext {s : State} {p : Party} (h : Canonical s) : Canonical (issueNext s p).2 := by
  have hcur : Canonical { s with cur := p } := h
  unfold issueNext
  dsimp only
  split
  · split
    · exact canonical_fetched hcur (fun _ _ e => canonical_fetchInstr (fun _ _ _ _ hv hf => canonical_fetchHandler hv hf) hcur e)
    · exact hcur
  · split
    · exact hcur
    · split
      · exact hcur
      · split
        · exact hcur
        · split
          · exact canonical_recapture hcur
          · split
            · exact canonical_repetition hcur
            · exact canonical_fetched hcur (fun _ _ e => canonical_fetchStrand hcur e)

theorem canonical_turnInstr {s : State} {t : Turn} (h : Canonical s) : Canonical (turnInstr s t).2 := by
  unfold turnInstr
  grind [canonical_performAct, canonical_issueNext]

theorem canonical_nextInstr {s : State} (h : Canonical s) : Canonical (nextInstr s).2 := by
  unfold nextInstr
  grind [canonical_with, canonical_turnInstr, canonical_tick, canonical_chooseTurn]

end Sys2Proof.Proofs
end

section
/-! PROOFS. What keeps storage in its canonical form: the instructions and events that are more than one shared operation. -/

namespace Sys2Proof.Proofs

open Machine Oblig

theorem ok_of_map_eq_ok {ε α β : Type} {f : α → β} {x : Except ε α} {b : β} (e : x.map f = .ok b) : ∃ a, x = .ok a ∧ f a = b := by
  cases x with
  | error => cases e
  | ok a => cases e; exact ⟨a, rfl, rfl⟩

theorem canonical_execFenceI {s : State} (h : Canonical s) : CanonicalAnswer (execFenceI s) :=
  canonical_runParty h (canonical_resIte h (Memory.wf_release _ _ h))

theorem canonical_execFencex {s : State} {a b : BitVec 5} (h : Canonical s) : CanonicalAnswer (execFencex a b s) := by
  refine canonical_runParty h (canonical_resIte h ?_)
  split
  · exact canonical_fencexEffect h
  · exact canonical_resIte (canonical_fencexEffect h) h

theorem canonical_execLoop {s : State} {rs1 : BitVec 5} {n : BitVec 12} (h : Canonical s) : CanonicalAnswer (execLoop rs1 n s) := by
  refine canonical_runStrand h (fun t => canonical_resIte h ?_)
  split
  · exact h
  · next a s1 hscan => exact (Memory.wf_setStrand _ _ _).trans (canonical_scanBody h hscan)

theorem canonical_execFhint {s : State} {rs1 : BitVec 5} {k : BitVec 4} (h : Canonical s) : CanonicalAnswer (execFhint rs1 k s) :=
  canonical_runStrand h (fun t => foldl_keeps Canonical (hintLines t (gx t rs1.toNat) (k.toNat + 1)) s (fun s l => hintOne t l s) h
    (fun _ _ hu => canonical_hintOne hu))

theorem canonical_execRepb {s : State} {rs1 : BitVec 5} {n stride mask : BitVec 4} (h : Canonical s) :
    CanonicalAnswer (execRepb rs1 n stride mask s) := by
  refine canonical_runStrand h (fun t => canonical_resIte h ?_)
  split
  · exact h
  · exact h
  · next body s1 hcap =>
    have hs1 : Canonical s1 := canonical_captureBody h hcap
    exact canonical_resIte hs1 ((Memory.wf_setStrand _ _ _).trans hs1)

theorem canonical_execFetchFault {s : State} {cause : BitVec 8} {addr : Word} (h : Canonical s) :
    CanonicalAnswer (execFetchFault cause addr s) := (canonicalAnswer_next _).mpr (canonical_ite (canonical_trapCur h) h)

theorem canonical_execPreemptRequest {s : State} {core : ℕ} {mask : BitVec 4} (h : Canonical s) :
    CanonicalAnswer (execPreemptRequest core mask s) :=
  canonical_runEvent (forUpTo_keeps Canonical _ _ _ h
    (fun _ _ hu => canonical_ite (canonical_forGroup (fun _ _ _ hv => canonical_requestSlot hv) hu) hu))

theorem canonical_execPreemptWithdraw {s : State} {core : ℕ} {mask : BitVec 4} (h : Canonical s) :
    CanonicalAnswer (execPreemptWithdraw core mask s) :=
  canonical_runEvent (forUpTo_keeps Canonical _ _ _ h (fun _ _ hu => canonical_ite (canonical_withdrawGroup hu) hu))

theorem canonical_execPhint {s : State} {f0 f1 : BitVec 4} {c0 c1 : BitVec 5} {smask : BitVec 8} {vmask : Word} (h : Canonical s) :
    CanonicalAnswer (execPhint f0 c0 f1 c1 smask vmask s) :=
  canonical_runStrand h (fun _ => canonical_resIte (canonical_beginSave.trans h) h)

theorem canonical_execPchk {s : State} {rd : BitVec 5} (h : Canonical s) : CanonicalAnswer (execPchk rd s) :=
  canonical_runStrand h (fun _ => canonical_xSet h)

theorem canonical_execLoopCsrWrite {s : State} {k : StrandKey} {csr : BitVec 12} {v : Word} (h : Canonical s) :
    CanonicalAnswer (execLoopCsrWrite k csr v s) := (canonicalAnswer_next _).mpr (canonical_ite (canonical_csrStore h) h)

theorem canonical_execRingReconfigure {s : State} {k : StrandKey} {csr : BitVec 12} {v : Word} (h : Canonical s) :
    CanonicalAnswer (execRingReconfigure k csr v s) := (canonicalAnswer_next _).mpr (canonical_ite (canonical_csrStore h) h)

theorem canonical_execRingheadWrite {s : State} {k : StrandKey} {v : Word} (h : Canonical s) :
    CanonicalAnswer (execRingheadWrite k v s) := by
  -- See `canonical_cancelPacketAt`: the body stands in place of the name and what is read is kept abstract.
  generalize hbody : execRingheadWrite = body
  delta execRingheadWrite at hbody
  subst hbody
  obtain ⟨put, hput⟩ : ∃ put, put = putUserCsr := ⟨_, rfl⟩
  obtain ⟨fetch, hfetch⟩ : ∃ fetch, fetch = fetchParcel := ⟨_, rfl⟩
  rw [← hput, ← hfetch]
  refine (canonicalAnswer_next _).mpr ?_
  split
  · exact h
  · split
    · exact (Memory.wf_setStrand _ _ _).trans h
    · split
      · exact canonical_takeTrap h
      · exact h

theorem canonical_execFltpcWrite {s : State} {core : ℕ} {v : Word} (h : Canonical s) : CanonicalAnswer (execFltpcWrite core v s) := by
  refine canonical_runEvent ?_
  split
  · next s1 hw => exact canonical_writeFltpc h hw
  · exact canonical_handlerTrap h

theorem canonical_execDebugWindowRead {s : State} {q off size : ℕ} (h : Canonical s) :
    CanonicalAnswer (execDebugWindowRead q off size s) := by
  refine canonical_runEvent ?_
  split
  · exact canonical_wakeWindow h
  · exact canonical_windowError h

theorem canonical_execDebugWindowWrite {s : State} {q off size : ℕ} {v : VReg} (h : Canonical s) :
    CanonicalAnswer (execDebugWindowWrite q off size v s) := by
  refine canonical_runEvent ?_
  cases hw : writeWindow s (windowDie q) (q % 2 ^ 12) off size v with
  | none => exact canonical_windowError h
  | some u => exact canonical_writeWindow h hw

theorem canonical_execBinit {s : State} {rs1 rs2 : BitVec 5} (h : Canonical s) : CanonicalAnswer (execBinit rs1 rs2 s) := by
  refine canonical_runStrand h (fun t => ?_)
  dsimp only
  split
  · exact h
  · refine canonical_resIte h ?_
    rw [resState_ok]
    exact Memory.wf_writeHome _ _ _ (Memory.wf_writeHome _ _ _ ((Memory.wf_wakeLoc _ _).trans h))

theorem canonical_execBarrive {s : State} {rs1 rs2 : BitVec 5} (h : Canonical s) : CanonicalAnswer (execBarrive rs1 rs2 s) := by
  refine canonical_runStrand h (fun t => ?_)
  dsimp only
  split
  · exact h
  · have hreleased : Canonical (release (wakeLoc s (.spad, barrierAt t (gx t rs1.toNat))) t.core t.key) :=
      Memory.wf_release _ _ ((Memory.wf_wakeLoc _ _).trans h)
    refine canonical_resIte h (canonical_resIte h ?_)
    rw [resState_ok]
    exact canonical_ite hreleased (Memory.wf_updateHome _ _ _ hreleased)

theorem canonical_execBwait {s : State} {rd rs1 rs2 : BitVec 5} (h : Canonical s) : CanonicalAnswer (execBwait rd rs1 rs2 s) := by
  refine canonical_runStrand h (fun t => ?_)
  dsimp only
  split
  · exact h
  · exact canonical_waitBarrier h

theorem canonical_execBtest {s : State} {rd rs1 rs2 : BitVec 5} (h : Canonical s) : CanonicalAnswer (execBtest rd rs1 rs2 s) := by
  refine canonical_runStrand h (fun t => ?_)
  dsimp only
  split
  · exact h
  · exact canonical_xSet ((Memory.wf_wakeLoc _ _).trans h)

theorem canonical_execVld {s : State} {v : BitVec 6} {rs1 : BitVec 5} {imm : BitVec 6} (h : Canonical s) :
    CanonicalAnswer (execVld v rs1 imm s) := by
  refine canonical_runStrand h (fun t => canonical_withRegs h (fun s1 hs1 => ?_))
  split
  · exact h
  · next vs s2 hg => exact canonical_writeStrand (canonical_gatherElems hs1 hg)

theorem canonical_execVst {s : State} {v : BitVec 6} {rs1 : BitVec 5} {imm : BitVec 6} (h : Canonical s) :
    CanonicalAnswer (execVst v rs1 imm s) := by
  refine canonical_runStrand h (fun t => canonical_withRegs h (fun s1 hs1 => ?_))
  split
  · exact h
  · next s2 hsc => exact canonical_scatterElems hs1 hsc

theorem canonical_execVlds {s : State} {w : BitVec 2} {v : BitVec 6} {rs1 rs2 : BitVec 5} (h : Canonical s) :
    CanonicalAnswer (execVlds w v rs1 rs2 s) := by
  refine canonical_runStrand h (fun t => canonical_withRegs h (fun s1 hs1 => ?_))
  split
  · exact h
  · next vs s2 hg => exact canonical_writeStrand (canonical_gatherElems hs1 hg)

theorem canonical_execVsts {s : State} {w : BitVec 2} {v : BitVec 6} {rs1 rs2 : BitVec 5} (h : Canonical s) :
    CanonicalAnswer (execVsts w v rs1 rs2 s) := by
  refine canonical_runStrand h (fun t => canonical_withRegs h (fun s1 hs1 => ?_))
  split
  · exact h
  · next s2 hsc => exact canonical_scatterElems hs1 hsc

theorem canonical_execVgather {s : State} {f : X96} (h : Canonical s) : CanonicalAnswer (execVgather f s) := by
  refine canonical_runStrand h (fun t => canonical_withRegs h (fun s1 hs1 => ?_))
  dsimp only
  split
  · exact h
  · next vs s2 hg => exact canonical_writeStrand (canonical_gatherElems hs1 hg)

theorem canonical_execVscatter {s : State} {f : X96} (h : Canonical s) : CanonicalAnswer (execVscatter f s) := by
  refine canonical_runStrand h (fun t => canonical_withRegs h (fun s1 hs1 => ?_))
  dsimp only
  split
  · exact h
  · next s2 hsc => exact canonical_scatterElems hs1 hsc

theorem canonical_execVldm {s : State} {f : X96} (h : Canonical s) : CanonicalAnswer (execVldm f s) := by
  refine canonical_runStrand h (fun t => canonical_withRegs h (fun s1 hs1 => ?_))
  dsimp only
  split
  · exact h
  · next vs s2 hg => exact canonical_writeStrand (canonical_gatherElems hs1 hg)

theorem canonical_execVstm {s : State} {f : X96} (h : Canonical s) : CanonicalAnswer (execVstm f s) := by
  refine canonical_runStrand h (fun t => canonical_withRegs h (fun s1 hs1 => ?_))
  dsimp only
  split
  · exact h
  · next s2 hsc => exact canonical_scatterElems hs1 hsc

theorem canonical_execVamoadd {s : State} {f : X96} (h : Canonical s) : CanonicalAnswer (execVamoadd f s) := by
  refine canonical_runStrand h (fun t => ?_)
  dsimp only
  split
  · exact h
  · refine canonical_resIte h (canonical_resIte h (canonical_withRegs h (fun s1 hs1 => ?_)))
    split
    · exact h
    · split
      · exact h
      · next locs s2 hlocs =>
        have hs2 : Canonical s2 := canonical_locateAll hs1 hlocs
        split
        · exact h
        · exact canonical_vamoEffect hs2

theorem canonical_execCopyRowWrite {s : State} {cl id bytes : ℕ} (h : Canonical s) :
    CanonicalAnswer (execCopyRowWrite cl id bytes s) := by
  refine canonical_runEvent ?_
  split
  · exact h
  · exact canonical_copyStep h

theorem canonical_execCpyq {s : State} {f : X96} (h : Canonical s) : CanonicalAnswer (execCpyq f s) :=
  canonical_runStrand h (fun _ => canonical_resIte ((Memory.wf_setStrand _ _ _).trans h) h)

theorem canonical_execCpycan {s : State} {f : X96} (h : Canonical s) : CanonicalAnswer (execCpycan f s) :=
  canonical_runStrand h (fun t => canonical_resIte ((Memory.wf_setStrand _ _ _).trans
    (foldl_keeps Canonical (copiesOn s t (gx t f.vs2.toNat)) s (copyStop (clusterOfStrand t) stCancelled) h
      (fun _ _ hu => canonical_copyStop hu))) h)

theorem canonical_execColl {s : State} {f : X96} (h : Canonical s) : CanonicalAnswer (execColl f s) := by
  refine canonical_runStrand h (fun t => canonical_resIte h (canonical_resIte h (canonical_resIte h (canonical_resIte h ?_))))
  split
  · exact h
  · next bs s1 hl =>
    have hs1 : Canonical s1 := canonical_loadAs h hl
    split
    · exact h
    · exact canonical_collChecked hs1

theorem canonical_execCollInstance {s : State} {inst : ℕ} (h : Canonical s) : CanonicalAnswer (execCollInstance inst s) := by
  refine (canonicalAnswer_next _).mpr ?_
  split
  · exact h
  · split
    · exact h
    · refine canonical_ite h ?_
      dsimp only
      split
      · exact canonical_collFault h
      · next own s1 hsent =>
        have hs1 : Canonical s1 := by
          split at hsent
          · cases hsent; exact h
          · obtain ⟨⟨bs, u⟩, hsource, hr⟩ := ok_of_map_eq_ok hsent
            cases hr
            exact canonical_collSend (canonical_collSource h hsource)
        exact canonical_ite (canonical_collRun hs1) hs1

theorem canonical_execCollComplete {s : State} {inst : ℕ} (h : Canonical s) : CanonicalAnswer (execCollComplete inst s) := by
  refine (canonicalAnswer_next _).mpr ?_
  split
  · exact h
  · split
    · exact h
    · exact canonical_collEnd h

theorem canonical_execCollFail {s : State} {inst : ℕ} {cause : CollCause} (h : Canonical s) :
    CanonicalAnswer (execCollFail inst cause s) := by
  refine (canonicalAnswer_next _).mpr ?_
  split
  · exact h
  · refine canonical_ite h (canonical_ite (canonical_collFailed h) ?_)
    cases cause with
    | timeout => exact canonical_ite (canonical_collFailAll h) h
    | disagree => exact canonical_ite h (canonical_collFailAll h)
    | unreachable | cancelled | fault => exact h

theorem canonical_execStep {s : State} (h : Canonical s) : CanonicalAnswer (execStep s) := by
  refine canonical_runStrand h (fun t => canonical_resIte h ?_)
  split
  · exact (Memory.wf_setStrand _ _ _).trans h
  · exact canonical_stepStart h

theorem canonical_execDeadlockProbe {s : State} {k : StrandKey} (h : Canonical s) : CanonicalAnswer (execDeadlockProbe k s) := by
  refine (canonicalAnswer_next _).mpr ?_
  split
  · exact h
  · exact canonical_ite (canonical_probe h) h

theorem canonical_execMatrixTileStep {s : State} {cl bad : ℕ} (h : Canonical s) : CanonicalAnswer (execMatrixTileStep cl bad s) := by
  refine canonical_runEvent ?_
  split
  · split
    · exact canonical_tileStep (canonical_arbTake.trans h)
    · exact h
  · exact h

theorem canonical_execMzeroExec {s : State} {cl : ℕ} (h : Canonical s) : CanonicalAnswer (execMzeroExec cl s) := by
  refine canonical_runEvent ?_
  split
  · split
    · exact canonical_dequeue.trans (canonical_setSlot.trans (canonical_arbTake.trans h))
    · exact h
  · exact h

theorem canonical_execDrainConvert {s : State} {cl : ℕ} (h : Canonical s) : CanonicalAnswer (execDrainConvert cl s) := by
  refine canonical_runEvent ?_
  split
  · split
    · exact canonical_drainRun (canonical_arbTake.trans h)
    · exact h
  · exact h

theorem canonical_execMtldExec {s : State} {cl : ℕ} (h : Canonical s) : CanonicalAnswer (execMtldExec cl s) := by
  refine canonical_runEvent ?_
  split
  · split
    · exact canonical_loadTable (canonical_wakeScratch (canonical_arbTake.trans h))
    · exact h
  · exact h

theorem canonical_execMtsvExec {s : State} {cl : ℕ} (h : Canonical s) : CanonicalAnswer (execMtsvExec cl s) := by
  refine canonical_runEvent ?_
  split
  · split
    · exact canonical_dequeue.trans (Memory.wf_writeLocs _ _ (canonical_wakeLocs (canonical_arbTake.trans h)))
    · exact h
  · exact h

theorem canonical_execMzero {s : State} {f : X96} (h : Canonical s) : CanonicalAnswer (execMzero f s) := by
  refine canonical_runStrand h (fun t => canonical_matrixIssue h ?_)
  dsimp only
  split
  · exact h
  · refine canonical_resIte h (canonical_resIte h ?_)
    rw [resState_ok]
    exact canonical_setSlot.trans (canonical_enqueue h)

theorem canonical_execMpeek {s : State} {f : X96} (h : Canonical s) : CanonicalAnswer (execMpeek f s) := by
  refine canonical_runStrand h (fun t => canonical_resIte h ?_)
  split
  · exact h
  · split
    · exact h
    · next slot op s1 hop => exact canonical_drainOp h hop

theorem canonical_execMwait {s : State} {f : X96} (h : Canonical s) : CanonicalAnswer (execMwait f s) := by
  refine canonical_runStrand h (fun t => canonical_resIte h (canonical_resIte ?_ (canonical_waitMatrix h)))
  split
  · exact h
  · exact canonical_waitMatrix h

theorem canonical_execMtld {s : State} {f : X96} (h : Canonical s) : CanonicalAnswer (execMtld f s) := by
  refine canonical_runStrand h (fun t => canonical_matrixIssue h (canonical_resIte h (canonical_resIte h ?_)))
  split
  · exact h
  · exact canonical_enqueue h

theorem canonical_execMtsv {s : State} {f : X96} (h : Canonical s) : CanonicalAnswer (execMtsv f s) := by
  refine canonical_runStrand h (fun t => canonical_matrixIssue h (canonical_resIte h (canonical_resIte h ?_)))
  split
  · exact h
  · next off _ =>
    have hqueued : Canonical (enqueue s t none 0 (.mtsv (fld f.aux.toNat 2 1) off)).1 := canonical_enqueue h
    exact hqueued

theorem canonical_execXreq {s : State} {f : X96} (h : Canonical s) : CanonicalAnswer (execXreq f s) := by
  refine canonical_runStrand h (fun t => canonical_resIte h (canonical_resIte h (canonical_resIte h ?_)))
  split
  · exact h
  · next bs s1 hl =>
    have hs1 : Canonical s1 := canonical_loadAs h hl
    exact canonical_resIte ((Memory.wf_setStrand _ _ _).trans hs1) (canonical_resIte ((Memory.wf_setStrand _ _ _).trans hs1)
      ((Memory.wf_setStrand _ _ _).trans (canonical_setBlockState hs1)))

theorem canonical_execXpoll {s : State} {f : X96} (h : Canonical s) : CanonicalAnswer (execXpoll f s) := by
  refine canonical_runStrand h (fun t => canonical_resIte h ?_)
  split
  · exact h
  · next s1 hr => exact (Memory.wf_setStrand _ _ _).trans (canonical_xBlockRead h hr)

theorem canonical_execXformStart {s : State} {cl : ℕ} (h : Canonical s) : CanonicalAnswer (execXformStart cl s) := by
  refine canonical_runEvent ?_
  split
  · exact h
  · refine canonical_ite ?_ h
    dsimp only
    split
    · exact (Memory.wf_setCluster _ _ _).trans h
    · exact canonical_setBlockState ((Memory.wf_setCluster _ _ _).trans h)

theorem canonical_execXformComplete {s : State} {cl : ℕ} (h : Canonical s) : CanonicalAnswer (execXformComplete cl s) := by
  refine canonical_runEvent ?_
  split
  · exact h
  · exact canonical_ite (canonical_xComplete h) h

theorem canonical_execTryacq {s : State} {rd rs1 : BitVec 5} {cls : BitVec 3} {n : BitVec 7} (h : Canonical s) :
    CanonicalAnswer (execTryacq rd cls n rs1 s) :=
  canonical_runStrand h (fun _ => canonical_xSet (canonical_ite (canonical_grantUnits h) h))

theorem canonical_execAcq {s : State} {rd rs1 : BitVec 5} {cls : BitVec 3} {n : BitVec 7} (h : Canonical s) :
    CanonicalAnswer (execAcq rd cls n rs1 s) := by
  refine canonical_runStrand h (fun t => ?_)
  dsimp only
  split
  · exact canonical_xSet (canonical_grantUnits h)
  · exact h
  · exact canonical_joinQueue.trans h

theorem canonical_execRel {s : State} {rd rs1 : BitVec 5} {cls : BitVec 3} {n : BitVec 7} (h : Canonical s) :
    CanonicalAnswer (execRel rd cls n rs1 s) :=
  canonical_runStrand h (fun _ => canonical_resIte h (canonical_resIte (canonical_xSet h) (canonical_resIte h (canonical_tryRel h))))

theorem canonical_execRetainExpiry {s : State} {ctx : ℕ} {tag : Word} (h : Canonical s) :
    CanonicalAnswer (execRetainExpiry ctx tag s) := by
  refine (canonicalAnswer_next _).mpr ?_
  split
  · exact h
  · exact canonical_ite (canonical_dropRetained h) h

theorem canonical_execCancel {s : State} {scope : BitVec 5} (h : Canonical s) : CanonicalAnswer (execCancel scope s) :=
  canonical_runStrand h (fun _ => canonical_endStrand (canonical_stopCommands (canonical_cancelScope (canonical_logStrand h))))

theorem canonical_execStrandCancel {s : State} {k : StrandKey} (h : Canonical s) : CanonicalAnswer (execStrandCancel k s) := by
  refine (canonicalAnswer_next _).mpr ?_
  split
  · exact h
  · exact canonical_ite (canonical_cancelNow h) h

theorem canonical_execStret {s : State} (h : Canonical s) : CanonicalAnswer (execStret s) := by
  refine canonical_runHandler h (fun c => canonical_nextPacket.trans ?_)
  split
  · exact canonical_escalate h
  · exact h

theorem canonical_execFaultPacketDeliver {s : State} {core : ℕ} (h : Canonical s) :
    CanonicalAnswer (execFaultPacketDeliver core s) := by
  refine canonical_runEvent ?_
  split
  · exact h
  · exact canonical_ite (canonical_escalate ((Memory.wf_setCore _ _ _).trans h)) (canonical_ite h h)

theorem canonical_execDieManagerDisposition {s : State} {q : ℕ} {act : Disposition} (h : Canonical s) :
    CanonicalAnswer (execDieManagerDisposition q act s) := by
  refine canonical_runEvent ?_
  split
  · exact h
  · refine canonical_ite h ?_
    cases act with
    | resume => exact canonical_thaw.trans h
    | kill => exact canonical_kill h
    | toHost => exact canonical_dropEscalated.trans h

theorem canonical_execStrandUnblock {s : State} {k : StrandKey} (h : Canonical s) : CanonicalAnswer (execStrandUnblock k s) := by
  refine (canonicalAnswer_next _).mpr ?_
  split
  · exact h
  · split
    · next t _ _ _ len w _ _ =>
      have hu : Canonical (unblock s t len w) := canonical_unblock h
      exact canonical_ite hu h
    · exact h

theorem canonical_execMpeekSnapshot {s : State} {k : StrandKey} (h : Canonical s) : CanonicalAnswer (execMpeekSnapshot k s) := by
  refine (canonicalAnswer_next _).mpr ?_
  split
  · exact h
  · split
    · next t _ _ _ len m rd op _ _ =>
      have hu : Canonical (unblock s t len (.peek m rd op)) := canonical_unblock h
      exact canonical_ite hu h
    · exact h

theorem canonical_execReplayDiverge {s : State} {k : StrandKey} {index : ℕ} (h : Canonical s) :
    CanonicalAnswer (execReplayDiverge k index s) := by
  refine (canonicalAnswer_next _).mpr ?_
  split
  · exact h
  · exact canonical_ite (foldl_keeps Canonical _ _ _ (canonical_shutReplay (canonical_freezeDiverged h)) (fun _ _ hu => canonical_stopRun hu)) h

theorem canonical_execSaveWrite {s : State} {k : StrandKey} (h : Canonical s) : CanonicalAnswer (execSaveWrite k s) := by
  refine (canonicalAnswer_next _).mpr ?_
  split
  · exact h
  · split
    · exact h
    · exact canonical_ite (canonical_saveStep h) h

theorem canonical_execGangAdmit {s : State} {run : ℕ} (h : Canonical s) : CanonicalAnswer (execGangAdmit run s) := by
  refine (canonicalAnswer_next _).mpr (canonical_ite ?_ h)
  dsimp only
  split
  · next s1 hbound => exact canonical_gangMark ((Memory.wf_setRun _ _ _).trans (canonical_gangBind h hbound))
  · exact foldl_keeps Canonical _ _ _ h (fun _ _ hu => canonical_restoreNote hu)

theorem canonical_execLaunchComplete {s : State} {run : ℕ} (h : Canonical s) : CanonicalAnswer (execLaunchComplete run s) :=
  (canonicalAnswer_next _).mpr (canonical_ite h (canonical_finishRun (canonical_stageEnd (canonical_applyAdds (canonical_dropPostings h)))))

theorem canonical_execLaunchStart {s : State} {run : ℕ} (h : Canonical s) : CanonicalAnswer (execLaunchStart run s) :=
  (canonicalAnswer_next _).mpr (canonical_ite h (canonical_launchBegin (canonical_dropTlbs.trans h)))

theorem canonical_execLaunchPacket {s : State} {ctx q : ℕ} (h : Canonical s) : CanonicalAnswer (execLaunchPacket ctx q s) :=
  canonical_runEvent (canonical_atPacket h (fun _ _ _ hu => canonical_newRun.trans hu))

theorem canonical_execStagePacket {s : State} {ctx q : ℕ} (h : Canonical s) : CanonicalAnswer (execStagePacket ctx q s) :=
  canonical_runEvent (canonical_atPacket h (fun _ _ _ hu => canonical_newRun.trans hu))

theorem canonical_execGraphPacket {s : State} {ctx q : ℕ} (h : Canonical s) : CanonicalAnswer (execGraphPacket ctx q s) :=
  canonical_runEvent (canonical_atPacket h (fun _ _ _ hu => canonical_graphCheck hu))

theorem canonical_execLevelPacket {s : State} {ctx q : ℕ} (h : Canonical s) : CanonicalAnswer (execLevelPacket ctx q s) :=
  canonical_runEvent (canonical_atPacket h (fun _ _ _ hu => canonical_packetDone (canonical_putQueue (canonical_setContext.trans hu))))

theorem canonical_execWaitPacket {s : State} {ctx q : ℕ} (h : Canonical s) : CanonicalAnswer (execWaitPacket ctx q s) :=
  canonical_runEvent (canonical_atPacket h (fun _ _ _ hu => canonical_noteRead hu))

theorem canonical_execWaitComplete {s : State} {ctx q : ℕ} (h : Canonical s) : CanonicalAnswer (execWaitComplete ctx q s) := by
  -- See `canonical_cancelPacketAt`: the body stands in place of the name and what is read is kept abstract.
  generalize hbody : execWaitComplete = body
  delta execWaitComplete at hbody
  subst hbody
  obtain ⟨read, hread⟩ : ∃ read, read = readPacket := ⟨_, rfl⟩
  obtain ⟨word, hword⟩ : ∃ word, word = ctxRead := ⟨_, rfl⟩
  rw [← hread, ← hword]
  refine canonical_runEvent ?_
  split
  · exact h
  · split
    · exact h
    · refine canonical_ite h ?_
      split
      · exact h
      · exact canonical_ite (canonical_packetDone h) h

theorem canonical_execSignalPacket {s : State} {ctx q : ℕ} (h : Canonical s) : CanonicalAnswer (execSignalPacket ctx q s) := by
  refine canonical_runEvent (canonical_atPacket h (fun u _ v hu => canonical_packetDone ?_))
  cases hw : signalWrite u ctx (fld v 127 64) (fld v 191 128) with
  | none => exact canonical_hostFault (canonical_noteWalk hu)
  | some w => exact canonical_signalWrite hu hw

theorem canonical_execReplayPacket {s : State} {ctx q : ℕ} (h : Canonical s) : CanonicalAnswer (execReplayPacket ctx q s) :=
  canonical_runEvent (canonical_atPacket h (fun _ _ _ hu => canonical_packetDone (canonical_putQueue (canonical_setContext.trans hu))))

theorem canonical_execCancelPacket {s : State} {ctx q idx : ℕ} (h : Canonical s) : CanonicalAnswer (execCancelPacket ctx q idx s) := by
  -- See `canonical_cancelPacketAt`: the body stands in place of the name and what is read is kept abstract.
  generalize hbody : execCancelPacket = body
  delta execCancelPacket at hbody
  subst hbody
  refine canonical_runEvent (canonical_ite h ?_)
  split
  · exact h
  · exact canonical_ite h (canonical_packetDone (canonical_cancelEffect h))

theorem canonical_execCondNode {s : State} {g : ℕ} {node : Word} (h : Canonical s) : CanonicalAnswer (execCondNode g node s) :=
  (canonicalAnswer_next _).mpr (canonical_startNode h (fun _ _ hu =>
    canonical_ite (canonical_graphCheck (canonical_graphEnd.trans hu)) (canonical_startTest (canonical_putGraph.trans hu))))

theorem canonical_execJoinNode {s : State} {g : ℕ} {node : Word} (h : Canonical s) : CanonicalAnswer (execJoinNode g node s) :=
  (canonicalAnswer_next _).mpr (canonical_startNode h (fun _ _ hu =>
    canonical_ite (canonical_graphCheck (canonical_putGraph.trans hu)) (canonical_nodeDone (canonical_putGraph.trans hu))))

theorem canonical_execSignalNode {s : State} {g : ℕ} {node : Word} (h : Canonical s) : CanonicalAnswer (execSignalNode g node s) := by
  refine (canonicalAnswer_next _).mpr (canonical_startNode h (fun u n hu => ?_))
  dsimp only
  split
  · exact canonical_graphCheck (canonical_graphEnd.trans (canonical_noteWalk hu))
  · next s1 hw => exact canonical_nodeDone (canonical_raiseVector.trans (canonical_signalWrite hu hw))

theorem canonical_execHostMemWrite {s : State} {pa : ℕ} {data : List Byte} {poisoned : Bool} (h : Canonical s) :
    CanonicalAnswer (execHostMemWrite pa data poisoned s) := by
  have hw : Canonical (writeHome s .dev pa data) := Memory.wf_writeHome _ _ _ h
  exact canonical_runEvent (canonical_ite h (canonical_ite (Memory.wf_poison _ _ _ hw) hw))

theorem canonical_execEccUncorrected {s : State} {site : ErrorSite} (h : Canonical s) : CanonicalAnswer (execEccUncorrected site s) := by
  refine canonical_runEvent ?_
  cases site with
  | device | host | scratchpad | weights => exact canonical_logBad (Memory.wf_poison _ _ _ h)
  | l1Line | icacheLine => exact canonical_logBad ((Memory.wf_setCore _ _ _).trans h)
  | register => exact canonical_registerError h
  | saveBuffer => exact canonical_bufferError h
  | slotStore => exact (Memory.wf_setCluster _ _ _).trans h

theorem canonical_execCoreFailed {s : State} {core : ℕ} (h : Canonical s) : CanonicalAnswer (execCoreFailed core s) :=
  canonical_runEvent (canonical_ite h (foldl_keeps Canonical _ _ _ ((Memory.wf_setCore _ _ _).trans h) (fun _ _ hu => canonical_failStrand hu)))

theorem canonical_bootSteps {s : State} {fw : Firmware} {n : ℕ} (h : Canonical s) :
    Canonical (((bootSteps fw).take n).foldl (fun s f => f s) s) := by
  have hsteps : ∀ f ∈ (bootSteps fw).take n, ∀ u, Canonical u → Canonical (f u) := by
    intro f hf u hu
    rcases List.mem_of_mem_take hf with _ | ⟨_, _ | ⟨_, _ | ⟨_, _ | ⟨_, _ | ⟨_, hnil⟩⟩⟩⟩⟩
    · exact hu
    · exact foldl_keeps Canonical _ _ _ (forUpTo_keeps Canonical _ _ _ hu (fun _ _ hv => canonical_bootDie.trans hv))
        (fun _ _ hv => Memory.wf_writeHome _ _ _ hv)
    · exact hu
    · exact foldl_keeps Canonical _ _ _ hu (fun _ _ hv => (Memory.wf_setCluster _ _ _).trans hv)
    · exact hu
    · cases hnil
  generalize (bootSteps fw).take n = fs at hsteps
  induction fs generalizing s with
  | nil => exact h
  | cons f fs ih => exact ih (hsteps f (List.mem_cons_self ..) s h) (fun g hg => hsteps g (List.mem_cons_of_mem _ hg))

theorem canonical_execBoot {s : State} {fw : Firmware} (h : Canonical s) : CanonicalAnswer (execBoot fw s) := by
  refine canonical_runEvent (canonical_ite h ?_)
  split
  · next n _ =>
    have hfailed : Canonical (((bootSteps fw).take (n - 1)).foldl (fun s f => f s) s) := canonical_bootSteps h
    exact hfailed
  · have hall : Canonical (((bootSteps fw).take (bootSteps fw).length).foldl (fun s f => f s) s) := canonical_bootSteps h
    rwa [List.take_length] at hall

theorem canonical_execCreateContext {s : State} (h : Canonical s) : CanonicalAnswer (execCreateContext s) :=
  (canonicalAnswer_next _).mpr (canonical_atCommand h (fun _ => canonical_ite h h))

theorem canonical_execDestroyContext {s : State} (h : Canonical s) : CanonicalAnswer (execDestroyContext s) := by
  refine (canonicalAnswer_next _).mpr (canonical_atCommand h (fun v => ?_))
  have hs1 : Canonical (cancelContext s (cmdCtx v)) := canonical_cancelContext h
  exact canonical_ite (canonical_endCommand.trans (canonical_freeContext2 hs1)) hs1

theorem canonical_execLoadObject {s : State} (h : Canonical s) : CanonicalAnswer (execLoadObject s) := by
  refine (canonicalAnswer_next _).mpr (canonical_atCommand h (fun v =>
    canonical_ite (canonical_endCommand.trans h) (canonical_ite (canonical_endCommand.trans h) ?_)))
  split
  · exact canonical_endCommand.trans (canonical_noteLoad h)
  · next s1 x hl => exact canonical_endCommand.trans (canonical_loadElf h hl)

theorem canonical_execUnloadObject {s : State} (h : Canonical s) : CanonicalAnswer (execUnloadObject s) := by
  refine (canonicalAnswer_next _).mpr (canonical_atCommand h (fun v => ?_))
  split
  · exact canonical_endCommand.trans h
  · next s1 hu => exact canonical_endCommand.trans (canonical_unloadElf h hu)

theorem canonical_execFaultAct {s : State} (h : Canonical s) : CanonicalAnswer (execFaultAct s) := by
  refine (canonicalAnswer_next _).mpr (canonical_atCommand h (fun v => canonical_ite (canonical_endCommand.trans h) ?_))
  split
  · exact canonical_endCommand.trans h
  · exact canonical_ite (canonical_endCommand.trans (canonical_ite (canonical_thaw.trans h) (canonical_kill h))) (canonical_endCommand.trans h)

theorem canonical_execJobset {s : State} (h : Canonical s) : CanonicalAnswer (execJobset s) := by
  refine (canonicalAnswer_next _).mpr (canonical_atCommand h (fun v => ?_))
  dsimp only
  split
  · exact canonical_startJob h
  · exact canonical_ite (canonical_endCommand.trans h) (canonical_awaitJob h)

theorem canonical_execJobsetTimeout {s : State} {job : ℕ} (h : Canonical s) : CanonicalAnswer (execJobsetTimeout job s) := by
  refine (canonicalAnswer_next _).mpr (canonical_atCommand h (fun v => ?_))
  split
  · exact h
  · exact canonical_ite h (canonical_awaitJob h)

theorem canonical_execJobclose {s : State} (h : Canonical s) : CanonicalAnswer (execJobclose s) :=
  (canonicalAnswer_next _).mpr (canonical_atJob h (fun _ => h))

theorem canonical_execJobcancel {s : State} (h : Canonical s) : CanonicalAnswer (execJobcancel s) :=
  (canonicalAnswer_next _).mpr (canonical_atJob h (fun _ =>
    canonical_endCommand.trans (canonical_finishJob (canonical_stopJob (canonical_tellMembers h)))))

theorem canonical_execJobComplete {s : State} {job : ℕ} (h : Canonical s) : CanonicalAnswer (execJobComplete job s) :=
  (canonicalAnswer_next _).mpr (foldl_keeps Canonical _ _ _ h (fun _ _ hu => canonical_jobProgress hu))

theorem canonical_execNackFlit {s : State} {link : ℕ} {f : Flit} (h : Canonical s) : CanonicalAnswer (execNackFlit link f s) :=
  canonical_runEvent (canonical_onFlit h (canonical_ite h
    (canonical_ite (canonical_dropLink (canonical_putLink.trans h)) (canonical_putLink.trans h))))

theorem canonical_execLinkRetrain {s : State} {link : ℕ} {partner : Option ℕ} (h : Canonical s) :
    CanonicalAnswer (execLinkRetrain link partner s) := by
  refine canonical_runEvent (canonical_ite h ?_)
  cases partner with
  | none => exact canonical_ite (canonical_putLink.trans h) h
  | some p => exact canonical_ite (canonical_dropLink h) (canonical_sendParked (canonical_programPlane (canonical_putLink.trans h)))

theorem canonical_execMemberUnreachable {s : State} {addr : ℕ} (h : Canonical s) : CanonicalAnswer (execMemberUnreachable addr s) :=
  canonical_runEvent (foldl_keeps Canonical _ _ _ h (fun _ _ hu => canonical_loseMember hu))

theorem canonical_execEthWorkRequest {s : State} {port qp : ℕ} {w : EthWork} (h : Canonical s) :
    CanonicalAnswer (execEthWorkRequest port qp w s) := by
  have hs1 : Canonical (writeWork s port qp w) := canonical_writeWork h
  exact canonical_runEvent (canonical_ite h (canonical_ite (canonical_completeWork hs1) (canonical_ite (canonical_putQp.trans hs1)
    (canonical_transmit (canonical_putQp.trans hs1)))))

theorem canonical_execStres {s : State} {rs1 : BitVec 5} (h : Canonical s) : CanonicalAnswer (execStres rs1 s) :=
  canonical_dispose h (fun _ _ _ hu => canonical_thaw.trans hu)

theorem canonical_execStkill {s : State} {rs1 : BitVec 5} (h : Canonical s) : CanonicalAnswer (execStkill rs1 s) :=
  canonical_dispose h (fun _ _ _ hu => canonical_kill hu)

theorem canonical_execEscal {s : State} {rs1 : BitVec 5} (h : Canonical s) : CanonicalAnswer (execEscal rs1 s) :=
  canonical_dispose h (fun _ _ _ hu => canonical_escalate hu)

end Sys2Proof.Proofs
end

section
/-! PROOFS. Every step keeps the canonical form of storage (R107, R111, R317). -/

namespace Sys2Proof.Proofs

open Machine Oblig

/-- Every instruction and event keeps storage canonical: one case for each, or for those that one shared operation carries out. -/
theorem canonical_exec {s : State} {i : Instr} (h : Canonical s) : CanonicalAnswer (exec i s) := by
  cases i with
  | lui | auipc | addi | slti | sltiu | xori | ori | andi | slli | srli | srai | addiw | slliw | srliw | sraiw | add | sub | sll
  | slt | sltu | xor | srl | sra | or | and | mul | mulh | mulhsu | mulhu | div | divu | rem | remu | addw | subw | sllw | srlw
  | sraw | mulw | divw | divuw | remw | remuw =>
    exact canonical_runParty h (canonical_writeX h)
  | jal | jalr => exact canonical_runParty h (canonical_jumpLink h)
  | beq | bne | blt | bge | bltu | bgeu => exact canonical_runParty h (canonical_branch h)
  | lb | lh | lw | ld | lbu | lhu | lwu => exact canonical_runParty h (canonical_loadX h)
  | sb | sh | sw | sd => exact canonical_runParty h (canonical_storeX h)
  | lrW | lrD | scW | scD | amoswapW | amoswapD | amoaddW | amoaddD | amoxorW | amoxorD | amoandW | amoandD | amoorW | amoorD
  | amominW | amominD | amomaxW | amomaxD | amominuW | amominuD | amomaxuW | amomaxuD =>
    exact canonical_runAtomic h
  | fence | fenceTso => exact canonical_runParty h (canonical_fence h)
  | csrrw | csrrs | csrrc | csrrwi | csrrsi | csrrci => exact canonical_csrAccess h
  | acq => exact canonical_execAcq h
  | tryacq => exact canonical_execTryacq h
  | rel => exact canonical_execRel h
  | claimq => exact canonical_runStrand h (fun _ => canonical_xSet h)
  | loop => exact canonical_execLoop h
  | fhint => exact canonical_execFhint h
  | repb => exact canonical_execRepb h
  | bbs | bbc => exact canonical_runStrand h (fun _ => canonical_branch h)
  | fencex => exact canonical_execFencex h
  | halt => exact canonical_runStrand h (fun _ => canonical_resIte h (canonical_tryHalt h))
  | cancel => exact canonical_execCancel h
  | sendS => exact canonical_runStrand h (fun _ => canonical_trySend h)
  | sendM => exact canonical_runStrand h (fun _ => canonical_resIte h (canonical_trySend h))
  | recv => exact canonical_runStrand h (fun _ => canonical_resIte (canonical_tryRecv h) h)
  | tryrecv => exact canonical_runStrand h (fun _ => canonical_resIte h h)
  | binit => exact canonical_execBinit h
  | barrive => exact canonical_execBarrive h
  | bwait => exact canonical_execBwait h
  | btest => exact canonical_execBtest h
  | vld => exact canonical_execVld h
  | vst => exact canonical_execVst h
  | vlds => exact canonical_execVlds h
  | vsts => exact canonical_execVsts h
  | vins | vsplat | vsplatImm => exact canonical_runStrand h (fun _ => canonical_withRegs h (fun _ hu => canonical_writeStrand hu))
  | vext => exact canonical_runStrand h (fun _ => canonical_withRegs h (fun _ hu => canonical_writeX hu))
  | stres => exact canonical_execStres h
  | stkill => exact canonical_execStkill h
  | escal => exact canonical_execEscal h
  | vadd | vsub | vmul | vfma | vmin | vmax | vdiv | vsqrt | vrcp | vrsq | vexp2 | vlog2 | vtanh | vand | vor | vxor | vshl
  | vshr | vmulh | vsel | vaddX160 | vsubX160 | vmulX160 | vfmaX160 | vminX160 | vmaxX160 | vdivX160 | vandX160 | vorX160
  | vxorX160 | vshlX160 | vshrX160 | vmulhX160 | vselX160 =>
    exact canonical_varith h
  | vcvt | vunpkmx | vtobsi | vfrombsi => exact canonical_vconv h (fun _ _ _ hu => canonical_convGroup hu)
  | vpackmx | vmxexp | vrand => exact canonical_vconv h (fun _ _ _ hu => canonical_writeStrand hu)
  | vgather => exact canonical_execVgather h
  | vscatter => exact canonical_execVscatter h
  | vldm => exact canonical_execVldm h
  | vstm => exact canonical_execVstm h
  | vamoadd => exact canonical_execVamoadd h
  | vred | vscan | vcompress | vpopc => exact canonical_vlane h (fun _ _ _ hu => canonical_writeStrand hu)
  | vperm | vslide | viota => exact canonical_vlane h (fun _ _ _ hu => canonical_laneWrite hu)
  | vcmp | vcmpX160 => exact canonical_vcmp h
  | mzero => exact canonical_execMzero h
  | mma | mmag => exact canonical_runStrand h (fun _ => canonical_matrixIssue h (canonical_mmaIssue h))
  | mdrain | mdrains => exact canonical_runStrand h (fun _ => canonical_drainIssue h)
  | mpeek => exact canonical_execMpeek h
  | mwait => exact canonical_execMwait h
  | mtld => exact canonical_execMtld h
  | mtsv => exact canonical_execMtsv h
  | cpy | cpyred | cpywb => exact canonical_runStrand h (fun _ => canonical_copyIssue h)
  | cpyq => exact canonical_execCpyq h
  | cpycan => exact canonical_execCpycan h
  | xreq => exact canonical_execXreq h
  | xpoll => exact canonical_execXpoll h
  | xwait => exact canonical_runStrand h (fun _ => canonical_resIte h (canonical_waitXform h))
  | putx | putxadd => exact canonical_runStrand h (fun _ => canonical_putIssue h)
  | coll => exact canonical_execColl h
  | phint => exact canonical_execPhint h
  | pchk => exact canonical_execPchk h
  | malformedEncoding => exact (canonicalAnswer_next _).mpr (canonical_trapCur h)
  | fetchFault => exact canonical_execFetchFault h
  | storeRegister => exact canonical_runEvent (Memory.wf_registerOne _ h)
  | faultPacketDeliver => exact canonical_execFaultPacketDeliver h
  | handlerWake => exact canonical_runEvent (canonical_ite h (canonical_nextPacket.trans h))
  | strandCancel => exact canonical_execStrandCancel h
  | strandUnblock => exact canonical_execStrandUnblock h
  | saveWrite => exact canonical_execSaveWrite h
  | replayDiverge => exact canonical_execReplayDiverge h
  | matrixTileStep => exact canonical_execMatrixTileStep h
  | mzeroExec => exact canonical_execMzeroExec h
  | drainConvert => exact canonical_execDrainConvert h
  | mtldExec => exact canonical_execMtldExec h
  | mtsvExec => exact canonical_execMtsvExec h
  | copyRowWrite => exact canonical_execCopyRowWrite h
  | xformStart => exact canonical_execXformStart h
  | xformComplete => exact canonical_execXformComplete h
  | crossing => exact (canonicalAnswer_next _).mpr (canonical_ite (canonical_crossRun h) h)
  | launchStart => exact canonical_execLaunchStart h
  | launchComplete => exact canonical_execLaunchComplete h
  | gangAdmit => exact canonical_execGangAdmit h
  | bindCrew | resume => exact canonical_runEvent (canonical_dispatchNext h)
  | launchPacket => exact canonical_execLaunchPacket h
  | graphPacket => exact canonical_execGraphPacket h
  | levelPacket => exact canonical_execLevelPacket h
  | waitPacket => exact canonical_execWaitPacket h
  | waitComplete => exact canonical_execWaitComplete h
  | cancelPacket => exact canonical_execCancelPacket h
  | stagePacket => exact canonical_execStagePacket h
  | signalPacket => exact canonical_execSignalPacket h
  | replayPacket => exact canonical_execReplayPacket h
  | launchNode | stageNode =>
    exact (canonicalAnswer_next _).mpr (canonical_startNode h (fun _ _ hu => canonical_startLaunchNode.trans hu))
  | condNode => exact canonical_execCondNode h
  | whileNode => exact (canonicalAnswer_next _).mpr (canonical_startNode h (fun _ _ hu => canonical_startTest hu))
  | joinNode => exact canonical_execJoinNode h
  | signalNode => exact canonical_execSignalNode h
  | collInstance => exact canonical_execCollInstance h
  | collComplete => exact canonical_execCollComplete h
  | jobComplete => exact canonical_execJobComplete h
  | deadlockProbe => exact canonical_execDeadlockProbe h
  | forcedSave => exact (canonicalAnswer_next _).mpr (canonical_forceSave h)
  | claimWaitStall => exact canonical_runEvent ((Memory.wf_setCluster _ _ _).trans h)
  | retainExpiry => exact canonical_execRetainExpiry h
  | mpeekSnapshot => exact canonical_execMpeekSnapshot h
  | bindRecordWrite => exact canonical_runEvent (canonical_ite (canonical_setEntry.trans h) h)
  | graphComplete => exact (canonicalAnswer_next _).mpr (canonical_graphCheck h)
  | collFail => exact canonical_execCollFail h
  | loopCsrWrite => exact canonical_execLoopCsrWrite h
  | ringReconfigure => exact canonical_execRingReconfigure h
  | ringheadWrite => exact canonical_execRingheadWrite h
  | ackFlit => exact canonical_runEvent (canonical_onFlit h (canonical_putLink.trans h))
  | nackFlit => exact canonical_execNackFlit h
  | preemptRequest => exact canonical_execPreemptRequest h
  | preemptWithdraw => exact canonical_execPreemptWithdraw h
  | fltpcWrite => exact canonical_execFltpcWrite h
  | debugWindowRead => exact canonical_execDebugWindowRead h
  | debugWindowWrite => exact canonical_execDebugWindowWrite h
  | registerWrite => exact canonical_runEvent (canonical_ite (canonical_writeBar h) h)
  | reservationExpiry => exact (canonicalAnswer_next _).mpr (canonical_expireResv.trans h)
  | claimWaitRecord => exact (canonicalAnswer_next _).mpr (canonical_recordWait h)
  | wbRefreshOpen => exact canonical_runEvent (canonical_ite ((Memory.wf_setCluster _ _ _).trans h) h)
  | wbRefreshClose => exact canonical_runEvent (canonical_ite h ((Memory.wf_setCluster _ _ _).trans h))
  | bankDrowsy => exact canonical_runEvent (canonical_drowse.trans h)
  | icacheFill => exact canonical_runEvent (canonical_fillHint h)
  | pageWalk => exact canonical_runEvent (canonical_walkQueue h)
  | hostMemWrite => exact canonical_execHostMemWrite h
  | eccCorrected => exact canonical_runEvent (canonical_logEvent h)
  | eccUncorrected => exact canonical_execEccUncorrected h
  | coreFailed => exact canonical_execCoreFailed h
  | hardFault => exact canonical_runEvent (canonical_answerHardFault h)
  | bindRecordWithdraw => exact canonical_runEvent (canonical_setEntry.trans h)
  | gangPriority => exact (canonicalAnswer_next _).mpr (canonical_raisePriority.trans h)
  | createContext => exact canonical_execCreateContext h
  | destroyContext => exact canonical_execDestroyContext h
  | loadObject => exact canonical_execLoadObject h
  | unloadObject => exact canonical_execUnloadObject h
  | faultAct => exact canonical_execFaultAct h
  | jobset => exact canonical_execJobset h
  | jobsetTimeout => exact canonical_execJobsetTimeout h
  | jobclose => exact canonical_execJobclose h
  | jobcancel => exact canonical_execJobcancel h
  | doorbell => exact canonical_runEvent (canonical_ite (canonical_ringDoorbell h) h)
  | idleFlit => exact canonical_runEvent (canonical_onFlit h h)
  | dataFlit | combineFlit => exact canonical_runEvent (canonical_inSequence h (fun _ hu => canonical_toInbox.trans hu))
  | timeFlit => exact canonical_runEvent (canonical_inSequence h (fun _ hu => canonical_hearTime hu))
  | managementFlit => exact canonical_runEvent (canonical_sendFlit.trans h)
  | linkDown => exact canonical_runEvent (canonical_ite h (canonical_dropLink h))
  | linkRetrain => exact canonical_execLinkRetrain h
  | memberUnreachable => exact canonical_execMemberUnreachable h
  | ethWorkRequest => exact canonical_execEthWorkRequest h
  | qpError => exact canonical_runEvent (canonical_failQp h)
  | throttle => exact canonical_runEvent (canonical_ite ((Memory.wf_setDie _ _ _).trans h) h)
  | thermalTrip => exact (canonicalAnswer_next _).mpr h
  | boot => exact canonical_execBoot h
  | dieManagerDisposition => exact canonical_execDieManagerDisposition h
  | ethernetPacketReceive => exact canonical_runEvent (canonical_ite (canonical_takePacket h) h)
  | fenceI => exact canonical_execFenceI h
  | ecall | ebreak => exact canonical_runParty h h
  | step => exact canonical_execStep h
  | stret => exact canonical_execStret h

/-- Settles O59: what a step executes is chosen without a change of storage's form, and every instruction, event and act keeps it. -/
theorem stepKeepsMemory : Obligations.StepKeepsMemory := by
  intro s u h hstep
  have hnext : Canonical (nextInstr s).2 := canonical_nextInstr h
  unfold step at hstep
  split at hstep
  · next s1 heq => rw [heq] at hnext; cases hstep; exact hnext
  · next i s1 heq => rw [heq] at hnext; exact canonical_exec hnext u hstep

end Sys2Proof.Proofs
end

section
/-! PROOFS. A register of the party that issues is written, and the party goes on or jumps (R99, R100, R117 to R119, R125). -/

namespace Sys2Proof.Proofs

open Machine Oblig

/-! ### A strand that writes a register -/

/-- A strand that writes a register and goes on in some way. -/
theorem retire_xSet_strand {s : State} {t : Strand} (h : Issues s t) (len : ℕ) (n : Next) (rd : BitVec 5) (v : Word) :
    retire len (.ok (xSet s rd v) n) = .next (setStrand s t.key (fun _ => advance (sx t rd.toNat v) len n)) := by
  obtain ⟨hcur, hfind⟩ := h
  simp only [retire, xSet, hcur, complete, setStrand_cur]
  rw [setStrand_setStrand s t.key _ _ (fun u hu => by rw [sx_key, hu])]
  exact congrArg _ (setStrand_congr hfind rfl)

theorem xGet_issues {s : State} {t : Strand} (h : Issues s t) (r : BitVec 5) : xGet s r = gx t r.toNat := by
  simp only [xGet, h.1, strandOf_eq h.2]

/-- What the party reads of a strand that has become t'. -/
theorem xGet_setStrand {s : State} {t t' : Strand} (h : Issues s t) (hkey : t'.key = t.key) (r : BitVec 5) :
    xGet (setStrand s t.key (fun _ => t')) r = gx t' r.toNat := by
  obtain ⟨hcur, hfind⟩ := h
  refine (xGet_issues ⟨?_, ?_⟩ r)
  · rw [setStrand_cur, hcur, hkey]
  · rw [hkey, findStrand_setStrand s t.key _ (fun _ _ => hkey), hfind]
    rfl

theorem toNat_eq_zero_iff_reg (rd : BitVec 5) : rd.toNat = 0 ↔ rd = 0 := by
  rw [← BitVec.toNat_inj]
  rfl

/-- What a strand's registers read after one has been written, however the strand goes on. -/
theorem gx_advance_sx {s : State} {t : Strand} (h : Issues s t) (len : ℕ) (n : Next) (rd r : BitVec 5) (v : Word) :
    gx (advance (sx t rd.toNat v) len n) r.toNat = if r = rd ∧ rd ≠ 0 then v else xGet s r := by
  obtain ⟨p, c, q, hadv⟩ := advance_parts (sx t rd.toNat v) len n
  rw [gx_congr (congrArg Strand.x hadv) (congrArg Strand.dead hadv)]
  refine (gx_sx t _ _ v rd.isLt r.isLt).trans ?_
  rw [xGet_issues h]
  simp only [BitVec.toNat_inj, ne_eq, toNat_eq_zero_iff_reg]

theorem onlyRegs_advance_sx (t : Strand) (rd : ℕ) (v : Word) (len : ℕ) (n : Next) : OnlyRegs t (advance (sx t rd v) len n) := by
  obtain ⟨p, c, q, hadv⟩ := advance_parts (sx t rd v) len n
  rw [OnlyRegs, hadv, sx_parts t rd v]

theorem dead_advance_sx (t : Strand) (rd : BitVec 5) (v : Word) (len : ℕ) (n : Next) {r : ℕ} (hr : r < 32) :
    (advance (sx t rd.toNat v) len n).dead.getLsbD r = (t.dead.getLsbD r && (r ≠ rd.toNat || rd = 0)) := by
  obtain ⟨p, c, q, hadv⟩ := advance_parts (sx t rd.toNat v) len n
  rw [congrArg Strand.dead hadv]
  refine (sx_dead t _ _ v rd.isLt hr).trans ?_
  simp only [toNat_eq_zero_iff_reg]

theorem advance_sx_key (t : Strand) (rd : ℕ) (v : Word) (len : ℕ) (n : Next) : (advance (sx t rd v) len n).key = t.key := by
  rw [advance_key, sx_key]

theorem sameFlow_sx (t : Strand) (rd : ℕ) (v : Word) : SameFlow t (sx t rd v) := by
  rw [sx_parts]
  exact ⟨rfl, rfl, rfl, rfl, rfl⟩

/-! ### A handler context that writes a register -/

/-- A handler context of which a register is written and that goes on at an address. -/
def wroteCore (c : Core) (rd : BitVec 5) (v a : Word) : Core :=
  { c with hx := if rd = 0 then c.hx else tset 0 c.hx rd.toNat v, hpc := a }

theorem setHpc_xSet {s : State} {c : ℕ} (h : s.cur = .handler c) (rd : BitVec 5) (v : Word) (f : Word → Word) :
    setCore (xSet s rd v) c (fun x => { x with hpc := f x.hpc }) =
      setCore s c (fun _ => wroteCore (coreOf s c) rd v (f (coreOf s c).hpc)) := by
  simp only [xSet, h, wroteCore]
  split
  · rfl
  · rw [setCore_setCore]
    rfl

/-- A handler context that writes a register and goes on in order. -/
theorem retire_writeX_handler {s : State} {c : ℕ} (h : s.cur = .handler c) (len : ℕ) (rd : BitVec 5) (v : Word) :
    retire len (writeX s rd v) =
      .next (setCore s c (fun _ => wroteCore (coreOf s c) rd v ((coreOf s c).hpc + BitVec.ofNat 64 len))) := by
  have hcur : (xSet s rd v).cur = .handler c := by simp only [xSet, h]; split <;> exact h
  simp only [writeX, retire, complete, hcur]
  exact congrArg _ (setHpc_xSet h rd v (· + BitVec.ofNat 64 len))

/-- A handler context that writes a register and jumps. -/
theorem retire_jump_handler {s : State} {c : ℕ} (h : s.cur = .handler c) (len : ℕ) (rd : BitVec 5) (v a : Word) :
    retire len (.ok (xSet s rd v) (.jump a)) = .next (setCore s c (fun _ => wroteCore (coreOf s c) rd v a)) := by
  have hcur : (xSet s rd v).cur = .handler c := by simp only [xSet, h]; split <;> exact h
  simp only [retire, complete, hcur]
  exact congrArg _ (setHpc_xSet h rd v (fun _ => a))

/-- What a handler context's registers read after one has been written. -/
theorem xGet_wroteCore {s : State} {c : ℕ} (h : s.cur = .handler c) (rd r : BitVec 5) (v a : Word) :
    xGet (setCore s c (fun _ => wroteCore (coreOf s c) rd v a)) r = if r = rd ∧ rd ≠ 0 then v else xGet s r := by
  have hcore : coreOf (setCore s c (fun _ => wroteCore (coreOf s c) rd v a)) c = wroteCore (coreOf s c) rd v a := by
    rw [coreOf_setCore, if_pos rfl]
  simp only [xGet, setCore_cur, h]
  rw [hcore]
  simp only [wroteCore]
  by_cases hr : r = 0
  · rw [if_pos hr, if_pos hr, if_neg (fun hw => hw.2 (hw.1 ▸ hr))]
  · rw [if_neg hr, if_neg hr]
    by_cases hrd : rd = 0
    · rw [if_pos hrd, if_neg (fun hw => hw.2 hrd)]
    · rw [if_neg hrd, tget_tset]
      simp only [BitVec.toNat_inj, ne_eq, hrd, not_false_eq_true, and_true]

/-! ### Immediate forms -/

/-- The party writes a register and goes on in order, and nothing else differs. -/
theorem writes_writeX {s : State} (h : issuing s = true) (rd : BitVec 5) (v : Word) : Writes s (retire 4 (writeX s rd v)) rd v := by
  cases hcur : s.cur with
  | strand k =>
    simp only [issuing, hcur] at h
    obtain ⟨t, ht⟩ := Option.isSome_iff_exists.mp h
    obtain rfl := findStrand_key ht
    have hi : Issues s t := ⟨hcur, ht⟩
    refine ⟨_, retire_xSet_strand hi 4 .seq rd v, setStrand_cur .., fun r => ?_, ?_⟩
    · rw [xGet_setStrand hi (advance_sx_key ..), gx_advance_sx hi]
    · simp only [hcur]
      exact ⟨t, _, ht, rfl, onlyRegs_advance_sx .., goesOn_advance 4 (sameFlow_sx ..), fun r hr => dead_advance_sx _ _ _ _ _ hr⟩
  | handler c =>
    refine ⟨_, retire_writeX_handler hcur 4 rd v, rfl, fun r => xGet_wroteCore hcur .., ?_⟩
    simp only [hcur]
    exact ⟨_, rfl, rfl⟩

/-- An instruction of the party that writes a register. -/
theorem writes_runParty {s : State} (h : issuing s = true) {i : Instr} (hlen : instrLen i = 4) {rd : BitVec 5} {v w : Word} (hv : w = v) :
    Writes s (runParty i s (writeX s rd w)) rd v := by
  rw [runParty_issuing h, hlen, hv]
  exact writes_writeX h rd v

/-- The low 32 bits of an immediate that is extended to 64. -/
theorem setWidth_signExtend_imm (imm : BitVec 12) : (imm.signExtend 64).setWidth 32 = imm.signExtend 32 := by
  ext i hi
  simp [BitVec.getElem_signExtend, show i < 64 by omega]

/-- Settles O1: each form writes a value, which is the one that R117 to R119 name. -/
theorem immediateResults : Obligations.ImmediateResults := by
  intro s rd rs1 imm up h
  refine ⟨writes_runParty h rfl rfl, writes_runParty h rfl rfl, writes_runParty h rfl rfl, writes_runParty h rfl ?_,
    writes_runParty h rfl ?_, writes_runParty h rfl rfl, writes_runParty h rfl rfl, writes_runParty h rfl rfl, writes_runParty h rfl ?_⟩
  · rw [flagX, BitVec.slt_eq_decide, immX, BitVec.toInt_signExtend_of_le (by decide)]
    simp only [decide_eq_true_eq]
  · exact if_congr (BitVec.ult_iff_lt ..) rfl rfl
  · rw [wordX, lowW, BitVec.setWidth_add _ _ (by decide)]
    rw [setWidth_signExtend_imm]

/-! ### Jumps -/

/-- Marking registers dead is a strand's own (R100). -/
theorem markDead_handler {s : State} {c : ℕ} (h : s.cur = .handler c) : markDead s = s := by simp only [markDead, h]

/-- A handler context's jump to an aligned target. -/
theorem retire_jumpLink_handler {s : State} {c : ℕ} (h : s.cur = .handler c) (rd : BitVec 5) (target : Word) (marks : Bool)
    (ht : target.toNat % 4 = 0) : retire 4 (jumpLink s rd target marks) =
      .next (setCore s c (fun _ => wroteCore (coreOf s c) rd ((coreOf s c).hpc + 4) target)) := by
  have hok : targetOk s target = true := by simp only [targetOk, ht, h, decide_true, Bool.and_self]
  have hxcur : (xSet s rd (pcOf s + 4)).cur = .handler c := by simp only [xSet, h]; split <;> exact h
  have hpc : pcOf s = (coreOf s c).hpc := by simp only [pcOf, h]
  rw [jumpLink, transfer_ok hok, markDead_handler hxcur, ite_self, retire_jump_handler h, hpc]

theorem handlerJumps_holds : handlerJumps := by
  intro s c rd rs1 off imm h links
  have hlinks (i : Instr) (target : Word) (marks : Bool) (hlen : instrLen i = 4)
      (hi : exec i s = runParty i s (jumpLink s rd target marks)) : links (exec i s) target := by
    intro ht
    rw [hi, runParty_handler _ h, hlen, retire_jumpLink_handler h rd target marks ht]
    exact ⟨_, _, rfl, rfl, rfl, fun r => xGet_wroteCore h ..⟩
  have hpc : pcOf s = (coreOf s c).hpc := by simp only [pcOf, show s.cur = .handler c from h]
  exact ⟨hlinks _ _ _ rfl (by rw [← hpc]; rfl), hlinks _ _ _ rfl rfl⟩

/-- What a strand has become where it has linked and jumped. -/
def linked (t : Strand) (rd : BitVec 5) (target : Word) (marks : Bool) : Strand :=
  let u := sx t rd.toNat (t.pc + 4)
  { u with pc := target, dead := if marks then u.dead ||| (t.deadmask.truncate 32 &&& 0xFFFFFFF8#32) else u.dead }

theorem linked_onlyRegs (t : Strand) (rd : BitVec 5) (target : Word) (marks : Bool) : OnlyRegs t (linked t rd target marks) := by
  rw [OnlyRegs, linked, sx_parts]

theorem linked_rep (t : Strand) (rd : BitVec 5) (target : Word) (marks : Bool) : (linked t rd target marks).rep = t.rep := by
  rw [linked, sx_parts]

theorem linked_lpcount (t : Strand) (rd : BitVec 5) (target : Word) (marks : Bool) : (linked t rd target marks).lpcount = t.lpcount := by
  rw [linked, sx_parts]

theorem linked_x (t : Strand) (rd : BitVec 5) (target : Word) (marks : Bool) {r : ℕ} (hr : r ≠ 0) :
    tget 0 (linked t rd target marks).x r = if r = rd.toNat then t.pc + 4 else tget 0 t.x r := by
  unfold linked sx
  by_cases hrd : rd.toNat = 0
  · rw [if_pos hrd, if_neg (fun e => hr (e.trans hrd))]
  · rw [if_neg hrd, tget_tset]

theorem linked_dead (t : Strand) (rd : BitVec 5) (target : Word) (marks : Bool) {r : ℕ} (hr : r < 32) :
    (linked t rd target marks).dead.getLsbD r = ((t.dead.getLsbD r && (r ≠ rd.toNat || rd = 0)) ||
      if marks then (t.deadmask.truncate 32 &&& 0xFFFFFFF8#32).getLsbD r else false) := by
  have hdead := dead_advance_sx t rd (t.pc + 4) 4 .stay hr
  simp only [advance] at hdead
  cases marks with
  | false => rw [← hdead]; simp only [linked, Bool.false_eq_true, if_false, Bool.or_false]
  | true => rw [← hdead]; simp only [linked, if_true, BitVec.getLsbD_or]

theorem retire_jumpLink_strand {s : State} {t : Strand} (h : Issues s t) (rd : BitVec 5) (target : Word) (marks : Bool)
    (ht : targetOk s target = true) : NextStrand s (retire 4 (jumpLink s rd target marks)) t.key (linked t rd target marks) := by
  obtain ⟨hcur, hfind⟩ := h
  have hkey (u : Strand) (hu : u.key = t.key) : (sx u rd.toNat (pcOf s + 4)).key = t.key := by rw [sx_key, hu]
  have hset : xSet s rd (pcOf s + 4) = setStrand s t.key (fun u => sx u rd.toNat (pcOf s + 4)) := by simp only [xSet, hcur]
  rw [jumpLink, transfer_ok ht, hset]
  cases marks with
  | false =>
    simp only [Bool.false_eq_true, if_false, retire, complete, setStrand_cur, hcur]
    rw [setStrand_setStrand s t.key _ _ hkey]
    refine congrArg _ (setStrand_congr hfind ?_)
    rw [pcOf_issues ⟨hcur, hfind⟩]
    rfl
  | true =>
    simp only [if_true, retire, markDead, complete, setStrand_cur, hcur]
    rw [setStrand_setStrand s t.key _ _ hkey, setStrand_setStrand s t.key _ _ (fun u hu => by exact hkey u hu)]
    refine congrArg _ (setStrand_congr hfind ?_)
    rw [pcOf_issues ⟨hcur, hfind⟩, linked, sx_parts]
    rfl

/-- The registers that a call or a return marks dead: those of `deadmask` from x3 on (R100). -/
theorem getLsbD_deadmask (m : Word) {r : ℕ} (hr : r < 32) :
    (m.truncate 32 &&& 0xFFFFFFF8#32).getLsbD r = (2 < r && m.getLsbD r) := by
  have hmask : ∀ r < 32, (0xFFFFFFF8#32).getLsbD r = decide (2 < r) := by decide
  rw [BitVec.getLsbD_and, hmask r hr, BitVec.truncate_eq_setWidth, BitVec.getLsbD_setWidth, decide_eq_true hr, Bool.true_and, Bool.and_comm]

theorem strandJumps_holds : strandJumps := by
  intro s t rd rs1 off imm h marked plain links
  have hlinks (i : Instr) (target : Word) (marks : Bool) (hlen : instrLen i = 4)
      (hi : exec i s = runParty i s (jumpLink s rd target marks)) : links (exec i s) target marks := by
    intro ht
    rw [hi, runParty_strand _ h.1 h.2, hlen]
    refine ⟨linked t rd target marks, retire_jumpLink_strand h rd target marks ht, linked_onlyRegs .., rfl, linked_rep .., linked_lpcount ..,
      fun r _ hr0 => linked_x _ _ _ _ hr0, ?_⟩
    cases marks with
    | false => exact fun r hr => (linked_dead t rd target false hr).trans (Bool.or_false _)
    | true =>
      refine fun r hr => (linked_dead t rd target true hr).trans ?_
      rw [if_pos rfl, getLsbD_deadmask _ hr]
  exact ⟨hlinks _ _ _ rfl (by rw [← pcOf_issues h]; rfl), hlinks _ _ _ rfl rfl⟩

/-- Settles O6: a jump links, marks and goes to its target, of a handler context and of a strand. -/
theorem jumpResults : Obligations.JumpResults := ⟨handlerJumps_holds, strandJumps_holds⟩

end Sys2Proof.Proofs
end

section
/-! PROOFS. The CSR instructions, what a write of a user CSR changes, and the accesses that trap (R104 to R106, R130, R131, R186, R193,
R299). -/

namespace Sys2Proof.Proofs

open Machine Oblig

/-! ### User CSRs -/

/-- A write of a user CSR leaves the strand's name and its registers. -/
theorem putUserCsr_frame {t t1 : Strand} {n : ℕ} {v : Word} (h : putUserCsr t n v = some t1) :
    t1.key = t.key ∧ t1.x = t.x ∧ t1.v = t.v ∧ t1.segs = t.segs ∧ t1.pc = t.pc ∧ t1.dead = t.dead := by
  unfold putUserCsr at h
  split at h
  case h_11 =>
    dsimp only at h
    split at h
    · cases h; exact ⟨rfl, rfl, rfl, rfl, rfl, rfl⟩
    · cases h
  all_goals cases h; exact ⟨rfl, rfl, rfl, rfl, rfl, rfl⟩

/-- What each user CSR holds after a write of one of them. -/
theorem userCsr_putUserCsr {t t1 : Strand} {n m : ℕ} {v : Word} (hn : n ≤ 12) (hm : m ≤ 12) (h : putUserCsr t n v = some t1) :
    userCsr t1 m = if m = n then v &&& csrMask n else if m = 10 ∧ (n = 8 ∨ n = 9) then 0 else userCsr t m := by
  unfold putUserCsr at h
  split at h
  case h_11 =>
    dsimp only at h
    split at h
    · cases h; interval_cases m <;> rfl
    · cases h
  case h_13 =>
    simp only [imp_false] at *
    obtain rfl : n = 12 := by omega
    cases h; interval_cases m <;> rfl
  all_goals cases h; interval_cases m <;> rfl

/-- Settles O18: field by field. -/
theorem csrFields : Obligations.CsrFields := by
  intro t t1 n v hn h
  obtain ⟨-, hx, hv, hsegs, hpc, hdead⟩ := putUserCsr_frame h
  exact ⟨fun m hm => userCsr_putUserCsr hn hm h, hx, hv, hsegs, hpc, hdead⟩

/-- What `ringhead` takes lies within the delivered entries (R299). -/
theorem ringheadOk_of_put {t t1 : Strand} {n : ℕ} {v : Word} (h : putUserCsr t n v = some t1) (hn : n = 10) :
    ringheadOk t (v &&& csrMask 10).toNat = true := by
  unfold putUserCsr at h
  split at h
  case h_11 =>
    dsimp only at h
    split at h
    · next hok => exact hok
    · cases h
  case h_13 _ _ _ _ _ _ _ _ _ _ hne _ => exact absurd hn hne
  all_goals cases hn

theorem putUserCsr_ringhead {t : Strand} {v : Word} (h : ringheadOk t (v.toNat % 2 ^ 32) = false) : putUserCsr t 10 v = none := by
  have hmask : (v &&& csrMask 10).toNat = v.toNat % 2 ^ 32 :=
    (BitVec.toNat_and ..).trans (Nat.and_two_pow_sub_one_eq_mod v.toNat 32)
  cases hput : putUserCsr t 10 v with
  | none => rfl
  | some t1 => rw [← hmask, ringheadOk_of_put hput rfl] at h; cases h

/-! ### The forms that write only where their operand is not x0 or 0 (R104) -/

theorem exec_csrrs {rs1 : BitVec 5} (h : rs1 ≠ 0) (s : State) (rd : BitVec 5) (csr : BitVec 12) :
    exec (.csrrs rd csr rs1) s = csrAccess (.csrrs rd csr rs1) s csr rd (some (fun v => v ||| xGet s rs1)) :=
  congrArg (csrAccess _ s csr rd) (if_neg h)

theorem exec_csrrc {rs1 : BitVec 5} (h : rs1 ≠ 0) (s : State) (rd : BitVec 5) (csr : BitVec 12) :
    exec (.csrrc rd csr rs1) s = csrAccess (.csrrc rd csr rs1) s csr rd (some (fun v => v &&& ~~~(xGet s rs1))) :=
  congrArg (csrAccess _ s csr rd) (if_neg h)

theorem exec_csrrsi {uimm : BitVec 5} (h : uimm ≠ 0) (s : State) (rd : BitVec 5) (csr : BitVec 12) :
    exec (.csrrsi rd csr uimm) s = csrAccess (.csrrsi rd csr uimm) s csr rd (some (fun v => v ||| uimm.setWidth 64)) :=
  congrArg (csrAccess _ s csr rd) (if_neg h)

theorem exec_csrrci {uimm : BitVec 5} (h : uimm ≠ 0) (s : State) (rd : BitVec 5) (csr : BitVec 12) :
    exec (.csrrci rd csr uimm) s = csrAccess (.csrrci rd csr uimm) s csr rd (some (fun v => v &&& ~~~(uimm.setWidth 64))) :=
  congrArg (csrAccess _ s csr rd) (if_neg h)

/-! ### An access of a strand -/

theorem csrAccess_strand {s : State} {t : Strand} (h : Issues s t) (i : Instr) (hlen : instrLen i = 4) (csr : BitVec 12) (rd : BitVec 5)
    (write : Option (Word → Word)) : csrAccess i s csr rd write = retire 4 (strandCsr s t i csr.toNat rd write) := by
  rw [csrAccess, runParty_strand _ h.1 h.2, hlen, h.1]
  simp only [strandOf_eq h.2]

/-- Reading alone. -/
theorem writes_readCsr {s : State} {t : Strand} (h : Issues s t) {i : Instr} {csr : BitVec 12} {old : Word} (hlen : instrLen i = 4)
    (hrange : ¬ (0x5C0 ≤ csr.toNat ∧ csr.toNat ≤ 0x5FF)) (hread : readCsr s t csr.toNat = some old) (rd : BitVec 5) :
    Writes s (csrAccess i s csr rd none) rd old := by
  have hcsr : strandCsr s t i csr.toNat rd none = writeX s rd old := by
    simp only [strandCsr, Bool.and_eq_true, decide_eq_true_eq, if_neg hrange, hread]
  rw [csrAccess_strand h i hlen, hcsr]
  exact writes_writeX (issuing_of_issues h) rd old

/-- Reading, then writing. -/
theorem writes_putCsr {s : State} {t t1 : Strand} (h : Issues s t) {i : Instr} {csr : BitVec 12} {old : Word} {f : Word → Word}
    (hlen : instrLen i = 4) (hrange : ¬ (0x5C0 ≤ csr.toNat ∧ csr.toNat ≤ 0x5FF)) (hread : readCsr s t csr.toNat = some old)
    (hlow : csr.toNat < 0xC00) (hput : putUserCsr t (csr.toNat - 0x800) (f old) = some t1) (rd : BitVec 5) :
    Writes (setStrand s t.key (fun _ => t1)) (csrAccess i s csr rd (some f)) rd old := by
  have hwritable : ¬ (0xC00 ≤ csr.toNat ∧ csr.toNat ≤ 0xCFF) := by omega
  have hcsr : strandCsr s t i csr.toNat rd (some f) = writeX (setStrand s t.key (fun _ => t1)) rd old := by
    simp only [strandCsr, Bool.and_eq_true, decide_eq_true_eq, if_neg hrange, hread, if_neg hwritable, hput]
  have hkey : t1.key = t.key := (putUserCsr_frame hput).1
  have h1 : Issues (setStrand s t.key (fun _ => t1)) t1 := by
    refine ⟨?_, ?_⟩
    · rw [setStrand_cur, h.1, hkey]
    · rw [hkey, findStrand_setStrand s t.key _ (fun _ _ => hkey), h.2]
      rfl
  rw [csrAccess_strand h i hlen, hcsr]
  exact writes_writeX (issuing_of_issues h1) rd old

theorem strandCsrs_holds : strandCsrs := by
  intro s t t1 rd rs1 uimm csr old h hrange hread n x z puts
  have hx : xGet s rs1 = x := xGet_issues h rs1
  have hputs (i : Instr) (f : Word → Word) (hlen : instrLen i = 4) (hi : exec i s = csrAccess i s csr rd (some f)) : puts i (f old) :=
    fun hlow hput => hi ▸ writes_putCsr h hlen hrange hread hlow hput rd
  have hreads (i : Instr) (hlen : instrLen i = 4) (hi : exec i s = csrAccess i s csr rd none) : Writes s (exec i s) rd old :=
    hi ▸ writes_readCsr h hlen hrange hread rd
  refine ⟨hputs _ (fun _ => x) rfl ?_, fun hrs => hputs _ (fun v => v ||| x) rfl ?_, fun hrs => hputs _ (fun v => v &&& ~~~x) rfl ?_,
    hputs _ (fun _ => z) rfl rfl, fun hu => hputs _ (fun v => v ||| z) rfl ?_, fun hu => hputs _ (fun v => v &&& ~~~z) rfl ?_,
    hreads _ rfl rfl, hreads _ rfl rfl, hreads _ rfl rfl, hreads _ rfl rfl⟩
  · rw [← hx]; rfl
  · rw [← hx]; exact exec_csrrs hrs s rd csr
  · rw [← hx]; exact exec_csrrc hrs s rd csr
  · exact exec_csrrsi hu s rd csr
  · exact exec_csrrci hu s rd csr

/-! ### An access of a handler context -/

theorem cur_requestSlot (core i : ℕ) (s : State) : (requestSlot core i s).cur = s.cur := by
  unfold requestSlot
  split
  · rfl
  · dsimp only
    split
    · rfl
    · split <;> rfl

theorem cur_withdrawSlot (core i : ℕ) (s : State) : (withdrawSlot core i s).cur = s.cur := by
  unfold withdrawSlot
  dsimp only
  split
  · split <;> rfl
  · rfl

theorem cur_forCovered {act : ℕ → ℕ → State → State} (hact : ∀ core i s, (act core i s).cur = s.cur) (except : Strand → Bool)
    (manager : Bool) (core i : ℕ) (s : State) : (forCovered act except manager core i s).cur = s.cur := by
  unfold forCovered
  dsimp only
  split
  · exact hact core i s
  · exact foldl_keeps (fun u => u.cur = s.cur) _ _ _ rfl (fun u _ hu => (hact _ _ u).trans hu)

theorem cur_writeReq (s : State) (core v : ℕ) (manager : Bool) : (writeReq s core v manager).cur = s.cur := by
  have hwithdraw (i : ℕ) (u : State) : (withdrawBit core v manager i u).cur = u.cur := by
    unfold withdrawBit
    dsimp only
    split
    · rfl
    · exact cur_forCovered cur_withdrawSlot ..
  have hrequest (i : ℕ) (u : State) : (requestBit core v manager (coreOf s core).req i u).cur = u.cur := by
    unfold requestBit
    split
    · exact cur_forCovered cur_requestSlot ..
    · rfl
  exact forUpTo_keeps (fun u => u.cur = s.cur) _ _ _
    (forUpTo_keeps (fun u => u.cur = s.cur) _ _ _ rfl (fun i u hu => (hwithdraw i u).trans hu)) (fun i u hu => (hrequest i u).trans hu)

theorem cur_writeFltpc {s s1 : State} {core : ℕ} {v : Word} (h : writeFltpc s core v = .ok s1) : s1.cur = s.cur := by
  unfold writeFltpc at h
  split at h
  · cases h; rfl
  · split at h
    · cases h; rfl
    · cases h

theorem cur_writeHandlerCsr {s s1 : State} {core a : ℕ} {v : Word} (h : writeHandlerCsr s core a v = some (.ok s1)) : s1.cur = s.cur := by
  unfold writeHandlerCsr at h
  split at h
  case h_2 => exact cur_writeFltpc (Option.some.inj h)
  case h_4 => cases h; exact cur_writeReq ..
  all_goals cases h
  all_goals rfl

theorem csrAccess_handler {s : State} {c : ℕ} (h : IssuesHandler s c) (i : Instr) (hlen : instrLen i = 4) (csr : BitVec 12)
    (rd : BitVec 5) (write : Option (Word → Word)) :
    csrAccess i s csr rd write = retire 4 (handlerCsr s c i csr.toNat rd write) := by
  rw [csrAccess, runParty_handler _ h, hlen, show s.cur = .handler c from h]

theorem issuing_of_handler {s : State} {c : ℕ} (h : s.cur = .handler c) : issuing s = true := by rw [issuing, h]

theorem handlerCsrs_holds : handlerCsrs := by
  intro s s1 c rd rs1 uimm csr old h hread x z puts
  have hputs (i : Instr) (f : Word → Word) (hlen : instrLen i = 4) (hi : exec i s = csrAccess i s csr rd (some f)) : puts i (f old) := by
    intro hw
    have hcsr : handlerCsr s c i csr.toNat rd (some f) = writeX s1 rd old := by simp only [handlerCsr, hread, hw]
    rw [hi, csrAccess_handler h i hlen, hcsr]
    exact writes_writeX (issuing_of_handler ((cur_writeHandlerCsr hw).trans h)) rd old
  have hreads (i : Instr) (hlen : instrLen i = 4) (hi : exec i s = csrAccess i s csr rd none) : Writes s (exec i s) rd old := by
    have hcsr : handlerCsr s c i csr.toNat rd none = writeX s rd old := by simp only [handlerCsr, hread]
    rw [hi, csrAccess_handler h i hlen, hcsr]
    exact writes_writeX (issuing_of_handler h) rd old
  refine ⟨hputs _ (fun _ => x) rfl rfl, fun hrs => hputs _ (fun v => v ||| x) rfl ?_, fun hrs => hputs _ (fun v => v &&& ~~~x) rfl ?_,
    hputs _ (fun _ => z) rfl rfl, fun hu => hputs _ (fun v => v ||| z) rfl ?_, fun hu => hputs _ (fun v => v &&& ~~~z) rfl ?_,
    hreads _ rfl rfl, hreads _ rfl rfl, hreads _ rfl rfl, hreads _ rfl rfl⟩
  · exact exec_csrrs hrs s rd csr
  · exact exec_csrrc hrs s rd csr
  · exact exec_csrrsi hu s rd csr
  · exact exec_csrrci hu s rd csr

/-- Settles O17: each form is one access, which reads and, where it writes, changes the CSR before it writes rd. -/
theorem csrResults : Obligations.CsrResults := ⟨strandCsrs_holds, handlerCsrs_holds⟩

/-! ### Accesses that trap -/

/-- A strand outside a repetition traps with the parcel that it issues. -/
theorem traps_parcel {s : State} {t : Strand} (h : Issues s t) (hrep : t.rep = none) (i : Instr) (cause : ℕ) :
    Traps s (retire 4 (.trap s (parcelTrap cause s i))) t cause (firstParcel i) false := by
  have hparcel : curParcel s i = firstParcel i := by simp only [curParcel, h.1, strandOf_eq h.2, hrep]
  rw [← hparcel]
  exact traps_trapCur 4 _ h rfl rfl

theorem strandCsr_handlerRange {s : State} {t : Strand} {i : Instr} {a : ℕ} {rd : BitVec 5} {write : Option (Word → Word)}
    (hlo : 0x5C0 ≤ a) (hhi : a ≤ 0x5FF) : strandCsr s t i a rd write = .trap s (parcelTrap cPriv s i) := by
  simp only [strandCsr, hlo, hhi, decide_true, Bool.and_self, if_true]

theorem strandCsr_none {s : State} {t : Strand} {i : Instr} {a : ℕ} {rd : BitVec 5} {write : Option (Word → Word)}
    (hrange : ¬ (0x5C0 ≤ a ∧ a ≤ 0x5FF)) (hread : readCsr s t a = none) : strandCsr s t i a rd write = .trap s (illegal s i) := by
  simp only [strandCsr, Bool.and_eq_true, decide_eq_true_eq, if_neg hrange, hread]

theorem strandCsr_readOnly {s : State} {t : Strand} {i : Instr} {a : ℕ} {rd : BitVec 5} {f : Word → Word}
    (hlo : 0xC00 ≤ a) (hhi : a ≤ 0xCFF) : strandCsr s t i a rd (some f) = .trap s (illegal s i) := by
  have hrange : ¬ (0x5C0 ≤ a ∧ a ≤ 0x5FF) := by omega
  cases hread : readCsr s t a with
  | none => exact strandCsr_none hrange hread
  | some old => simp only [strandCsr, Bool.and_eq_true, decide_eq_true_eq, if_neg hrange, hread, hlo, hhi, and_self, if_true]

theorem strandCsr_ringhead {s : State} {t : Strand} {i : Instr} {rd : BitVec 5} {f : Word → Word}
    (h : ringheadOk t ((f t.ringhead).toNat % 2 ^ 32) = false) : strandCsr s t i 0x80A rd (some f) = .trap s (parcelTrap cEngine s i) := by
  have hread : readCsr s t 0x80A = some t.ringhead := rfl
  simp only [strandCsr, hread, Nat.reduceSub, putUserCsr_ringhead h]
  rfl

/-- Each of the six forms is an access. -/
theorem exec_csrForm {s : State} {rd rs1 uimm : BitVec 5} {csr : BitVec 12} {i : Instr}
    (hi : i ∈ [.csrrw rd csr rs1, .csrrs rd csr rs1, .csrrc rd csr rs1, .csrrwi rd csr uimm, .csrrsi rd csr uimm, .csrrci rd csr uimm]) :
    instrLen i = 4 ∧ ∃ write, exec i s = csrAccess i s csr rd write := by
  simp only [List.mem_cons, List.not_mem_nil, or_false] at hi
  rcases hi with rfl | rfl | rfl | rfl | rfl | rfl
  · exact ⟨rfl, some (fun _ => xGet s rs1), rfl⟩
  · exact ⟨rfl, if rs1 = 0 then none else some (fun v => v ||| xGet s rs1), rfl⟩
  · exact ⟨rfl, if rs1 = 0 then none else some (fun v => v &&& ~~~(xGet s rs1)), rfl⟩
  · exact ⟨rfl, some (fun _ => uimm.setWidth 64), rfl⟩
  · exact ⟨rfl, if uimm = 0 then none else some (fun v => v ||| uimm.setWidth 64), rfl⟩
  · exact ⟨rfl, if uimm = 0 then none else some (fun v => v &&& ~~~(uimm.setWidth 64)), rfl⟩

/-- An access that the strand's CSRs refuse traps. -/
theorem traps_csrAccess {s : State} {t : Strand} (h : Issues s t) (hrep : t.rep = none) {i : Instr} (hlen : instrLen i = 4)
    {csr : BitVec 12} {rd : BitVec 5} {write : Option (Word → Word)} (hi : exec i s = csrAccess i s csr rd write) {cause : ℕ}
    (hc : strandCsr s t i csr.toNat rd write = .trap s (parcelTrap cause s i)) : Traps s (exec i s) t cause (firstParcel i) false := by
  rw [hi, csrAccess_strand h i hlen csr rd write, hc]
  exact traps_parcel h hrep i cause

/-- What bars a write. -/
theorem traps_csrWrite {s : State} {t : Strand} (h : Issues s t) (hrep : t.rep = none) {i : Instr} (hlen : instrLen i = 4)
    {csr : BitVec 12} {rd : BitVec 5} {f : Word → Word} (hi : exec i s = csrAccess i s csr rd (some f)) :
    (0xC00 ≤ csr.toNat → csr.toNat ≤ 0xCFF → Traps s (exec i s) t 0x00 (firstParcel i) false) ∧
    (csr = 0x80A → ringheadOk t ((f t.ringhead).toNat % 2 ^ 32) = false → Traps s (exec i s) t 0x0A (firstParcel i) false) := by
  refine ⟨fun hlo hhi => traps_csrAccess h hrep hlen hi (strandCsr_readOnly hlo hhi), fun hcsr hok => ?_⟩
  refine traps_csrAccess h hrep hlen hi ?_
  rw [hcsr]
  exact strandCsr_ringhead hok

/-- Settles O19: each access that traps is one that the strand's CSRs refuse. -/
theorem csrTraps : Obligations.CsrTraps := by
  intro s t rd rs1 uimm csr h hrep x z traps forms barred
  have hx : x = xGet s rs1 := (xGet_issues h rs1).symm
  refine ⟨fun i hi hlo hhi => ?_, fun i hi hrange hread => ?_, ?_, ?_,
    fun hrs => ⟨?_, ?_⟩, fun hu => ⟨?_, ?_⟩⟩
  · obtain ⟨hlen, write, hexec⟩ := exec_csrForm hi
    exact traps_csrAccess h hrep hlen hexec (strandCsr_handlerRange hlo hhi)
  · obtain ⟨hlen, write, hexec⟩ := exec_csrForm hi
    exact traps_csrAccess h hrep hlen hexec (strandCsr_none hrange hread)
  · exact traps_csrWrite h hrep (f := fun _ => x) rfl (by rw [hx]; rfl)
  · exact traps_csrWrite h hrep (f := fun _ => z) rfl rfl
  · exact traps_csrWrite h hrep (f := fun v => v ||| x) rfl (by rw [hx]; exact exec_csrrs hrs s rd csr)
  · exact traps_csrWrite h hrep (f := fun v => v &&& ~~~x) rfl (by rw [hx]; exact exec_csrrc hrs s rd csr)
  · exact traps_csrWrite h hrep (f := fun v => v ||| z) rfl (exec_csrrsi hu s rd csr)
  · exact traps_csrWrite h hrep (f := fun v => v &&& ~~~z) rfl (exec_csrrci hu s rd csr)

end Sys2Proof.Proofs
end

section
/-! PROOFS. What serving memory leaves of the state: translations, the L1, stores that register, and what it reads and writes at a home
(R110, R123, R316 to R319, R332, R334). -/

namespace Sys2Proof.Proofs

open Machine Oblig

/-! ### What an access to memory leaves -/

/-- A strand without its reservation. -/
def noResv (t : Strand) : Strand := { t with resv := none }

/-- Of a core, only what serves its accesses differs: its L1, its stores, its translations, what drowses, the handler's reservation. -/
def CoreServed (a b : Core) : Prop :=
  b = { a with l1 := b.l1, l1order := b.l1order, stores := b.stores, utlb := b.utlb, drowsy := b.drowsy, lastUse := b.lastUse,
               hresv := b.hresv }

theorem CoreServed.refl (a : Core) : CoreServed a a := rfl

theorem CoreServed.trans {a b c : Core} (h : CoreServed a b) (h' : CoreServed b c) : CoreServed a c := by
  rw [CoreServed] at h h' ⊢
  rw [h', h]

/-- From s to u, memory has been served: of strands only reservations differ, of cores what serves their accesses, of clusters their
translations, and the bytes, their owners and what is due. -/
structure Served (s u : State) : Prop where
  rest : u = { s with
    strands := u.strands, cores := u.cores, clusters := u.clusters, dev := u.dev, host := u.host, spad := u.spad, wbuf := u.wbuf
    devBad := u.devBad, hostBad := u.hostBad, spadBad := u.spadBad, wbufBad := u.wbufBad, owner := u.owner, due := u.due }
  strands : u.strands.map noResv = s.strands.map noResv
  cores : ∀ c, CoreServed (coreOf s c) (coreOf u c)
  clusters : ∀ c, clusterOf u c = { clusterOf s c with tlb := (clusterOf u c).tlb }

theorem Served.refl (s : State) : Served s s := ⟨rfl, rfl, fun _ => rfl, fun _ => rfl⟩

theorem Served.trans {s u v : State} (h : Served s u) (h' : Served u v) : Served s v where
  rest := by
    have hv := h'.rest
    rw [h.rest] at hv
    exact hv
  strands := h'.strands.trans h.strands
  cores := fun c => (h.cores c).trans (h'.cores c)
  clusters := fun c => by rw [h'.clusters c, h.clusters c]

theorem Served.cur {s u : State} (h : Served s u) : u.cur = s.cur := by rw [h.rest]

theorem Served.runs {s u : State} (h : Served s u) : u.runs = s.runs := by rw [h.rest]

theorem findStrand_map_noResv (s : State) (k : StrandKey) :
    (s.strands.map noResv).find? (fun t => decide (t.key = k)) = (findStrand s k).map noResv := by
  rw [List.find?_map]
  rfl

theorem Served.findStrand_map {s u : State} (h : Served s u) (k : StrandKey) :
    (Machine.findStrand u k).map noResv = (Machine.findStrand s k).map noResv := by
  rw [← findStrand_map_noResv, h.strands, findStrand_map_noResv]

/-- A strand that is there stays, but for its reservation. -/
theorem Served.findStrand {s u : State} (h : Served s u) {k : StrandKey} {t : Strand} (ht : Machine.findStrand s k = some t) :
    ∃ r, Machine.findStrand u k = some { t with resv := r } := by
  have hmap := h.findStrand_map k
  rw [ht, Option.map_some, Option.map_eq_some_iff] at hmap
  obtain ⟨t', ht', he⟩ := hmap
  refine ⟨t'.resv, ht'.trans (congrArg some ?_)⟩
  have := congrArg (fun w : Strand => { w with resv := t'.resv }) he
  exact this

theorem Served.isSome_findStrand {s u : State} (h : Served s u) (k : StrandKey) :
    (Machine.findStrand u k).isSome = (Machine.findStrand s k).isSome := by
  simpa using congrArg Option.isSome (h.findStrand_map k)

theorem Served.strandOf {s u : State} (h : Served s u) (k : StrandKey) :
    ∃ r, Machine.strandOf u k = { Machine.strandOf s k with resv := r } := by
  cases ht : Machine.findStrand s k with
  | some t =>
    obtain ⟨r, hr⟩ := h.findStrand ht
    exact ⟨r, by rw [strandOf_eq hr, strandOf_eq ht]⟩
  | none =>
    have hu : Machine.findStrand u k = none := by
      have := h.isSome_findStrand k
      rw [ht] at this
      simpa using this
    exact ⟨none, by simp only [Machine.strandOf, hu, ht, Option.getD_none]⟩

theorem Served.issuing {s u : State} (h : Served s u) : Oblig.issuing u = Oblig.issuing s := by
  simp only [Oblig.issuing, h.cur]
  split
  · exact h.isSome_findStrand _
  · rfl

theorem Served.xGet {s u : State} (h : Served s u) (r : BitVec 5) : Machine.xGet u r = Machine.xGet s r := by
  simp only [Machine.xGet, h.cur]
  split
  · next k _ =>
    obtain ⟨w, hw⟩ := h.strandOf k
    rw [hw]
    exact gx_congr rfl rfl _
  · next c _ => rw [h.cores c]

theorem Served.pcOf {s u : State} (h : Served s u) : Machine.pcOf u = Machine.pcOf s := by
  simp only [Machine.pcOf, h.cur]
  split
  · next k _ =>
    obtain ⟨w, hw⟩ := h.strandOf k
    rw [hw]
  · next c _ => rw [h.cores c]

theorem Served.curCore {s u : State} (h : Served s u) : Machine.curCore u = Machine.curCore s := by
  simp only [Machine.curCore, h.cur]
  split
  · next k _ =>
    obtain ⟨w, hw⟩ := h.strandOf k
    rw [hw]
  · rfl

theorem Served.curKey {s u : State} (h : Served s u) : Machine.curKey u = Machine.curKey s := by
  simp only [Machine.curKey, h.cur]

/-! ### Which operations only serve -/

theorem served_setCore (s : State) (k : ℕ) (f : Core → Core) (h : ∀ c, CoreServed c (f c)) : Served s (setCore s k f) where
  rest := rfl
  strands := rfl
  cores := fun c => by
    rw [coreOf_setCore]
    split
    · next hc => rw [hc]; exact h _
    · rfl
  clusters := fun _ => rfl

theorem served_setCluster_tlb (s : State) (k : ℕ) (f : List TlbEntry → List TlbEntry) :
    Served s (setCluster s k (fun c => { c with tlb := f c.tlb })) where
  rest := rfl
  strands := rfl
  cores := fun _ => rfl
  clusters := fun c => by
    rw [Machine.clusterOf_setCluster]
    split
    · next hc => rw [hc]
    · rfl

theorem tget_map_core (t : Tab Core) (f : Core → Core) (hf : f {} = {}) (c : ℕ) :
    tget {} (t.map (fun e => (e.1, f e.2))) c = f (tget {} t c) := by
  induction t with
  | nil => exact hf.symm
  | cons e t ih =>
    simp only [List.map_cons, tget]
    split
    · rfl
    · exact ih

theorem coreOf_breakResv (s : State) (sp : Space) (a n c : ℕ) :
    coreOf (breakResv s sp a n) c = { coreOf s c with hresv := dropResv sp a n (coreOf s c).hresv } :=
  tget_map_core s.cores (fun x => { x with hresv := dropResv sp a n x.hresv }) rfl c

theorem served_breakResv (s : State) (sp : Space) (a n : ℕ) : Served s (breakResv s sp a n) where
  rest := rfl
  strands := by
    rw [breakResv, List.map_map]
    exact List.map_congr_left (fun _ _ => rfl)
  cores := fun c => by rw [CoreServed, coreOf_breakResv]
  clusters := fun _ => rfl

theorem served_setSpace (s : State) (sp : Space) (t : Tab Byte) : Served s (setSpace s sp t) := by
  cases sp <;> exact ⟨rfl, rfl, fun _ => rfl, fun _ => rfl⟩

theorem served_setBad (s : State) (sp : Space) (t : Tab Bool) : Served s (setBad s sp t) := by
  cases sp <;> exact ⟨rfl, rfl, fun _ => rfl, fun _ => rfl⟩

theorem served_poke (s : State) (sp : Space) (a : ℕ) (bs : List Byte) : Served s (poke s sp a bs) :=
  (served_setSpace s sp _).trans (served_setBad _ sp _)

theorem served_pokeKeep (s : State) (sp : Space) (a : ℕ) (bs : List Byte) : Served s (pokeKeep s sp a bs) := served_setSpace s sp _

theorem served_revoke (s : State) (core word : ℕ) : Served s (revoke s core word) := by
  refine served_setCore s core _ (fun c => ?_)
  split
  · rfl
  · exact .refl c

theorem served_setOwner (s : State) (who a n : ℕ) : Served s (setOwner s who a n) := by
  unfold setOwner
  split
  · exact .refl s
  · refine forUpTo_keeps (Served s) _ _ _ (.refl s) (fun i u hu => ?_)
    have hown : Served s { u with owner := tset 0 u.owner (a / 4 + i) who } := hu.trans ⟨rfl, rfl, fun _ => rfl, fun _ => rfl⟩
    dsimp only
    split
    · exact hown
    · exact hown.trans (served_revoke _ _ _)

theorem served_writeHome (s : State) (sp : Space) (a : ℕ) (bs : List Byte) : Served s (writeHome s sp a bs) := by
  have h := (served_poke s sp a bs).trans (served_breakResv _ sp a bs.length)
  unfold writeHome
  split
  · exact h.trans (served_setOwner _ _ _ _)
  · exact h

theorem served_updateHome (s : State) (sp : Space) (a : ℕ) (bs : List Byte) : Served s (updateHome s sp a bs) := by
  have h := (served_pokeKeep s sp a bs).trans (served_breakResv _ sp a bs.length)
  unfold updateHome
  split
  · exact h.trans (served_setOwner _ _ _ _)
  · exact h

theorem served_wake (s : State) (core : ℕ) (u : PowerUnit) : Served s (wake s core u) := served_setCore s core _ (fun _ => rfl)

theorem served_wakeLoc (s : State) (l : Loc) : Served s (wakeLoc s l) := by
  unfold wakeLoc
  split
  · exact served_wake _ _ _
  · exact .refl s

/-- What every step of a fold serves, the fold serves. -/
theorem served_foldl {α : Type} (f : State → α → State) (hf : ∀ u a, Served u (f u a)) (l : List α) (s : State) : Served s (l.foldl f s) :=
  foldl_keeps (Served s) l s f (.refl s) (fun u a hu => hu.trans (hf u a))

theorem served_wakeRun (s : State) (r : Space × ℕ × ℕ) : Served s (wakeRun s r) := served_foldl _ (fun u _ => served_wakeLoc u _) _ s

/-! ### Translations and loads -/

/-- From s to u, memory has been served, and of its bytes only those of device memory may differ. -/
structure Fetched (s u : State) : Prop extends Served s u where
  bytes : ∀ sp a, sp ≠ .dev → peek u sp a = peek s sp a

theorem Fetched.refl (s : State) : Fetched s s := ⟨.refl s, fun _ _ _ => rfl⟩

theorem Fetched.trans {s u v : State} (h : Fetched s u) (h' : Fetched u v) : Fetched s v :=
  ⟨h.toServed.trans h'.toServed, fun sp a hsp => (h'.bytes sp a hsp).trans (h.bytes sp a hsp)⟩

theorem fetched_setCore (s : State) (k : ℕ) (f : Core → Core) (h : ∀ c, CoreServed c (f c)) : Fetched s (setCore s k f) :=
  ⟨served_setCore s k f h, fun sp _ _ => by cases sp <;> rfl⟩

theorem fetched_setCluster_tlb (s : State) (k : ℕ) (f : List TlbEntry → List TlbEntry) :
    Fetched s (setCluster s k (fun c => { c with tlb := f c.tlb })) :=
  ⟨served_setCluster_tlb s k f, fun sp _ _ => by cases sp <;> rfl⟩

theorem fetched_breakResv (s : State) (sp : Space) (a n : ℕ) : Fetched s (breakResv s sp a n) :=
  ⟨served_breakResv s sp a n, fun _ _ _ => peek_breakResv _ _ _ _ _ _⟩

theorem fetched_setOwner (s : State) (who a n : ℕ) : Fetched s (setOwner s who a n) :=
  ⟨served_setOwner s who a n, fun _ _ _ => peek_setOwner _ _ _ _ _ _⟩

theorem fetched_poke (s : State) (a : ℕ) (bs : List Byte) : Fetched s (poke s .dev a bs) :=
  ⟨served_poke s .dev a bs, fun sp j hsp => by rw [peek_poke, if_neg (fun h => hsp h.1)]⟩

theorem fetched_updateHome (s : State) (a : ℕ) (bs : List Byte) : Fetched s (updateHome s .dev a bs) :=
  ⟨served_updateHome s .dev a bs, fun sp j hsp => by rw [peek_updateHome, if_neg (fun h => hsp h.1)]⟩

theorem fetched_wakeLoc (s : State) (l : Loc) : Fetched s (wakeLoc s l) :=
  ⟨served_wakeLoc s l, fun _ _ _ => (coresOnly_wakeLoc s l).peek _ _⟩

/-- What every step of a fold fetches, the fold fetches. -/
theorem fetched_foldl {α : Type} (f : State → α → State) (hf : ∀ u a, Fetched u (f u a)) (l : List α) (s : State) :
    Fetched s (l.foldl f s) :=
  foldl_keeps (Fetched s) l s f (.refl s) (fun u a hu => hu.trans (hf u a))

theorem fetched_refreshWord (core : ℕ) (s : State) (word : ℕ) : Fetched s (refreshWord core s word) := by
  unfold refreshWord
  split
  · exact fetched_setCore s core _ (fun _ => rfl)
  · exact .refl s

theorem fetched_registerStore (core : ℕ) (s : State) (p : PendStore) : Fetched s (registerStore core s p) := by
  unfold registerStore
  refine Fetched.trans ?_ (fetched_foldl _ (fun u w => fetched_refreshWord core u w) _ _)
  refine Fetched.trans ?_ (fetched_setOwner _ _ _ _)
  refine Fetched.trans ?_ (fetched_breakResv _ _ _ _)
  exact (fetched_setCore s core (fun c => { c with stores := c.stores.erase p }) (fun _ => rfl)).trans (fetched_poke _ _ _)

theorem fetched_registerWhere (s : State) (core : ℕ) (want : PendStore → Bool) : Fetched s (registerWhere s core want) :=
  fetched_foldl _ (fun u p => fetched_registerStore core u p) _ s

theorem fetched_release (s : State) (core : ℕ) (key : StrandKey) : Fetched s (release s core key) := fetched_registerWhere s core _

theorem fetched_acquire (s : State) (core : ℕ) : Fetched s (acquire s core) := fetched_setCore s core _ (fun _ => rfl)

theorem fetched_l1Drop (s : State) (core a n : ℕ) : Fetched s (l1Drop s core a n) := fetched_setCore s core _ (fun _ => rfl)

theorem coreServed_useLine (c : Core) (line : ℕ) : CoreServed c (c.useLine line) := by
  unfold Core.useLine
  dsimp only
  split
  · rfl
  · rfl

theorem fetched_l1Line {core line : ℕ} {ws : List ℕ} {s u : State} (h : l1Line core line ws s = some u) : Fetched s u := by
  unfold l1Line at h
  split at h
  · obtain rfl := Option.some.inj h
    exact fetched_setCore s core _ (fun c => coreServed_useLine c line)
  · dsimp only at h
    split at h
    · cases h
    · obtain rfl := Option.some.inj h
      refine (fetched_registerWhere s core _).trans (fetched_setCore _ core _ (fun c => ?_))
      exact (coreServed_useLine c line).trans rfl

theorem fetched_l1Lines {core : ℕ} {ws : List ℕ} (ls : List ℕ) {s u : State} (h : l1Lines core ws ls s = some u) : Fetched s u := by
  induction ls generalizing s with
  | nil =>
    obtain rfl := Option.some.inj h
    exact .refl _
  | cons l ls ih =>
    rw [l1Lines, Option.bind_eq_some_iff] at h
    obtain ⟨s1, h1, h2⟩ := h
    exact (fetched_l1Line h1).trans (ih h2)

theorem fetched_loadLocs {core : ℕ} {s u : State} {ls : List Loc} {bs : List Byte} (h : loadLocs core s ls = some (bs, u)) :
    Fetched s u ∧ bs.length = ls.length := by
  unfold loadLocs at h
  dsimp only at h
  split at h
  · cases h
  · next s1 h1 =>
    split at h
    · cases h
    · obtain ⟨rfl, rfl⟩ := (Prod.mk.injEq ..).mp (Option.some.inj h)
      exact ⟨(fetched_l1Lines _ h1).trans (fetched_foldl _ fetched_wakeLoc _ _), List.length_map _⟩

theorem fetched_walkPage {s u : State} {die va : ℕ} {sp : Space64} {acc : Access} {host quiet : Bool} {e : TlbEntry}
    (h : walkPage s die sp va acc host quiet = .ok (e, u)) : Fetched s u := by
  unfold walkPage at h
  split at h
  · cases h
  · cases h
  · dsimp only at h
    split at h
    · cases h
    · obtain ⟨-, rfl⟩ := (Prod.mk.injEq ..).mp (Except.ok.inj h)
      split
      · exact fetched_updateHome _ _ _
      · exact .refl s

theorem fetched_cacheTlb (s : State) (cluster : ℕ) (core : Option ℕ) (e : TlbEntry) : Fetched s (cacheTlb s cluster core e) := by
  have hq := fetched_setCluster_tlb s cluster (tlbPutSet e)
  cases core with
  | none => exact hq
  | some k => exact hq.trans (fetched_setCore _ k (fun c => { c with utlb := tlbPut 16 e c.utlb }) (fun _ => rfl))

theorem fetched_translate {s u : State} {cluster va pa : ℕ} {core : Option ℕ} {sp : Space64} {acc : Access} {host quiet : Bool}
    (h : Machine.translate s cluster core sp va acc host quiet = .ok (pa, u)) : Fetched s u := by
  unfold Machine.translate at h
  dsimp only at h
  split at h
  · obtain ⟨-, rfl⟩ := (Prod.mk.injEq ..).mp (Except.ok.inj h)
    cases core with
    | none => exact .refl s
    | some k => exact fetched_setCore s k _ (fun _ => rfl)
  · split at h
    · obtain ⟨-, rfl⟩ := (Prod.mk.injEq ..).mp (Except.ok.inj h)
      exact fetched_cacheTlb s cluster core _
    · split at h
      · cases h
      · next e s2 hw =>
        obtain ⟨-, rfl⟩ := (Prod.mk.injEq ..).mp (Except.ok.inj h)
        exact (fetched_walkPage hw).trans (fetched_cacheTlb s2 cluster core e)

theorem fetched_virtLocs {cluster : ℕ} {core : Option ℕ} {sp : Space64} {acc : Access} {host : Bool} (fuel : ℕ) {s u : State} {va n : ℕ}
    {ea : Word} {ls : List Loc} (h : virtLocs cluster core sp acc host fuel s va ea n = .ok (ls, u)) : Fetched s u := by
  induction fuel generalizing s va ea n ls with
  | zero =>
    obtain ⟨-, rfl⟩ := (Prod.mk.injEq ..).mp (Except.ok.inj h)
    exact .refl s
  | succ fuel ih =>
    unfold virtLocs at h
    split at h
    · obtain ⟨-, rfl⟩ := (Prod.mk.injEq ..).mp (Except.ok.inj h)
      exact .refl s
    · split at h
      · cases h
      · next pa s2 ht =>
        dsimp only at h
        split at h
        · cases h
        · split at h
          · cases h
          · next ls' s3 hv =>
            obtain ⟨-, rfl⟩ := (Prod.mk.injEq ..).mp (Except.ok.inj h)
            exact (fetched_translate ht).trans (ih hv)

theorem unlessHeld_ok {t : Strand} {r : List Loc × State} {ls : List Loc} {u : State} (h : unlessHeld t r = .ok (ls, u)) : r = (ls, u) := by
  unfold unlessHeld at h
  split at h
  · cases h
  · exact Except.ok.inj h

theorem fetched_locate {s u : State} {t : Strand} {ea : Word} {n : ℕ} {acc : Access} {ls : List Loc}
    (h : locate s t ea n acc = .ok (ls, u)) : Fetched s u := by
  unfold locate at h
  split at h
  · cases h
  · obtain ⟨-, rfl⟩ := (Prod.mk.injEq ..).mp (unlessHeld_ok h)
    exact .refl s
  · split at h
    · cases h
    · next r hv =>
      rw [unlessHeld_ok h] at hv
      exact fetched_virtLocs _ hv
  · cases h

theorem fetched_locateHandler {s u : State} {core : ℕ} {ea : Word} {n : ℕ} {acc : Access} {ls : List Loc}
    (h : locateHandler s core ea n acc = .ok (ls, u)) : Fetched s u := by
  unfold locateHandler at h
  split at h
  · cases h
  · exact fetched_virtLocs _ h

theorem fetched_locateCur {s u : State} {ea : Word} {n : ℕ} {acc : Access} {ls : List Loc}
    (h : locateCur s ea n acc = .ok (ls, u)) : Fetched s u := by
  unfold locateCur at h
  split at h
  · exact fetched_locate h
  · exact fetched_locateHandler h

/-- A load of the party translates, and loads the located bytes. -/
theorem loadCur_ok {s u : State} {ea : Word} {n : ℕ} {bs : List Byte} (h : loadCur s ea n = .ok (bs, u)) :
    ∃ ls s1, locateCur s ea n .load = .ok (ls, s1) ∧ loadLocs (curCore s) s1 ls = some (bs, u) := by
  unfold loadCur at h
  split at h
  · cases h
  · next ls s1 hl =>
    split at h
    · cases h
    · next r hr => exact ⟨ls, s1, hl, hr.trans (congrArg some (Except.ok.inj h))⟩

theorem fetched_loadCur {s u : State} {ea : Word} {n : ℕ} {bs : List Byte} (h : loadCur s ea n = .ok (bs, u)) : Fetched s u := by
  obtain ⟨ls, s1, hl, hr⟩ := loadCur_ok h
  exact (fetched_locateCur hl).trans (fetched_loadLocs hr).1



/-! ### Stores -/

theorem served_storeRun (core : ℕ) (key : StrandKey) (s : State) (sp : Space) (a : ℕ) (bs : List Byte) :
    Served s (storeRun core key s sp a bs) := by
  have hhome : Served s (wakeRun (writeHome s sp a bs) (sp, a, bs.length)) := (served_writeHome s sp a bs).trans (served_wakeRun _ _)
  cases sp with
  | dev =>
    refine Served.trans (served_setCore s core (fun c => { c with l1 := l1Store.go c.l1 a bs }) (fun _ => rfl)) ?_
    refine Served.trans (served_setCore _ core (fun c => { c with
      stores := c.stores ++ [{ key := key, pa := a, data := bs }]
      hresv := if key = handlerKey core then dropResv .dev a bs.length c.hresv else c.hresv }) (fun _ => rfl)) ?_
    refine ⟨rfl, ?_, fun _ => rfl, fun _ => rfl⟩
    refine (List.map_map ..).trans (List.map_congr_left (fun t _ => ?_))
    simp only [Function.comp_apply]
    split
    · rfl
    · rfl
  | host => exact hhome
  | spad => exact hhome
  | wbuf => exact hhome

theorem served_writeRuns (f : State → Space → ℕ → List Byte → State) (hf : ∀ s sp a bs, Served s (f s sp a bs))
    (rs : List (Space × ℕ × ℕ)) (bs : List Byte) (s : State) : Served s (writeRuns f rs bs s) := by
  induction rs generalizing bs s with
  | nil => exact .refl s
  | cons r rs ih =>
    obtain ⟨sp, a, n⟩ := r
    exact (hf s sp a _).trans (ih _ _)

theorem served_storeLocs (s : State) (core : ℕ) (key : StrandKey) (ls : List Loc) (bs : List Byte) : Served s (storeLocs s core key ls bs) :=
  served_writeRuns _ (served_storeRun core key) _ _ _

theorem served_storeCur {s u : State} {ea : Word} {bs : List Byte} (h : storeCur s ea bs = .ok u) : Served s u := by
  unfold storeCur at h
  split at h
  · cases h
  · next ls s1 hl =>
    obtain rfl := Except.ok.inj h
    exact (fetched_locateCur hl).toServed.trans (served_storeLocs _ _ _ _ _)

end Sys2Proof.Proofs
end

section
/-! PROOFS. Loads and stores of the party that issues (R110, R120, R121). -/

namespace Sys2Proof.Proofs

open Machine Oblig

/-! ### How many bytes are located -/

/-- A translation that may take as many pages as the bytes touch locates every byte. -/
theorem length_virtLocs {cluster : ℕ} {core : Option ℕ} {sp : Space64} {acc : Access} {host : Bool} (fuel : ℕ) {s u : State} {va n : ℕ}
    {ea : Word} {ls : List Loc} (hfuel : n = 0 ∨ va % 2 ^ 19 + n ≤ fuel * 2 ^ 19) (h : virtLocs cluster core sp acc host fuel s va ea n = .ok (ls, u)) :
    ls.length = n := by
  induction fuel generalizing s u va ea n ls with
  | zero =>
    obtain ⟨rfl, -⟩ := (Prod.mk.injEq ..).mp (Except.ok.inj h)
    rw [List.length_nil]
    omega
  | succ fuel ih =>
    unfold virtLocs at h
    split at h
    · next hn =>
      obtain ⟨rfl, -⟩ := (Prod.mk.injEq ..).mp (Except.ok.inj h)
      exact hn.symm
    · split at h
      · cases h
      · dsimp only at h
        split at h
        · cases h
        · split at h
          · cases h
          · next ls' s3 hv =>
            obtain ⟨rfl, -⟩ := (Prod.mk.injEq ..).mp (Except.ok.inj h)
            have hfuel' : n - min n (pageRest va) = 0 ∨
                (va + min n (pageRest va)) % 2 ^ 19 + (n - min n (pageRest va)) ≤ fuel * 2 ^ 19 := by
              unfold pageRest
              omega
            have hrest := ih hfuel' hv
            rw [List.length_append, tabulate_eq, List.length_map, List.length_range, hrest]
            omega

theorem length_locateCur {s u : State} {ea : Word} {n : ℕ} {acc : Access} {ls : List Loc} (hn : n ≤ 2 ^ 19)
    (h : locateCur s ea n acc = .ok (ls, u)) : ls.length = n := by
  unfold locateCur at h
  split at h
  · unfold locate at h
    split at h
    · cases h
    · obtain ⟨rfl, -⟩ := (Prod.mk.injEq ..).mp (unlessHeld_ok h)
      exact scratchLocs_length ..
    · split at h
      · cases h
      · next r hv =>
        rw [unlessHeld_ok h] at hv
        exact length_virtLocs _ (by omega) hv
    · cases h
  · unfold locateHandler at h
    split at h
    · cases h
    · exact length_virtLocs _ (by omega) h

theorem length_loadCur {s u : State} {ea : Word} {n : ℕ} {bs : List Byte} (hn : n ≤ 2 ^ 19) (h : loadCur s ea n = .ok (bs, u)) :
    bs.length = n := by
  obtain ⟨ls, s1, hl, hr⟩ := loadCur_ok h
  rw [(fetched_loadLocs hr).2, length_locateCur hn hl]

/-! ### Numbers of bytes -/

theorem leNat_lt (bs : List Byte) : leNat bs < 2 ^ (8 * bs.length) := by
  induction bs with
  | nil => decide
  | cons b bs ih =>
    have hb := b.isLt
    rw [leNat, List.length_cons, mul_add, pow_add]
    omega

/-- SignExtend of R14 as an extension of a word of w bits. -/
theorem sext_eq_signExtend {w : ℕ} (hw : 0 < w) (v : ℕ) : sext w v = (BitVec.ofNat w v).signExtend 64 := by
  have hpow : 2 ^ w = 2 * 2 ^ (w - 1) := by rw [← Nat.pow_succ', Nat.succ_eq_add_one, Nat.sub_add_cancel hw]
  rw [sext, BitVec.signExtend, BitVec.toInt_eq_toNat_cond, BitVec.toNat_ofNat]
  refine congrArg _ ?_
  simp only [sint]
  refine if_congr ?_ rfl rfl
  generalize v % 2 ^ w = u
  omega

theorem sext_64 {v : ℕ} : sext 64 v = BitVec.ofNat 64 v := by
  rw [sext_eq_signExtend (by decide), BitVec.signExtend_eq]

/-! ### The loads and the stores -/

/-- A load writes the bytes that translation and memory give. -/
theorem writes_loadX {s u : State} {ea : Word} {n : ℕ} {bs : List Byte} (h : issuing s = true) (hw : curWindow s ea = none)
    (hl : loadCur s ea n = .ok (bs, u)) {i : Instr} (hlen : instrLen i = 4) (rd : BitVec 5) (signed : Bool) :
    Writes u (runParty i s (loadX s rd ea n signed)) rd (if signed then sext (8 * n) (leNat bs) else BitVec.ofNat 64 (leNat bs)) := by
  have hload : loadX s rd ea n signed =
      writeX u rd (if signed then sext (8 * n) (leNat bs) else BitVec.ofNat 64 (leNat bs)) := by
    simp only [loadX, hw, hl]
  rw [runParty_issuing h, hlen, hload]
  exact writes_writeX ((fetched_loadCur hl).issuing.trans h) rd _

/-- The bytes of a load, zero-extended. -/
theorem ofNat_leNat_eq_setWidth {s u : State} {ea : Word} {n : ℕ} {bs : List Byte} (hn : n ≤ 8) (hl : loadCur s ea n = .ok (bs, u)) :
    BitVec.ofNat 64 (leNat bs) = (BitVec.ofNat (8 * n) (leNat bs)).setWidth 64 := by
  have hlt := leNat_lt bs
  rw [length_loadCur (by omega) hl] at hlt
  refine BitVec.eq_of_toNat_eq ?_
  rw [BitVec.toNat_setWidth, BitVec.toNat_ofNat, BitVec.toNat_ofNat, Nat.mod_eq_of_lt hlt]

theorem loads_write : loadRegisters := by
  intro s u rd rs1 imm bs h
  have signed {n : ℕ} (hn : 0 < n) {i : Instr} (hlen : instrLen i = 4)
      (hl : curWindow s (eaOf s rs1 imm) = none ∧ loadCur s (eaOf s rs1 imm) n = .ok (bs, u)) :
      Writes u (runParty i s (loadX s rd (eaOf s rs1 imm) n true)) rd ((BitVec.ofNat (8 * n) (leNat bs)).signExtend 64) := by
    rw [← sext_eq_signExtend (by omega)]
    exact writes_loadX h hl.1 hl.2 hlen rd true
  have unsigned {n : ℕ} (hn : n ≤ 8) {i : Instr} (hlen : instrLen i = 4)
      (hl : curWindow s (eaOf s rs1 imm) = none ∧ loadCur s (eaOf s rs1 imm) n = .ok (bs, u)) :
      Writes u (runParty i s (loadX s rd (eaOf s rs1 imm) n false)) rd ((BitVec.ofNat (8 * n) (leNat bs)).setWidth 64) := by
    rw [← ofNat_leNat_eq_setWidth hn hl.2]
    exact writes_loadX h hl.1 hl.2 hlen rd false
  refine ⟨fun hl => ⟨signed (by decide) rfl hl, unsigned (by decide) rfl hl⟩, fun hl => ⟨signed (by decide) rfl hl, unsigned (by decide) rfl hl⟩,
    fun hl => ⟨signed (by decide) rfl hl, unsigned (by decide) rfl hl⟩, fun hl => ?_⟩
  rw [← sext_64]
  exact writes_loadX h hl.1 hl.2 rfl rd true

/-- What a load leaves: translations, the L1 and the words that registered. -/
theorem loads_leave : loadFrame := by
  intro s u ea n bs hn hl
  have hf := fetched_loadCur hl
  refine ⟨length_loadCur (by omega) hl, hf.cur, hf.xGet, hf.pcOf, fun k t ht => ?_, fun c => ?_, hf.bytes⟩
  · obtain ⟨r, hr⟩ := hf.findStrand ht
    exact ⟨_, hr, rfl, rfl⟩
  · rw [hf.cores c]

/-- Settles O10: a load is a fetch of its bytes and one register written. -/
theorem loadResults : Obligations.LoadResults := ⟨loads_write, loads_leave⟩

theorem skips_storeX {s u : State} {ea v : Word} {n : ℕ} (h : issuing s = true)
    (hs : curWindow s ea = none ∧ storeCur s ea (leBytes n v.toNat) = .ok u) {i : Instr} (hlen : instrLen i = 4) :
    Skips u (runParty i s (storeX s ea n v)) 4 := by
  have hstore : storeX s ea n v = .ok u .seq := by simp only [storeX, hs.1, hs.2]
  rw [runParty_issuing h, hlen, hstore]
  exact skips_seq ((served_storeCur hs.2).issuing.trans h) 4

/-- Settles O12: each form stores the low bytes of its source, and the party goes on. -/
theorem storeResults : Obligations.StoreResults := by
  intro s u rs1 rs2 imm h
  exact ⟨fun hs => skips_storeX h hs rfl, fun hs => skips_storeX h hs rfl, fun hs => skips_storeX h hs rfl, fun hs => skips_storeX h hs rfl⟩

end Sys2Proof.Proofs
end

section
/-! PROOFS. Loads from a strand's scratchpad, and stores into it (R107, R110, R111, R120, R190, R320). -/

namespace Sys2Proof.Proofs

open Machine Oblig

/-! ### Steps from a state in which the party is as it was -/

theorem peek_setCore (s : State) (k : ℕ) (g : Core → Core) (sp : Space) (a : ℕ) : peek (setCore s k g) sp a = peek s sp a := by
  cases sp <;> rfl

theorem SameParty.refl (t : Strand) : SameParty t t := ⟨rfl, rfl, rfl, rfl, rfl, rfl, rfl, rfl⟩

theorem SameFlow.trans {t u v : Strand} (h : SameFlow t u) (h' : SameFlow u v) : SameFlow t v := by
  obtain ⟨hpc, hcount, hend, hstart, hrep⟩ := h
  obtain ⟨hpc', hcount', hend', hstart', hrep'⟩ := h'
  exact ⟨hpc'.trans hpc, hcount'.trans hcount, hend'.trans hend, hstart'.trans hstart, hrep'.trans hrep⟩

theorem SameParty.trans {t u v : Strand} (h : SameParty t u) (h' : SameParty u v) : SameParty t v :=
  ⟨h'.x.trans h.x, h'.dead.trans h.dead, h'.life.trans h.life, h.flow.trans h'.flow⟩

/-- Where a strand goes on does not depend on what an instruction writes beside the flow of control. -/
theorem goesOn_congr {t u t' : Strand} {len : ℕ} (h : SameFlow t u) (hgo : GoesOn u t' len) : GoesOn t t' len := by
  obtain ⟨hpc, hcount, hend, hstart, hrep⟩ := h
  intro hnone
  have := hgo (hrep.trans hnone)
  simp only [seqPc, seqCount, endsBody, hpc, hcount, hend, hstart] at this ⊢
  exact this

/-- From s to u, the party that issues keeps its registers, its life and its place. -/
structure PartyKept (s u : State) : Prop where
  cur : u.cur = s.cur
  strand : ∀ k t, s.cur = .strand k → findStrand s k = some t → ∃ t', findStrand u k = some t' ∧ SameParty t t'
  handler : ∀ c, s.cur = .handler c → (coreOf u c).hx = (coreOf s c).hx ∧ (coreOf u c).hpc = (coreOf s c).hpc

theorem PartyKept.refl (s : State) : PartyKept s s := ⟨rfl, fun _ t _ ht => ⟨t, ht, .refl t⟩, fun _ _ => ⟨rfl, rfl⟩⟩

theorem PartyKept.trans {s u v : State} (h : PartyKept s u) (h' : PartyKept u v) : PartyKept s v where
  cur := h'.cur.trans h.cur
  strand := fun k t hs ht => by
    obtain ⟨t1, ht1, hsame⟩ := h.strand k t hs ht
    obtain ⟨t2, ht2, hsame'⟩ := h'.strand k t1 (h.cur.trans hs) ht1
    exact ⟨t2, ht2, hsame.trans hsame'⟩
  handler := fun c hs => by
    obtain ⟨hx, hpc⟩ := h.handler c hs
    obtain ⟨hx', hpc'⟩ := h'.handler c (h.cur.trans hs)
    exact ⟨hx'.trans hx, hpc'.trans hpc⟩

theorem Served.partyKept {s u : State} (h : Served s u) : PartyKept s u where
  cur := h.cur
  strand := fun k t _ ht => by
    obtain ⟨r, hr⟩ := h.findStrand ht
    exact ⟨_, hr, rfl, rfl, rfl, rfl, rfl, rfl, rfl, rfl⟩
  handler := fun c _ => by
    rw [h.cores c]
    exact ⟨rfl, rfl⟩

/-- A strand changes beside its registers, its life and its place. -/
theorem partyKept_setStrand (s : State) (k : StrandKey) (f : Strand → Strand) (hkey : ∀ t, (f t).key = t.key) (h : ∀ t, SameParty t (f t)) :
    PartyKept s (setStrand s k f) where
  cur := setStrand_cur ..
  strand := fun j t _ ht => by
    have hk : ∀ u : Strand, u.key = k → (f u).key = k := fun u hu => (hkey u).trans hu
    by_cases hj : j = k
    · subst hj
      exact ⟨f t, by rw [findStrand_setStrand s j f hk, ht]; rfl, h t⟩
    · exact ⟨t, by rw [findStrand_setStrand_ne s f hk hj]; exact ht, .refl t⟩
  handler := fun _ _ => ⟨rfl, rfl⟩

theorem PartyKept.issuing {s u : State} (h : PartyKept s u) (hs : Oblig.issuing s = true) : Oblig.issuing u = true := by
  simp only [Oblig.issuing, h.cur] at hs ⊢
  split at hs
  · next k hk =>
    obtain ⟨t, ht⟩ := Option.isSome_iff_exists.mp hs
    obtain ⟨t', ht', -⟩ := h.strand k t hk ht
    rw [ht', Option.isSome_some]
  · rfl

theorem PartyKept.xGet {s u : State} (h : PartyKept s u) (hs : Oblig.issuing s = true) (r : BitVec 5) : Machine.xGet u r = Machine.xGet s r := by
  simp only [Oblig.issuing, Machine.xGet, h.cur] at hs ⊢
  split at hs
  · next k hk =>
    obtain ⟨t, ht⟩ := Option.isSome_iff_exists.mp hs
    obtain ⟨t', ht', hsame⟩ := h.strand k t hk ht
    rw [strandOf_eq ht, strandOf_eq ht']
    exact gx_congr hsame.x hsame.dead _
  · next c hc => rw [(h.handler c hc).1]

theorem key_of_onlyRegs {t t' : Strand} (h : OnlyRegs t t') : t'.key = t.key := by
  rw [OnlyRegs] at h
  rw [h]

theorem onlyRegs_of_onlyFlow {t t' : Strand} (h : OnlyFlow t t') : OnlyRegs t t' := by
  rw [OnlyFlow] at h
  rw [OnlyRegs, h]

/-- A strand that has become another one, of its key. -/
theorem findStrand_set {s : State} {k : StrandKey} {t t' : Strand} (ht : findStrand s k = some t) (hkey : t'.key = t.key) :
    findStrand (setStrand s k (fun _ => t')) k = some t' := by
  rw [findStrand_setStrand s k _ (fun _ _ => hkey.trans (findStrand_key ht)), ht]
  rfl

/-- A register written in a state in which the party is as it was is one step. -/
theorem regStep_of_partyKept {s u : State} {o : Answer} {rd : BitVec 5} {v : Word} (h : issuing s = true) (hu : PartyKept s u)
    (hw : Writes u o rd v) : ∃ w, o = .next w ∧ RegStep s w rd v 4 ∧ SameBytes u w := by
  obtain ⟨w, ho, hcur, hregs, hparty⟩ := hw
  rw [hu.cur] at hcur hparty
  refine ⟨w, ho, ?_⟩
  have hread (r : BitVec 5) := (hregs r).trans (by rw [hu.xGet h] : _ = if r = rd ∧ rd ≠ 0 then v else xGet s r)
  cases hs : s.cur with
  | strand k =>
    simp only [issuing, hs] at h
    obtain ⟨t, ht⟩ := Option.isSome_iff_exists.mp h
    obtain ⟨t1, ht1, hsame⟩ := hu.strand k t hs ht
    simp only [hs, ht1, Option.some.injEq] at hparty
    obtain ⟨_, t', rfl, rfl, honly, hgo, -⟩ := hparty
    refine ⟨⟨hcur, hread, ?_⟩, fun sp a => peek_setStrand ..⟩
    simp only [hs]
    refine ⟨t, t', ht, findStrand_set ht1 (key_of_onlyRegs honly), goesOn_congr hsame.flow hgo, ?_⟩
    rw [OnlyRegs] at honly
    rw [honly]
    exact hsame.life
  | handler c =>
    simp only [hs] at hparty
    obtain ⟨h, rfl, hh⟩ := hparty
    refine ⟨⟨hcur, hread, ?_⟩, fun sp a => peek_setCore ..⟩
    simp only [hs, Machine.coreOf_setCore, if_true]
    exact (congrArg Core.hpc hh).trans (congrArg (· + 4) (hu.handler c hs).2)

/-- Going on in a state in which the party is as it was is one step. -/
theorem plainStep_of_partyKept {s u : State} {o : Answer} {len : ℕ} (h : issuing s = true) (hu : PartyKept s u) (hw : Skips u o len) :
    ∃ w, o = .next w ∧ PlainStep s w len ∧ SameBytes u w := by
  have hplain {w : State} (hcur : w.cur = s.cur) (hx : ∀ r, xGet w r = xGet u r)
      (hflow : match s.cur with
        | .strand k => ∃ t t', findStrand s k = some t ∧ findStrand w k = some t' ∧ GoesOn t t' len ∧ t'.life = t.life
        | .handler c => (coreOf w c).hpc = (coreOf s c).hpc + BitVec.ofNat 64 len) : PlainStep s w len :=
    ⟨hcur, fun r => by rw [hx, hu.xGet h, if_neg (fun hr => hr.2 rfl)], hflow⟩
  rw [Skips, hu.cur] at hw
  cases hs : s.cur with
  | strand k =>
    have hi := h
    simp only [issuing, hs] at hi
    obtain ⟨t, ht⟩ := Option.isSome_iff_exists.mp hi
    obtain ⟨t1, ht1, hsame⟩ := hu.strand k t hs ht
    simp only [hs, ht1, Option.some.injEq] at hw
    obtain ⟨_, t', rfl, hnext, honly, hgo⟩ := hw
    have hfind := findStrand_set ht1 (key_of_onlyRegs (onlyRegs_of_onlyFlow honly))
    rw [OnlyFlow] at honly
    refine ⟨_, hnext, hplain ((setStrand_cur ..).trans hu.cur) (fun r => ?_) ?_, fun sp a => peek_setStrand ..⟩
    · simp only [xGet, setStrand_cur, hu.cur, hs, strandOf_eq hfind, strandOf_eq ht1]
      rw [honly]
      exact gx_congr rfl rfl _
    · simp only [hs]
      refine ⟨t, t', ht, hfind, goesOn_congr hsame.flow hgo, ?_⟩
      rw [honly]
      exact hsame.life
  | handler c =>
    simp only [hs] at hw
    refine ⟨_, hw, hplain hu.cur (fun r => ?_) ?_, fun sp a => peek_setCore ..⟩
    · simp only [xGet, setCore_cur, hu.cur, hs, Machine.coreOf_setCore, if_true]
    · simp only [hs, Machine.coreOf_setCore, if_true, (hu.handler c hs).2]

theorem CoresOnly.sameBytes {s u : State} (h : CoresOnly s u) : SameBytes s u := h.peek

/-! ### Where the bytes of a scratchpad access lie -/

theorem heldAt_of_writesHeld {s : State} {t : Strand} (h : writesHeld s t = false) (ls : List Loc) : heldAt s t ls = false := by
  unfold writesHeld runOf at h
  unfold heldAt
  cases hr : s.runs[t.key.run]? with
  | none => rfl
  | some r =>
    rw [hr, Option.getD_some] at h
    rw [Option.any_some, List.any_eq_false]
    intro p hp hboth
    exact List.any_eq_false.mp h p hp (by simpa using (Bool.and_eq_true_iff.mp hboth).1)

/-- A scratchpad access within LIMIT and the granules is located where R111 puts it. -/
theorem locateCur_scratch {s : State} {t : Strand} {ea : Word} {n : ℕ} {acc : Access} (h : Issues s t) (hheld : writesHeld s t = false)
    (hk : dKind (segOf t ea) = 1) (hp : permits (segOf t ea) acc = true) (hlim : offOf ea + n ≤ dLimit (segOf t ea) + 1)
    (hg : (offOf ea + n - 1) / 12288 < t.granules.length) :
    locateCur s ea n acc = .ok (scratchLocs t.core t.granules (offOf ea) n, s) := by
  have hseg : segCheck t ea n acc false false = .ok (.scratch (offOf ea)) := by
    have hgran : ¬ ((n ≠ 0 && t.granules.length ≤ (offOf ea + n - 1) / Config.granule) = true) := by
      simp only [Bool.and_eq_true, decide_eq_true_eq, not_and, not_le]
      exact fun _ => hg
    unfold segCheck
    simp only [hp, hk, Bool.not_true, Bool.false_eq_true, if_false, if_neg (show ¬ dLimit (segOf t ea) + 1 < offOf ea + n by omega), if_neg hgran]
    rfl
  simp only [locateCur, h.1, strandOf_eq h.2, locate, hseg, unlessHeld, heldAt_of_writesHeld hheld]
  rfl

theorem curWindow_strand {s : State} {t : Strand} (h : Issues s t) (ea : Word) : curWindow s ea = none := by
  simp only [curWindow, h.1]

theorem issuing_of_strand {s : State} {t : Strand} (h : Issues s t) : issuing s = true := by
  simp only [issuing, h.1, h.2, Option.isSome_some]

/-! ### Loads -/

/-- Located scratchpad bytes without poison are loaded as they stand. -/
theorem loadLocs_of_spad {s : State} {core : ℕ} {ls : List Loc} (hls : ∀ l ∈ ls, l.1 = .spad)
    (hp : ∀ l ∈ ls, poisoned s .spad l.2 1 = false) :
    loadLocs core s ls = some (ls.map (fun l => peek s .spad l.2), ls.foldl wakeLoc s) := by
  have hlines : l1Lines core [] ((([] : List ℕ).map (· / 8)).eraseDups) s = some s := rfl
  have hbad : ls.any (fun l => decide (l.1 ≠ .dev) && poisoned s l.1 l.2 1) = false := by
    rw [List.any_eq_false]
    intro l hl
    rw [hls l hl, hp l hl, Bool.and_false]
    decide
  simp only [loadLocs, devWords_of_spad hls, hlines, hbad, Bool.false_eq_true, if_false]
  refine congrArg (fun bs => some (bs, ls.foldl wakeLoc s)) (List.map_congr_left (fun l hl => ?_))
  rw [loadByte, hls l hl, if_neg (by decide)]

section
variable {s : State} {t : Strand} {ea : Word} {n : ℕ} (h : Issues s t) (hheld : writesHeld s t = false)
  (hk : dKind (segOf t ea) = 1) (hlim : offOf ea + n ≤ dLimit (segOf t ea) + 1) (hg : (offOf ea + n - 1) / 12288 < t.granules.length)
include h hheld hk hlim hg

theorem loadCur_scratch (hr : dR (segOf t ea) = true)
    (hp : ∀ i < n, poisoned s .spad (scratchAddr t.core t.granules (offOf ea + i)) 1 = false) :
    ∃ u, CoresOnly s u ∧
      loadCur s ea n = .ok ((List.range n).map (fun i => peek s .spad (scratchAddr t.core t.granules (offOf ea + i))), u) := by
  refine ⟨_, CoresOnly.foldl _ coresOnly_wakeLoc (scratchLocs t.core t.granules (offOf ea) n), ?_⟩
  have hload := loadLocs_of_spad (s := s) (core := curCore s) (ls := scratchLocs t.core t.granules (offOf ea) n)
    (fun l hl => spad_of_mem_scratchLocs hl) (fun l hl => by
      rw [scratchLocs_eq, List.mem_map] at hl
      obtain ⟨i, hi, rfl⟩ := hl
      exact hp i (List.mem_range.mp hi))
  simp only [loadCur, locateCur_scratch h hheld hk (acc := .load) hr hlim hg, hload]
  rw [scratchLocs_eq, List.map_map]
  rfl

/-- A load from the scratchpad writes the bytes of its granules. -/
theorem regStep_loadX_scratch (hr : dR (segOf t ea) = true)
    (hp : ∀ i < n, poisoned s .spad (scratchAddr t.core t.granules (offOf ea + i)) 1 = false) {i : Instr} (hlen : instrLen i = 4)
    (rd : BitVec 5) (signed : Bool) :
    let v := leNat ((List.range n).map (fun i => peek s .spad (scratchAddr t.core t.granules (offOf ea + i))))
    ∃ u, runParty i s (loadX s rd ea n signed) = .next u ∧ SameBytes s u ∧
      RegStep s u rd (if signed then sext (8 * n) v else BitVec.ofNat 64 v) 4 := by
  obtain ⟨u, hu, hload⟩ := loadCur_scratch h hheld hk hlim hg hr hp
  have hw := writes_loadX (issuing_of_strand h) (curWindow_strand h ea) hload hlen rd signed
  obtain ⟨w, ho, hstep, hsame⟩ := regStep_of_partyKept (issuing_of_strand h) (fetched_loadCur hload).toServed.partyKept hw
  exact ⟨w, ho, sameBytes_trans hu.sameBytes hsame, hstep⟩

end

/-- Settles O11: the bytes are located by R111, and each form loads them as they stand. -/
theorem scratchLoad : Obligations.ScratchLoad := by
  intro s t rd rs1 imm h hheld ea d off home loads
  have hea : eaOf s rs1 imm = ea := by rw [eaOf, xGet_issues h]; rfl
  have load {n : ℕ} {i : Instr} (hlen : instrLen i = 4) (signed : Bool) {value : ℕ → Word}
      (hv : ∀ v, (if signed then sext (8 * n) v else BitVec.ofNat 64 v) = value v) :
      loads n (runParty i s (loadX s rd (eaOf s rs1 imm) n signed)) value := by
    intro hk hr hlim hg hp
    rw [hea, ← hv]
    exact regStep_loadX_scratch h hheld hk hlim hg hr hp hlen rd signed
  exact ⟨load rfl true (sext_eq_signExtend (by decide)), load rfl false (fun _ => rfl), load rfl true (sext_eq_signExtend (by decide)),
    load rfl false (fun _ => rfl), load rfl true (sext_eq_signExtend (by decide)), load rfl false (fun _ => rfl), load rfl true (fun _ => sext_64)⟩

/-! ### Stores -/

theorem peek_wakeRun (s : State) (r : Space × ℕ × ℕ) (sp : Space) (a : ℕ) : peek (wakeRun s r) sp a = peek s sp a :=
  (CoresOnly.foldl (s := s) _ (fun u _ => coresOnly_wakeLoc u _) _).peek sp a

/-- A run of scratchpad bytes that a party stores reads as an engine's write of it. -/
theorem sameBytes_storeRun_spad (core : ℕ) (key : StrandKey) {s u : State} (hsu : SameBytes s u) (a : ℕ) (bs : List Byte) :
    SameBytes (writeHome s .spad a bs) (storeRun core key u .spad a bs) := by
  intro sp j
  refine (peek_wakeRun ..).trans ?_
  rw [peek_writeHome, peek_writeHome, hsu]

theorem sameBytes_writeRuns_spad (core : ℕ) (key : StrandKey) (rs : List (Space × ℕ × ℕ)) (hrs : ∀ r ∈ rs, r.1 = .spad) (bs : List Byte)
    {s u : State} (hsu : SameBytes s u) : SameBytes (writeRuns writeHome rs bs s) (writeRuns (storeRun core key) rs bs u) := by
  induction rs generalizing bs s u with
  | nil => exact hsu
  | cons r rs ih =>
    obtain ⟨sp, a, n⟩ := r
    obtain rfl : sp = .spad := hrs _ List.mem_cons_self
    exact ih (fun r hr => hrs r (List.mem_cons_of_mem _ hr)) _ (sameBytes_storeRun_spad core key hsu a _)

/-- A run lies in the space of one of its located bytes. -/
theorem space_of_mem_runs {ls : List Loc} {r : Space × ℕ × ℕ} (h : r ∈ runs ls) : ∃ l ∈ ls, l.1 = r.1 := by
  induction ls generalizing r with
  | nil => exact absurd h List.not_mem_nil
  | cons l ls ih =>
    obtain ⟨sp, a⟩ := l
    have rest (hr : r ∈ runs ls) : ∃ l ∈ (sp, a) :: ls, l.1 = r.1 := by
      obtain ⟨l, hl, he⟩ := ih hr
      exact ⟨l, List.mem_cons_of_mem _ hl, he⟩
    simp only [runs] at h
    split at h
    · next sp2 b n rs hruns =>
      rw [hruns] at rest
      split at h
      · rcases List.mem_cons.mp h with rfl | hr
        · exact ⟨_, List.mem_cons_self, rfl⟩
        · exact rest (List.mem_cons_of_mem _ hr)
      · rcases List.mem_cons.mp h with rfl | hr
        · exact ⟨_, List.mem_cons_self, rfl⟩
        · exact rest hr
    · obtain rfl := List.mem_singleton.mp h
      exact ⟨_, List.mem_cons_self, rfl⟩

theorem sameBytes_storeLocs_spad (s : State) (core : ℕ) (key : StrandKey) {ls : List Loc} (hls : ∀ l ∈ ls, l.1 = .spad) (bs : List Byte) :
    SameBytes (writeLocs s ls bs) (storeLocs s core key ls bs) :=
  sameBytes_writeRuns_spad core key (runs ls) (fun _ hr => by
    obtain ⟨l, hl, he⟩ := space_of_mem_runs hr
    rw [← he, hls l hl]) bs (fun _ _ => rfl)

/-- Fewer bytes than a granule holds lie at distinct places, whichever granules hold them. -/
theorem scratchLocs_nodup (core : ℕ) (gs : List ℕ) (off : ℕ) {n : ℕ} (hn : n ≤ 12288) : (scratchLocs core gs off n).Nodup := by
  rw [scratchLocs_eq]
  refine List.Nodup.map_on (fun i hi j hj he => ?_) List.nodup_range
  have haddr : scratchAddr core gs (off + i) = scratchAddr core gs (off + j) := ((Prod.mk.injEq ..).mp he).2
  have hi' := List.mem_range.mp hi
  have hj' := List.mem_range.mp hj
  simp only [scratchAddr, Config.spadBytes, Config.granule] at haddr
  generalize gs.getD ((off + i) / _) 0 = g at haddr
  generalize gs.getD ((off + j) / _) 0 = g' at haddr
  omega

theorem getElem?_leBytes (n v i : ℕ) (hi : i < n) : (leBytes n v)[i]? = some (BitVec.ofNat 8 (v >>> (8 * i))) := by
  induction n generalizing v i with
  | zero => omega
  | succ n ih =>
    cases i with
    | zero => rfl
    | succ i =>
      rw [leBytes, List.getElem?_cons_succ, ih _ _ (by omega), ← Nat.shiftRight_add]
      congr 3
      omega

section
variable {s : State} {t : Strand} {ea : Word} {n : ℕ} (h : Issues s t) (hheld : writesHeld s t = false)
  (hk : dKind (segOf t ea) = 1) (hlim : offOf ea + n ≤ dLimit (segOf t ea) + 1) (hg : (offOf ea + n - 1) / 12288 < t.granules.length)
include h hheld hk hlim hg

/-- A store into the scratchpad writes its bytes at their places and nothing else. -/
theorem plainStep_storeX_scratch (hw : dW (segOf t ea) = true) (hn : n ≤ 12288) {i : Instr} (hlen : instrLen i = 4) (v : Word) :
    ∃ u, runParty i s (storeX s ea n v) = .next u ∧ PlainStep s u 4 ∧
      (∀ i < n, peek u .spad (scratchAddr t.core t.granules (offOf ea + i)) = v.extractLsb' (8 * i) 8) ∧
      ∀ sp a, (∀ i < n, (sp, a) ≠ (Space.spad, scratchAddr t.core t.granules (offOf ea + i))) → peek u sp a = peek s sp a := by
  have hblen := leBytes_length n v.toNat
  have hstore : storeCur s ea (leBytes n v.toNat) =
      .ok (storeLocs s (curCore s) (curKey s) (scratchLocs t.core t.granules (offOf ea) n) (leBytes n v.toNat)) := by
    simp only [storeCur, hblen, locateCur_scratch h hheld hk (acc := .store) hw hlim hg]
  obtain ⟨u, ho, hplain, hsame⟩ := plainStep_of_partyKept (issuing_of_strand h) (served_storeCur hstore).partyKept
    (skips_storeX (issuing_of_strand h) ⟨curWindow_strand h ea, hstore⟩ hlen)
  have hbytes := sameBytes_storeLocs_spad s (curCore s) (curKey s) (ls := scratchLocs t.core t.granules (offOf ea) n)
    (fun l hl => spad_of_mem_scratchLocs hl) (leBytes n v.toNat)
  have hlenls : (leBytes n v.toNat).length = (scratchLocs t.core t.granules (offOf ea) n).length := by rw [hblen, scratchLocs_length]
  refine ⟨u, ho, hplain, fun i hi => ?_, fun sp a hne => ?_⟩
  · have hread := congrArg (·[i]?) (map_peekLoc_writeLocs s _ _ hlenls (scratchLocs_nodup t.core t.granules (offOf ea) hn))
    rw [hsame, hbytes]
    simp only [getElem?_leBytes n _ i hi, scratchLocs_eq, List.map_map, List.getElem?_map, List.getElem?_range hi, Option.map_some,
      Function.comp_apply, peekLoc] at hread
    rw [← scratchLocs_eq] at hread
    rw [Option.some.inj hread]
    rfl
  · rw [hsame, hbytes]
    refine peekLoc_writeLocs_of_notMem s _ _ (sp, a) hlenls (fun hm => ?_)
    rw [scratchLocs_eq, List.mem_map] at hm
    obtain ⟨i, hi, he⟩ := hm
    exact hne i (List.mem_range.mp hi) he.symm

end

/-- Settles O13: the bytes are located by R111 at distinct places, and each form writes them there. -/
theorem scratchStore : Obligations.ScratchStore := by
  intro s t rs1 rs2 imm h hheld ea d off home stores
  have hea : eaOf s rs1 imm = ea := by rw [eaOf, xGet_issues h]; rfl
  have store {n : ℕ} (hn : n ≤ 12288) {i : Instr} (hlen : instrLen i = 4) :
      stores n (runParty i s (storeX s (eaOf s rs1 imm) n (xGet s rs2))) := by
    intro hk hw hlim hg
    rw [hea, xGet_issues h]
    exact plainStep_storeX_scratch h hheld hk hlim hg hw hn hlen _
  exact ⟨store (by decide) rfl, store (by decide) rfl, store (by decide) rfl, store (by decide) rfl⟩

end Sys2Proof.Proofs
end

section
/-! PROOFS. The atomic memory operations of the base architecture (R122, R124, R372). -/

namespace Sys2Proof.Proofs

open Machine Oblig

/-! ### The new words -/

/-- The signed value of a word's low bits. -/
theorem sint_toNat {w : ℕ} (hw : 0 < w) (x : BitVec w) : sint w x.toNat = x.toInt := by
  have hpow : 2 ^ w = 2 * 2 ^ (w - 1) := by rw [← Nat.pow_succ', Nat.succ_eq_add_one, Nat.sub_add_cancel hw]
  rw [BitVec.toInt_eq_toNat_cond]
  simp only [sint, Nat.mod_eq_of_lt x.isLt]
  refine if_congr ?_ rfl rfl
  omega

/-- What R122 lets an operation write, for words of a width. -/
def amoWord {w : ℕ} (op : AmoOp) (x b : BitVec w) : BitVec w :=
  match op with
  | .swap => b
  | .add => x + b
  | .xor => x ^^^ b
  | .and => x &&& b
  | .or => x ||| b
  | .min => if x.toInt ≤ b.toInt then x else b
  | .max => if x.toInt ≤ b.toInt then b else x
  | .minu => if x ≤ b then x else b
  | .maxu => if x ≤ b then b else x

theorem amoNew_toNat {w : ℕ} (hw : 0 < w) (op : AmoOp) (x b : BitVec w) : amoNew op w x.toNat b.toNat = (amoWord op x b).toNat := by
  have hpick (p : Prop) [Decidable p] (c d : BitVec w) : (if p then c.toNat else d.toNat) = (if p then c else d).toNat :=
    (apply_ite BitVec.toNat p c d).symm
  cases op with
  | swap => rfl
  | add => exact (BitVec.toNat_add x b).symm
  | xor => exact (BitVec.toNat_xor x b).symm
  | and => exact (BitVec.toNat_and x b).symm
  | or => exact (BitVec.toNat_or x b).symm
  | min => simp only [amoNew, amoWord, sint_toNat hw, hpick]
  | max => simp only [amoNew, amoWord, sint_toNat hw, hpick]
  | minu => simp only [amoNew, amoWord, ← BitVec.le_def, hpick]
  | maxu => simp only [amoNew, amoWord, ← BitVec.le_def, hpick]

/-! ### What the home leaves -/

theorem peekN_length (s : State) (sp : Space) (a n : ℕ) : (peekN s sp a n).length = n := by
  rw [peekN, tabulate_eq, List.length_map, List.length_range]

theorem peekNat_lt (s : State) (sp : Space) (a n : ℕ) : peekNat s sp a n < 2 ^ (8 * n) := by
  have h := leNat_lt (peekN s sp a n)
  rwa [peekN_length] at h

theorem sameBytes_peekNat {s u : State} (h : SameBytes s u) (sp : Space) (a n : ℕ) : peekNat u sp a n = peekNat s sp a n := by
  rw [peekNat, peekNat, peekN, peekN]
  exact congrArg leNat (congrArg (tabulate n) (funext fun i => h sp _))

/-- A word written at its home, of whatever space, reads as written. -/
theorem peekNat_updateHome_same (s : State) (sp : Space) (a n v : ℕ) (hv : v < 2 ^ (8 * n)) :
    peekNat (updateHome s sp a (leBytes n v)) sp a n = v := by
  have hbytes : peekN (updateHome s sp a (leBytes n v)) sp a n = leBytes n v := by
    refine List.ext_getElem (by rw [peekN_length, leBytes_length]) (fun i hi hb => ?_)
    have hin : i < n := by rwa [leBytes_length] at hb
    simp only [peekN, tabulate_eq, List.getElem_map, List.getElem_range]
    rw [peek_updateHome, leBytes_length, if_pos ⟨rfl, by omega, by omega⟩, Nat.add_sub_cancel_left, List.getD_eq_getElem _ _ hb]
  rw [peekNat, hbytes, leNat_leBytes, Nat.mod_eq_of_lt hv]

theorem otherBytes_updateHome (s : State) (sp : Space) (a n v : ℕ) : OtherBytes s (updateHome s sp a (leBytes n v)) sp a n := by
  intro sp' b hb
  rw [peek_updateHome, leBytes_length, if_neg hb]

/-! ### An AMO that reaches its home -/

/-- Where no decision is recorded or replayed, what an atomic leaves beside its word is its count of accesses. -/
theorem partyKept_atomicServed {s : State} (op : Atomic) (rd : BitVec 5) (sp : Space) (a : ℕ) (failed : Bool)
    (h : ∀ k, s.cur = .strand k → orderSensitive op rd = true → (strandOf s k).key = k ∧ (runOf s k.run).replay = none ∧ (runOf s k.run).level = 0) :
    PartyKept s (atomicServed s op rd sp a failed) ∧ SameBytes s (atomicServed s op rd sp a failed) := by
  unfold atomicServed
  split
  · exact ⟨.refl s, fun _ _ => rfl⟩
  · next k hk =>
    split
    · next ho =>
      obtain ⟨hkey, hreplay, hlevel⟩ := h k hk ho
      have hserved (flags src loc seq : ℕ) : served s (strandOf s k) rAtomic flags src loc seq = s := by
        have hrec : recordDecision s (strandOf s k) rAtomic flags src loc seq = s := by
          rw [recordDecision, if_neg]
          simp [recording, hkey, hlevel]
        have hleft : recordsAt s (runOf s k.run) rAtomic loc = [] := by
          simp only [recordsAt, recordsLeft, decisions, hreplay, List.filter_nil]
        simp only [served, hrec, serveRecord, hkey, hleft, List.find?_nil]
      simp only [hserved]
      exact ⟨partyKept_setStrand s _ _ (fun _ => rfl) (fun _ => ⟨rfl, rfl, rfl, rfl, rfl, rfl, rfl, rfl⟩), fun _ _ => peek_setStrand ..⟩
    · exact ⟨.refl s, fun _ _ => rfl⟩

theorem fetched_locateAtomic {s u : State} {ea : Word} {n : ℕ} {ls : List Loc} (h : locateAtomic s ea n = .ok (ls, u)) : Fetched s u := by
  unfold locateAtomic at h
  split at h
  · cases h
  · split at h
    · cases h
    · split at h
      · cases h
      · next ls' s1 hl =>
        split at h
        · cases h
        · obtain ⟨rfl, rfl⟩ := (Prod.mk.injEq ..).mp (Except.ok.inj h)
          exact fetched_locateCur hl

theorem strandOf_key_of_issuing {s : State} {k : StrandKey} (h : issuing s = true) (hs : s.cur = .strand k) : (strandOf s k).key = k := by
  simp only [issuing, hs] at h
  obtain ⟨t, ht⟩ := Option.isSome_iff_exists.mp h
  rw [strandOf_eq ht, findStrand_key ht]

/-- An AMO whose home serves it: the old word goes to rd, the new one home. -/
theorem runAtomic_amo {s h : State} {op : AmoOp} {b : Word} {n : ℕ} {rd rs1 : BitVec 5} {rl : Bool} {sp : Space} {a : ℕ}
    (hs : issuing s = true) (hh : ReachesHome s (.amo op b) n rd rs1 rl sp a h) (hp : poisoned h sp a n = false) (aq : Bool) {i : Instr}
    (hlen : instrLen i = 4) :
    ∃ w, runAtomic i s (.amo op b) n rd rs1 aq rl = .next w ∧ RegStep s w rd (sext (8 * n) (peekNat h sp a n)) 4 ∧
      SameBytes (updateHome h sp a (leBytes n (amoNew op (8 * n) (peekNat h sp a n) (b.toNat % 2 ^ (8 * n))))) w := by
  obtain ⟨s1, rest, hloc, hgate, hheld, hlevel, hhome⟩ := hh
  have hs1 : Served s s1 := (fetched_locateAtomic hloc).toServed
  set new := leBytes n (amoNew op (8 * n) (peekNat h sp a n) (b.toNat % 2 ^ (8 * n))) with hnew
  have hserved : Served s h := by
    subst hhome
    refine hs1.trans ?_
    have hrel : Served s1 (if rl = true then registerWhere s1 (curCore s1) (fun p => p.key = curKey s1) else s1) := by
      split
      · exact (fetched_registerWhere _ _ _).toServed
      · exact .refl _
    split
    · exact hrel.trans ((fetched_registerWhere _ _ _).trans (fetched_l1Drop _ _ _ _)).toServed
    · exact hrel.trans (served_wakeLoc _ _)
  have hbarred : (match s.cur with
      | .strand k => orderSensitive (.amo op b) rd && orderedOnly s (strandOf s k)
      | .handler _ => false) = false := by
    cases hcur : s.cur with
    | strand k =>
      simp only [hcur] at hlevel
      simp only [orderedOnly, strandOf_key_of_issuing hs hcur]
      rcases hlevel.2 with h0 | ⟨-, ho⟩
      · simp [h0]
      · simp [ho]
    | handler c => rfl
  have hatHome : atHome h (.amo op b) n (xGet s rs1) sp a = .ok (sext (8 * n) (peekNat h sp a n), updateHome h sp a new) := by
    simp only [atHome, hp, Bool.false_eq_true, if_false, hnew]
  have hmis (failed : Bool) : scMismatch s1 (.amo op b) a failed = none := by
    unfold scMismatch
    split
    · next hop => cases hop
    · rfl
  have hdo : doAtomic s (.amo op b) n rd (xGet s rs1) aq rl = writeX (if aq then acquire (atomicServed (updateHome h sp a new) (.amo op b) rd sp a false)
      (curCore s1) else atomicServed (updateHome h sp a new) (.amo op b) rd sp a false) rd (sext (8 * n) (peekNat h sp a n)) := by
    have hrl : (rl && curHeld s) = false := by
      cases rl with
      | true => exact hheld rfl
      | false => rfl
    have hhome' : (if sp = .dev then toHome (if rl = true then release s1 (curCore s1) (curKey s1) else s1) (curCore s1) a n
        else wakeLoc (if rl = true then release s1 (curCore s1) (curKey s1) else s1) (sp, a)) = h := hhome.symm
    simp only [doAtomic, hloc, hrl, hgate, hhome', hatHome, hmis, Bool.false_eq_true, if_false]
  have hkept := partyKept_atomicServed (s := updateHome h sp a new) (.amo op b) rd sp a false (fun k hk ho => by
    have hu := hserved.trans (served_updateHome h sp a new)
    have hcur : s.cur = .strand k := hu.cur.symm.trans hk
    simp only [hcur, ho, Bool.true_eq_false, and_false, or_false] at hlevel
    rw [runOf, hu.runs]
    exact ⟨strandOf_key_of_issuing (hu.issuing.trans hs) hk, hlevel⟩)
  have hacq (u : State) : PartyKept u (if aq then acquire u (curCore s1) else u) ∧ SameBytes u (if aq then acquire u (curCore s1) else u) := by
    split
    · exact ⟨(fetched_acquire u _).toServed.partyKept, (acquire_coresOnly u _).sameBytes⟩
    · exact ⟨.refl u, fun _ _ => rfl⟩
  have hall := ((hserved.trans (served_updateHome h sp a new)).partyKept.trans hkept.1).trans (hacq _).1
  obtain ⟨w, ho, hstep, hsame⟩ := regStep_of_partyKept hs hall (writes_writeX (hall.issuing hs) rd (sext (8 * n) (peekNat h sp a n)))
  refine ⟨w, ?_, hstep, sameBytes_trans (sameBytes_trans hkept.2 (hacq _).2) hsame⟩
  rw [← ho]
  have hrun : runAtomic i s (.amo op b) n rd rs1 aq rl =
      runParty i s (if (match s.cur with
        | .strand k => orderSensitive (.amo op b) rd && orderedOnly s (strandOf s k)
        | .handler _ => false) = true then .trap s (illegal s i) else doAtomic s (.amo op b) n rd (xGet s rs1) aq rl) := rfl
  rw [hrun, hbarred, if_neg Bool.false_ne_true, runParty_issuing hs, hlen, hdo]

/-- An AMO of words of w bits. -/
theorem amoWrites_runAtomic {s h : State} {op : AmoOp} {b : Word} {n w : ℕ} (hw : w = 8 * n) (hn : 0 < n) {rd rs1 : BitVec 5} {rl : Bool}
    {sp : Space} {a : ℕ} (hs : issuing s = true) (aq : Bool) {i : Instr} (hlen : instrLen i = 4) {o : Answer} (ho : o = runAtomic i s (.amo op b) n rd rs1 aq rl)
    {new : BitVec w → BitVec w} (hnew : ∀ x, new x = amoWord op x (b.setWidth w)) :
    ReachesHome s (.amo op b) n rd rs1 rl sp a h → poisoned h sp a n = false → AmoWrites s h o rd sp a w new := by
  intro hh hp
  subst hw ho
  have hdiv : 8 * n / 8 = n := by omega
  have hlt := peekNat_lt h sp a n
  obtain ⟨u, hnext, hstep, hsame⟩ := runAtomic_amo hs hh hp aq hlen
  have hold : (BitVec.ofNat (8 * n) (peekNat h sp a n)).toNat = peekNat h sp a n := by rw [BitVec.toNat_ofNat, Nat.mod_eq_of_lt hlt]
  have hword : amoNew op (8 * n) (peekNat h sp a n) (b.toNat % 2 ^ (8 * n)) = (new (BitVec.ofNat (8 * n) (peekNat h sp a n))).toNat := by
    rw [hnew, ← amoNew_toNat (by omega), hold, BitVec.toNat_setWidth]
  rw [hword] at hsame
  simp only [AmoWrites, hdiv]
  refine ⟨u, hnext, ?_, ?_, fun sp' j hj => ?_⟩
  · rw [← sext_eq_signExtend (by omega)]
    exact hstep
  · rw [sameBytes_peekNat hsame, peekNat_updateHome_same _ _ _ _ _ (BitVec.isLt _)]
  · rw [hsame, otherBytes_updateHome _ _ _ _ _ sp' j hj]

/-- Settles O14: each form is the atomic of its operation and width, which the home serves. -/
theorem amoResults : Obligations.AmoResults := by
  intro s h rd rs1 rs2 aq rl sp a hs
  have hb : (xGet s rs2).setWidth 64 = xGet s rs2 := BitVec.setWidth_eq _
  have at32 {op : AmoOp} {i : Instr} (hlen : instrLen i = 4) {o : Answer} (ho : o = runAtomic i s (.amo op (xGet s rs2)) 4 rd rs1 aq rl) :
      ReachesHome s (.amo op (xGet s rs2)) 4 rd rs1 rl sp a h → poisoned h sp a 4 = false →
        AmoWrites s h o rd sp a 32 (fun x => amoWord op x ((xGet s rs2).setWidth 32)) :=
    amoWrites_runAtomic rfl (by decide) hs aq hlen ho (fun _ => rfl)
  have at64 {op : AmoOp} {i : Instr} (hlen : instrLen i = 4) {o : Answer} (ho : o = runAtomic i s (.amo op (xGet s rs2)) 8 rd rs1 aq rl) :
      ReachesHome s (.amo op (xGet s rs2)) 8 rd rs1 rl sp a h → poisoned h sp a 8 = false →
        AmoWrites s h o rd sp a 64 (fun x => amoWord op x (xGet s rs2)) :=
    amoWrites_runAtomic rfl (by decide) hs aq hlen ho (fun _ => by rw [hb])
  exact ⟨at32 (i := .amoswapW rd rs1 rs2 aq rl) rfl rfl, at64 (i := .amoswapD rd rs1 rs2 aq rl) rfl rfl,
    at32 (i := .amoaddW rd rs1 rs2 aq rl) rfl rfl, at64 (i := .amoaddD rd rs1 rs2 aq rl) rfl rfl,
    at32 (i := .amoxorW rd rs1 rs2 aq rl) rfl rfl, at64 (i := .amoxorD rd rs1 rs2 aq rl) rfl rfl,
    at32 (i := .amoandW rd rs1 rs2 aq rl) rfl rfl, at64 (i := .amoandD rd rs1 rs2 aq rl) rfl rfl,
    at32 (i := .amoorW rd rs1 rs2 aq rl) rfl rfl, at64 (i := .amoorD rd rs1 rs2 aq rl) rfl rfl,
    at32 (i := .amominW rd rs1 rs2 aq rl) rfl rfl, at64 (i := .amominD rd rs1 rs2 aq rl) rfl rfl,
    at32 (i := .amomaxW rd rs1 rs2 aq rl) rfl rfl, at64 (i := .amomaxD rd rs1 rs2 aq rl) rfl rfl,
    at32 (i := .amominuW rd rs1 rs2 aq rl) rfl rfl, at64 (i := .amominuD rd rs1 rs2 aq rl) rfl rfl,
    at32 (i := .amomaxuW rd rs1 rs2 aq rl) rfl rfl, at64 (i := .amomaxuD rd rs1 rs2 aq rl) rfl rfl⟩

end Sys2Proof.Proofs
end

section
/-! PROOFS. TRYACQ, ACQ and CLAIMQ: what a grant leaves, and a request's place among those that wait (R101, R103, R216 to R224). -/

namespace Sys2Proof.Proofs

open Machine Oblig

/-! ### Tables, crews and slots -/

/-- Reading after the keys that fail a test have been removed. -/
theorem tget_filter_key {α : Type} (d : α) (p : ℕ → Bool) (t : Tab α) (j : ℕ) :
    tget d (t.filter (fun e => p e.1)) j = if p j = true then tget d t j else d := by
  induction t with
  | nil => simp [tget]
  | cons e t ih =>
    obtain ⟨i, v⟩ := e
    by_cases hi : p i = true
    · rw [List.filter_cons_of_pos (p := fun e : ℕ × α => p e.1) hi, tget, tget, ih]
      by_cases hj : i = j
      · rw [if_pos hj, if_pos hj, ← hj, if_pos hi]
      · rw [if_neg hj, if_neg hj]
    · rw [List.filter_cons_of_neg (p := fun e : ℕ × α => p e.1) hi, ih, tget]
      by_cases hj : i = j
      · rw [if_pos hj, ← hj, if_neg hi, if_neg hi]
      · rw [if_neg hj]

theorem tget_foldl_tdel {α : Type} (d : α) (l : List ℕ) (t : Tab α) (j : ℕ) :
    tget d (l.foldl tdel t) j = if j ∈ l then d else tget d t j := by
  induction l generalizing t with
  | nil => rfl
  | cons k l ih =>
    rw [List.foldl_cons, ih, tget_tdel]
    by_cases hl : j ∈ l
    · rw [if_pos hl, if_pos (List.mem_cons_of_mem _ hl)]
    · simp only [hl, if_false, List.mem_cons, or_false]

theorem findCrew_setCrew (s : State) (r c : ℕ) (f : Crew → Crew) (hr : ∀ x, (f x).run = x.run) (hc : ∀ x, (f x).crew = x.crew) :
    findCrew (setCrew s r c f) r c = (findCrew s r c).map f :=
  find_lmodWhere _ f (fun x hx => by rwa [hr, hc]) _

theorem crewOf_eq {s : State} {k : StrandKey} {c : Crew} (h : findCrew s k.run (k.gls / 32) = some c) : crewOf s k = c := by
  have h' : findCrew s k.run (crewNo k) = some c := h
  rw [crewOf, h', Option.getD_some]

theorem slotOf_delSlots (s : State) (cl p : ℕ) (l : List ℕ) :
    slotOf (setCluster s cl (fun c => { c with slots := l.foldl tdel c.slots })) cl p = if p ∈ l then {} else slotOf s cl p := by
  rw [slotOf, Machine.clusterOf_setCluster, if_pos rfl]
  exact tget_foldl_tdel _ _ _ _

/-! ### Which free units are taken -/

theorem nodup_lowestFree (n size : ℕ) (used : List ℕ) : (lowestFree n size used).Nodup :=
  ((List.nodup_range).filter _).sublist (List.take_sublist _ _)

theorem length_lowestFree_le (n size : ℕ) (used : List ℕ) : (lowestFree n size used).length ≤ n := List.length_take_le _ _

theorem of_mem_lowestFree {n size g : ℕ} {used : List ℕ} (h : g ∈ lowestFree n size used) : g < size ∧ g ∉ used := by
  have h' := List.mem_of_mem_take h
  rw [List.mem_filter, List.mem_range] at h'
  exact ⟨h'.1, by simpa using h'.2⟩

/-- There are as many free units as the units in use leave. -/
theorem length_lowestFree {n size : ℕ} {used : List ℕ} (h : used.length + n ≤ size) : (lowestFree n size used).length = n := by
  have hsplit := List.length_eq_length_filter_add (l := List.range size) (fun i => used.contains i)
  have hused : ((List.range size).filter (fun i => used.contains i)).length ≤ used.length := by
    refine ((List.nodup_range.filter _).subperm (fun i hi => ?_)).length_le
    simpa using (List.mem_filter.mp hi).2
  rw [lowestFree, List.length_take, List.length_range] at *
  omega

/-! ### Granules that are zeroed -/

theorem peek_zeroGranule (core g b : ℕ) (s : State) (sp : Space) :
    peek (zeroGranule core s g) sp b =
      if sp = .spad ∧ core * 196608 + g * 12288 ≤ b ∧ b < core * 196608 + g * 12288 + 12288 then 0 else peek s sp b := by
  cases sp with
  | spad =>
    refine (tget_filter_key 0 (fun j => !(core * 196608 + g * 12288 ≤ j && j < core * 196608 + g * 12288 + 12288)) s.spad b).trans ?_
    by_cases hb : core * 196608 + g * 12288 ≤ b ∧ b < core * 196608 + g * 12288 + 12288
    · rw [if_neg (by simpa using hb), if_pos ⟨rfl, hb⟩]
    · rw [if_pos (by simpa [imp_iff_not_or] using hb), if_neg (fun h => hb h.2)]
      rfl
  | dev => rfl
  | host => rfl
  | wbuf => rfl

/-- Granules are zeroed and woken. -/
def zeroAll (core : ℕ) (s : State) (gs : List ℕ) : State :=
  gs.foldl (fun s g => wake (zeroGranule core s g) core (.granule g)) s

theorem peek_zeroAll (core : ℕ) (gs : List ℕ) (s : State) (sp : Space) (b : ℕ) :
    peek (zeroAll core s gs) sp b =
      if sp = .spad ∧ ∃ g ∈ gs, core * 196608 + g * 12288 ≤ b ∧ b < core * 196608 + g * 12288 + 12288 then 0 else peek s sp b := by
  induction gs generalizing s with
  | nil => simp [zeroAll]
  | cons g gs ih =>
    rw [zeroAll, List.foldl_cons]
    refine (ih _).trans ?_
    rw [wake, peek_setCore, peek_zeroGranule]
    simp only [List.mem_cons, exists_eq_or_imp]
    by_cases hsp : sp = .spad
    · by_cases hg : core * 196608 + g * 12288 ≤ b ∧ b < core * 196608 + g * 12288 + 12288
      · simp [hsp, hg]
      · simp [hsp, hg]
    · simp [hsp]

theorem zeroAll_parts (core : ℕ) (gs : List ℕ) (s : State) :
    ∃ c m b, zeroAll core s gs = { s with cores := c, spad := m, spadBad := b } := by
  refine foldl_keeps (fun u : State => ∃ c m b, u = { s with cores := c, spad := m, spadBad := b }) _ _ _ ⟨s.cores, s.spad, s.spadBad, rfl⟩ ?_
  rintro _ g ⟨c, m, b, rfl⟩
  exact ⟨_, _, _, rfl⟩

/-! ### What a grant leaves -/

/-- The crew of a strand when the grant is of registers or granules. -/
theorem crew_kept {s u : State} {t : Strand} {cls a : ℕ} (hcrews : u.crews = s.crews) (h2 : cls ≠ 2) (h3 : cls ≠ 3) :
    ∀ c, findCrew s t.key.run (t.key.gls / 32) = some c → ∃ c' ms, findCrew u t.key.run (t.key.gls / 32) = some c' ∧
      c'.mslots = c.mslots ++ ms ∧ c'.xq = c.xq + (if cls = 3 then a else 0) ∧ (cls ≠ 2 → ms = []) ∧
      (cls = 2 → ms.Nodup ∧ ms.length ≤ a ∧ ((usedSlots s (crewOf s t.key).cluster).length + a ≤ 8 → ms.length = a) ∧
        ∀ p ∈ ms, p < 8 ∧ p ∉ usedSlots s (crewOf s t.key).cluster ∧ slotOf u (crewOf s t.key).cluster p = {}) := by
  intro c hc
  refine ⟨c, [], by rw [findCrew, hcrews]; exact hc, (List.append_nil _).symm, by rw [if_neg h3, Nat.add_zero], fun _ => rfl, fun h => absurd h h2⟩

/-- The strand when the grant is of the crew's. -/
theorem strand_kept {s u : State} {t : Strand} {cls a : ℕ} (h : findStrand s t.key = some t) (hstrands : u.strands = s.strands)
    (hbytes : SameBytes s u) (h0 : cls ≠ 0) (h1 : cls ≠ 1) :
    ∃ t' gs, findStrand u t.key = some t' ∧ t'.granules = t.granules ++ gs ∧ t'.vblocks = t.vblocks + (if cls = 0 then a else 0) ∧
      (∀ r < 8 * t.vblocks, tget 0 t'.v r = tget 0 t.v r) ∧ (cls = 0 → ∀ r, 8 * t.vblocks ≤ r → tget 0 t'.v r = 0) ∧
      (cls ≠ 1 → gs = [] ∧ SameBytes s u) ∧
      (cls = 1 → gs.Nodup ∧ gs.length ≤ a ∧ ((usedGranules s t.core).length + a ≤ 16 → gs.length = a) ∧
        (∀ g ∈ gs, g < 16 ∧ g ∉ usedGranules s t.core ∧ ∀ o < 12288, peek u .spad (t.core * 196608 + g * 12288 + o) = 0) ∧
        ∀ sp b, (∀ g ∈ gs, ¬ (sp = .spad ∧ t.core * 196608 + g * 12288 ≤ b ∧ b < t.core * 196608 + g * 12288 + 12288)) → peek u sp b = peek s sp b) :=
  ⟨t, [], by rw [findStrand, hstrands]; exact h, (List.append_nil _).symm, by rw [if_neg h0, Nat.add_zero], fun _ _ => rfl,
    fun he => absurd he h0, fun _ => ⟨rfl, hbytes⟩, fun he => absurd he h1⟩

theorem partyKept_of_strands {s u : State} (hcur : u.cur = s.cur) (hstrands : u.strands = s.strands)
    (hcores : ∀ c, (coreOf u c).hx = (coreOf s c).hx ∧ (coreOf u c).hpc = (coreOf s c).hpc) : PartyKept s u where
  cur := hcur
  strand := fun k t _ ht => ⟨t, by rw [findStrand, hstrands]; exact ht, .refl t⟩
  handler := fun c _ => hcores c

/-- Register blocks: the strand's further registers read as zero. -/
theorem grants_vreg {s : State} {t : Strand} (h : findStrand s t.key = some t) (a : ℕ) :
    PartyKept s (grantUnits s t.key 0 a) ∧ Granted s (grantUnits s t.key 0 a) t 0 a := by
  have hgrant : grantUnits s t.key 0 a = setStrand ((List.range a).foldl (fun s i => wake s t.core (.vreg t.slot (t.vblocks + i))) s) t.key
      (fun t => { t with vblocks := t.vblocks + a, v := t.v.filter (fun e => decide (e.1 < 8 * t.vblocks)) }) := by
    simp only [grantUnits, strandOf_eq h]
  rw [hgrant]
  have hwake := served_foldl (fun s i => wake s t.core (.vreg t.slot (t.vblocks + i))) (fun u i => served_wake u _ _) (List.range a) s
  have hcores : CoresOnly s ((List.range a).foldl (fun s i => wake s t.core (.vreg t.slot (t.vblocks + i))) s) :=
    CoresOnly.foldl _ (fun _ _ => ⟨_, rfl⟩) _
  generalize (List.range a).foldl (fun s i => wake s t.core (.vreg t.slot (t.vblocks + i))) s = s1 at hwake hcores
  have hfind : findStrand s1 t.key = some t := by
    obtain ⟨c, rfl⟩ := hcores
    exact h
  refine ⟨hwake.partyKept.trans (partyKept_setStrand s1 _ _ (fun _ => rfl) (fun _ => ⟨rfl, rfl, rfl, rfl, rfl, rfl, rfl, rfl⟩)), ?_, ?_⟩
  · refine ⟨{ t with vblocks := t.vblocks + a, v := t.v.filter (fun e => decide (e.1 < 8 * t.vblocks)) }, [], ?_, (List.append_nil _).symm,
      rfl, fun r hr => ?_, fun _ r hr => ?_, fun _ => ⟨rfl, fun sp b => ?_⟩, fun he => absurd he (by decide)⟩
    · refine (findStrand_setStrand s1 t.key _ ?_).trans (congrArg (Option.map _) hfind)
      exact fun _ hu => hu
    · exact (tget_filter_key 0 (fun j => decide (j < 8 * t.vblocks)) t.v r).trans (if_pos (decide_eq_true hr))
    · exact (tget_filter_key 0 (fun j => decide (j < 8 * t.vblocks)) t.v r).trans (if_neg (by simpa using hr))
    · rw [peek_setStrand, hcores.peek]
  · refine crew_kept ?_ (by decide) (by decide)
    obtain ⟨c, rfl⟩ := hcores
    rfl

/-- Granules: they are zeroed, and nothing held them. -/
theorem grants_spad {s : State} {t : Strand} (h : findStrand s t.key = some t) (a : ℕ) :
    PartyKept s (grantUnits s t.key 1 a) ∧ Granted s (grantUnits s t.key 1 a) t 1 a := by
  have hgrant : grantUnits s t.key 1 a = setStrand (zeroAll t.core s (lowestFree a 16 (usedGranules s t.core))) t.key
      (fun u => { u with granules := u.granules ++ lowestFree a 16 (usedGranules s t.core) }) := by
    simp only [grantUnits, strandOf_eq h, zeroAll]
  rw [hgrant]
  have hpeek := peek_zeroAll t.core (lowestFree a 16 (usedGranules s t.core)) s
  have hlen : (usedGranules s t.core).length + a ≤ 16 → (lowestFree a 16 (usedGranules s t.core)).length = a := length_lowestFree
  have hmem (g : ℕ) (hg : g ∈ lowestFree a 16 (usedGranules s t.core)) := of_mem_lowestFree hg
  have hnd := nodup_lowestFree a 16 (usedGranules s t.core)
  have hle := length_lowestFree_le a 16 (usedGranules s t.core)
  generalize lowestFree a 16 (usedGranules s t.core) = gs at *
  have hcore : ∀ c, (coreOf (zeroAll t.core s gs) c).hx = (coreOf s c).hx ∧ (coreOf (zeroAll t.core s gs) c).hpc = (coreOf s c).hpc := by
    intro c
    refine foldl_keeps (fun u : State => (coreOf u c).hx = (coreOf s c).hx ∧ (coreOf u c).hpc = (coreOf s c).hpc) _ _ _ ⟨rfl, rfl⟩ ?_
    intro u g hu
    simp only [wake, Machine.coreOf_setCore]
    split
    · next hc => rw [← hc]; exact hu
    · exact hu
  obtain ⟨c, m, b, hparts⟩ := zeroAll_parts t.core gs s
  have hstrands : (zeroAll t.core s gs).strands = s.strands := by rw [hparts]
  refine ⟨(partyKept_of_strands (by rw [hparts]) hstrands hcore).trans (partyKept_setStrand _ _ _ (fun _ => rfl)
    (fun _ => ⟨rfl, rfl, rfl, rfl, rfl, rfl, rfl, rfl⟩)), ?_, ?_⟩
  · refine ⟨{ t with granules := t.granules ++ gs }, gs, ?_, rfl, rfl, fun _ _ => rfl, fun he => absurd he (by decide),
      fun he => absurd rfl he, fun _ => ⟨hnd, hle, hlen, fun g hg => ⟨(hmem g hg).1, (hmem g hg).2, fun o ho => ?_⟩, fun sp j hj => ?_⟩⟩
    · have hfind : findStrand (zeroAll t.core s gs) t.key = some t := by rw [findStrand, hstrands]; exact h
      refine (findStrand_setStrand _ t.key _ ?_).trans (congrArg (Option.map _) hfind)
      exact fun _ hu => hu
    · dsimp only
      rw [peek_setStrand, hpeek, if_pos ⟨rfl, g, hg, by omega, by omega⟩]
    · rw [peek_setStrand, hpeek, if_neg]
      rintro ⟨hsp, g, hg, hb⟩
      exact hj g hg ⟨hsp, hb⟩
  · exact crew_kept (by rw [setStrand_crews, hparts]) (by decide) (by decide)

/-- Accumulator slots: they are cleared, and nothing held them. -/
theorem grants_mslot {s : State} {t : Strand} (h : findStrand s t.key = some t) (a : ℕ) :
    PartyKept s (grantUnits s t.key 2 a) ∧ Granted s (grantUnits s t.key 2 a) t 2 a := by
  refine ⟨partyKept_of_strands rfl rfl (fun _ => ⟨rfl, rfl⟩), strand_kept h rfl (fun sp b => by cases sp <;> rfl) (by decide) (by decide), ?_⟩
  intro c hc
  refine ⟨{ c with mslots := c.mslots ++ lowestFree a 8 (usedSlots s (crewOf s t.key).cluster) }, _, ?_, rfl, rfl, fun he => absurd rfl he,
    fun _ => ⟨nodup_lowestFree .., length_lowestFree_le .., length_lowestFree, fun p hp => ?_⟩⟩
  · refine (findCrew_setCrew _ t.key.run (t.key.gls / 32) _ ?_ ?_).trans (congrArg (Option.map _) hc)
    · exact fun _ => rfl
    · exact fun _ => rfl
  · obtain ⟨hlt, hfree⟩ := of_mem_lowestFree hp
    exact ⟨hlt, hfree, (slotOf_delSlots s _ p _).trans (if_pos hp)⟩

/-- Transform entries. -/
theorem grants_xq {s : State} {t : Strand} (h : findStrand s t.key = some t) (a : ℕ) :
    PartyKept s (grantUnits s t.key 3 a) ∧ Granted s (grantUnits s t.key 3 a) t 3 a := by
  refine ⟨partyKept_of_strands rfl rfl (fun _ => ⟨rfl, rfl⟩), strand_kept h rfl (fun sp b => by cases sp <;> rfl) (by decide) (by decide), ?_⟩
  intro c hc
  refine ⟨{ c with xq := c.xq + a }, [], ?_, (List.append_nil _).symm, rfl, fun _ => rfl, fun he => absurd he (by decide)⟩
  refine (findCrew_setCrew _ t.key.run (t.key.gls / 32) _ ?_ ?_).trans (congrArg (Option.map _) hc)
  · exact fun _ => rfl
  · exact fun _ => rfl

theorem grants {s : State} {t : Strand} (h : findStrand s t.key = some t) {cls : ℕ} (hcls : cls < 4) (a : ℕ) :
    PartyKept s (grantUnits s t.key cls a) ∧ Granted s (grantUnits s t.key cls a) t cls a := by
  interval_cases cls
  · exact grants_vreg h a
  · exact grants_spad h a
  · exact grants_mslot h a
  · exact grants_xq h a

/-- A grant stays one when the strand's registers and its place change afterwards. -/
theorem granted_setStrand {s u : State} {t t1 t2 : Strand} {cls a : ℕ} (hg : Granted s u t cls a) (h1 : findStrand u t.key = some t1)
    (h2 : OnlyRegs t1 t2) : Granted s (setStrand u t.key (fun _ => t2)) t cls a := by
  obtain ⟨⟨t', gs, hfind, hgran, hblocks, hkeep, hzero, hother, hspad⟩, hcrew⟩ := hg
  obtain rfl : t1 = t' := Option.some.inj (h1.symm.trans hfind)
  have h2' := h2
  rw [OnlyRegs] at h2'
  have hv : t2.v = t1.v := by rw [h2']
  refine ⟨⟨t2, gs, findStrand_set h1 (key_of_onlyRegs h2), ?_, ?_, fun r hr => ?_, fun he r hr => ?_, fun he => ?_, fun he => ?_⟩, hcrew⟩
  · rw [← hgran, h2']
  · rw [← hblocks, h2']
  · rw [hv, hkeep r hr]
  · rw [hv, hzero he r hr]
  · exact ⟨(hother he).1, fun sp b => (peek_setStrand ..).trans ((hother he).2 sp b)⟩
  · obtain ⟨hnd, hle, hlen, hfree, hrest⟩ := hspad he
    refine ⟨hnd, hle, hlen, fun g hgs => ⟨(hfree g hgs).1, (hfree g hgs).2.1, fun o ho => ?_⟩, fun sp b hb => ?_⟩
    · rw [peek_setStrand]
      exact (hfree g hgs).2.2 o ho
    · rw [peek_setStrand]
      exact hrest sp b hb

/-- A request that is granted: the units, and one register written. -/
theorem granted_step {s : State} {t : Strand} (h : Issues s t) {cls : ℕ} (hcls : cls < 4) (a : ℕ) (rd : BitVec 5) (v : Word) :
    ∃ u, retire 4 (.ok (xSet (grantUnits s t.key cls a) rd v) .seq) = .next u ∧ RegStep s u rd v 4 ∧ Granted s u t cls a := by
  obtain ⟨hcur, hfind⟩ := h
  obtain ⟨hkept, hgrant⟩ := grants hfind hcls a
  obtain ⟨t1, h1, -⟩ := hkept.strand t.key t hcur hfind
  have hkey := findStrand_key h1
  have hi : Issues (grantUnits s t.key cls a) t1 := by rw [Issues, hkey]; exact ⟨hkept.cur.trans hcur, h1⟩
  obtain ⟨w, ho, hstep, -⟩ := regStep_of_partyKept (issuing_of_strand ⟨hcur, hfind⟩) hkept (writes_writeX (issuing_of_strand hi) rd v)
  have hret := retire_xSet_strand hi 4 .seq rd v
  rw [hkey] at hret
  obtain rfl : w = _ := Host.Outcome.next.inj (ho.symm.trans hret)
  exact ⟨_, hret, hstep, granted_setStrand hgrant h1 (onlyRegs_advance_sx ..)⟩

/-! ### The cases of R218 -/

/-- The number of a class's pool. -/
theorem poolOf_eq (t : Strand) {cls : ℕ} (hcls : cls < 4) :
    poolOf t cls = if cls = 0 then t.core % 8 else if cls = 1 then 8 + t.core % 8 else if cls = 2 then 16 else 17 := by
  interval_cases cls
  · rfl
  · rfl
  · rfl
  · rfl

theorem claimTest_eq_outcome (s : State) (t : Strand) {cls : ℕ} (hcls : cls < 4) (a : ℕ) : claimTest s t cls a = outcome s t cls a := by
  have hwaiting : waitingIn s (t.core / 8) (poolOf t cls) = (clusterOf s (t.core / 8)).claimq.filter (fun q =>
      (strandOf s q.key).saving.isNone && poolOf (strandOf s q.key) q.cls = poolOf t cls) := by
    rw [waitingIn, waitingReqs, List.filter_filter]
    exact List.filter_congr (fun q _ => Bool.and_comm _ _)
  have hcl : clusterOfStrand t = t.core / 8 := rfl
  simp only [claimTest, hcl, hwaiting, outcome, ← poolOf_eq t hcls, safeAfter]
  generalize (clusterOf s (t.core / 8)).claimq.filter _ = waiting
  simp only [Bool.or_eq_true, decide_eq_true_eq, Bool.not_eq_true', List.isEmpty_eq_false_iff]

/-! ### The three instructions -/

theorem exec_tryacq {s : State} {t : Strand} {rd rs1 : BitVec 5} {cls : BitVec 3} {n : BitVec 7} (h : Issues s t)
    (hok : formOk (.tryacq rd cls n rs1) = true) (hcls : cls.toNat < 4) {a v : ℕ} (ha : n.toNat + (xGet s rs1).toNat = a)
    (hv : outcome s t cls.toNat a = v) :
    exec (.tryacq rd cls n rs1) s =
      retire 4 (.ok (xSet (if v = 0 then grantUnits s t.key cls.toNat a else s) rd (BitVec.ofNat 64 v)) .seq) := by
  refine (runStrand_eq _ h.1 h.2 hok).trans ?_
  have hamount : claimAmount s n rs1 = a := ha
  simp only [hamount, claimTest_eq_outcome s t hcls, hv]
  rfl

theorem exec_acq {s : State} {t : Strand} {rd rs1 : BitVec 5} {cls : BitVec 3} {n : BitVec 7} (h : Issues s t)
    (hok : formOk (.acq rd cls n rs1) = true) (hcls : cls.toNat < 4) {a : ℕ} (ha : n.toNat + (xGet s rs1).toNat = a) :
    exec (.acq rd cls n rs1) s = retire 4 (match outcome s t cls.toNat a with
      | 0 => .ok (xSet (grantUnits s t.key cls.toNat a) rd 0) .seq
      | 3 => .trap s (amountTrap a)
      | _ => .wait (joinQueue s t cls.toNat a) (.acq rd)) := by
  refine (runStrand_eq _ h.1 h.2 hok).trans ?_
  have hamount : claimAmount s n rs1 = a := ha
  simp only [hamount, claimTest_eq_outcome s t hcls]
  rfl

/-- The request that a strand makes. -/
def request (s : State) (t : Strand) (cls a : ℕ) : ClaimReq := { key := t.key, cls := cls, amount := a, since := now s t.core, recorded := false }

theorem asksBefore_iff (p q : ClaimReq) : asksBefore p q = true ↔ p.since < q.since ∨ p.since = q.since ∧ p.key.gls ≤ q.key.gls := by
  simp [asksBefore]

/-- A strand that joins the queue blocks, behind the requests that came before. -/
theorem acq_waits {s : State} {t : Strand} (h : Issues s t) (cls a : ℕ) (rd : BitVec 5) :
    ∃ u t' pre q post, retire 4 (.wait (joinQueue s t cls a) (.acq rd)) = .next u ∧ SameBytes s u ∧ findStrand u t.key = some t' ∧
      t' = { t with life := .blocked, wait := some (4, .acq rd), waitSince := t'.waitSince, blockedAt := t'.blockedAt } ∧
      (clusterOf s (t.core / 8)).claimq = pre ++ post ∧ (clusterOf u (t.core / 8)).claimq = pre ++ q :: post ∧
      q.key = t.key ∧ q.cls = cls ∧ q.amount = a ∧ q.since = now s t.core ∧
      (∀ p ∈ pre, p.since < q.since ∨ p.since = q.since ∧ p.key.gls ≤ t.key.gls) ∧
      ∀ p ∈ post.head?, ¬ (p.since < q.since ∨ p.since = q.since ∧ p.key.gls ≤ t.key.gls) := by
  obtain ⟨hcur, hfind⟩ := h
  have hblock : blockCur (joinQueue s t cls a) 4 (.acq rd) = setStrand (joinQueue s t cls a) t.key (fun v => { v with
      life := .blocked, wait := some (4, .acq rd), waitSince := now s v.core, blockedAt := now s v.core }) := by
    have hcur' : (joinQueue s t cls a).cur = .strand t.key := hcur
    simp only [blockCur, hcur']
    rfl
  refine ⟨_, { t with life := .blocked, wait := some (4, .acq rd), waitSince := now s t.core, blockedAt := now s t.core },
    (clusterOf s (t.core / 8)).claimq.takeWhile (fun p => asksBefore p (request s t cls a)), request s t cls a,
    (clusterOf s (t.core / 8)).claimq.dropWhile (fun p => asksBefore p (request s t cls a)),
    rfl, fun sp b => ?_, ?_, rfl, List.takeWhile_append_dropWhile.symm, ?_, rfl, rfl, rfl, rfl, fun p hp => ?_, fun p hp => ?_⟩
  · rw [hblock, peek_setStrand]
    exact sameBytes_setCluster s _ _ sp b
  · rw [hblock]
    refine (findStrand_setStrand _ t.key _ ?_).trans (congrArg (Option.map _) hfind)
    exact fun _ hu => hu
  · rw [hblock]
    exact congrArg Cluster.claimq ((Machine.clusterOf_setCluster s (t.core / 8) (t.core / 8)
      (fun c => { c with claimq := insertReq (request s t cls a) c.claimq })).trans (if_pos rfl))
  · exact (asksBefore_iff p (request s t cls a)).mp (List.mem_takeWhile_imp (p := fun p => asksBefore p (request s t cls a)) hp)
  · refine mt (asksBefore_iff p (request s t cls a)).mpr ?_
    have hhead := List.head?_dropWhile_not (fun p => asksBefore p (request s t cls a)) (clusterOf s (t.core / 8)).claimq
    rw [Option.mem_def.mp hp] at hhead
    simpa using hhead

theorem classSize_eq {cls : BitVec 3} (hcls : cls.toNat < 4) :
    classSize cls.toNat = if cls = 0 then 32 else if cls = 1 then 16 else if cls = 2 then 8 else 4 := by
  revert cls
  decide

theorem exec_claimq {s : State} {t : Strand} {rd : BitVec 5} {cls : BitVec 3} (h : Issues s t) (hok : formOk (.claimq rd cls) = true) :
    exec (.claimq rd cls) s = retire 4 (writeX s rd (BitVec.ofNat 64 (heldBy s t cls.toNat + claimMax (runOf s t.key.run) cls.toNat * 2 ^ 8 +
      claimInit (runOf s t.key.run) cls.toNat * 2 ^ 16 + classSize cls.toNat * 2 ^ 24))) :=
  runStrand_eq (i := .claimq rd cls) (fun t => writeX s rd (BitVec.ofNat 64 (heldBy s t cls.toNat + claimMax (runOf s t.key.run) cls.toNat * 2 ^ 8 +
    claimInit (runOf s t.key.run) cls.toNat * 2 ^ 16 + classSize cls.toNat * 2 ^ 24))) h.1 h.2 hok

/-- Settles O21: the model's test is the case of R218, and a grant leaves what R220 says. -/
theorem claimResults : Obligations.ClaimResults := by
  intro s t rd rs1 cls n h a v
  refine ⟨fun hok => ?_, fun hok => ?_, fun hok => ?_⟩
  · have hcls : cls.toNat < 4 := of_decide_eq_true hok
    have hexec := exec_tryacq (v := v) h hok hcls rfl rfl
    by_cases hv : v = 0
    · rw [if_pos hv] at hexec
      obtain ⟨u, ho, hstep, hgrant⟩ := granted_step h hcls a rd (BitVec.ofNat 64 v)
      exact ⟨u, hexec.trans ho, hstep, fun _ => hgrant, fun hne => absurd hv hne⟩
    · rw [if_neg hv] at hexec
      have hw := writes_writeX (issuing_of_strand h) rd (BitVec.ofNat 64 v)
      obtain ⟨u, ho, hstep, -⟩ := regStep_of_partyKept (issuing_of_strand h) (.refl s) hw
      exact ⟨u, hexec.trans ho, hstep, fun he => absurd he hv, fun _ => ho ▸ hw⟩
  · have hcls : cls.toNat < 4 := of_decide_eq_true hok
    rw [exec_acq h hok hcls rfl]
    refine ⟨fun hv => ?_, fun hv => ?_, fun hv => ?_⟩
    · have hv' : outcome s t cls.toNat a = 0 := hv
      rw [hv']
      exact granted_step h hcls a rd 0
    · have hv' : outcome s t cls.toNat a = 3 := hv
      rw [hv']
      exact traps_trapCur 4 (amountTrap a) h rfl rfl
    · have hwait : (match outcome s t cls.toNat a with
          | 0 => Res.ok (xSet (grantUnits s t.key cls.toNat a) rd 0) .seq
          | 3 => .trap s (amountTrap a)
          | _ => .wait (joinQueue s t cls.toNat a) (.acq rd)) = .wait (joinQueue s t cls.toNat a) (.acq rd) := by
        rcases hv with hv | hv
        · have hv' : outcome s t cls.toNat a = 1 := hv
          rw [hv']
          rfl
        · have hv' : outcome s t cls.toNat a = 2 := hv
          rw [hv']
          rfl
      rw [hwait]
      exact acq_waits h cls.toNat a rd
  · have hcls : cls.toNat < 4 := of_decide_eq_true hok
    rw [← classSize_eq hcls, exec_claimq h hok]
    exact writes_writeX (issuing_of_strand h) rd _

end Sys2Proof.Proofs
end

section
/-! PROOFS. REL: what a release leaves, and when it waits or traps (R102, R103, R221, R223, R350). -/

namespace Sys2Proof.Proofs

open Machine Oblig

/-- What the release of units of a class leaves of a strand, of bytes and of its crew (R223). -/
def Released (s u : State) (t : Strand) (cls a : ℕ) : Prop :=
  (∃ t', findStrand u t.key = some t' ∧ t'.vblocks = t.vblocks - (if cls = 0 then a else 0) ∧
    t'.granules = t.granules.take (t.granules.length - (if cls = 1 then a else 0)) ∧
    ∀ r, tget 0 t'.v r = if cls = 0 ∧ 8 * t'.vblocks ≤ r then 0 else tget 0 t.v r) ∧
  SameBytes s u ∧
  ∀ c, findCrew s t.key.run (t.key.gls / 32) = some c → ∃ c', findCrew u t.key.run (t.key.gls / 32) = some c' ∧
    c'.mslots = c.mslots.take (c.mslots.length - (if cls = 2 then a else 0)) ∧ c'.xq = c.xq - (if cls = 3 then a else 0) ∧
    ∀ p, slotOf u (crewOf s t.key).cluster p =
      if cls = 2 ∧ p ∈ c.mslots.drop (c.mslots.length - a) then {} else slotOf s (crewOf s t.key).cluster p

/-! ### The release of each class -/

/-- The crew where registers or granules are released. -/
theorem crew_unreleased {s u : State} {t : Strand} {cls a : ℕ} (hcrews : u.crews = s.crews) (hclusters : u.clusters = s.clusters)
    (h2 : cls ≠ 2) (h3 : cls ≠ 3) : ∀ c, findCrew s t.key.run (t.key.gls / 32) = some c → ∃ c', findCrew u t.key.run (t.key.gls / 32) = some c' ∧
    c'.mslots = c.mslots.take (c.mslots.length - (if cls = 2 then a else 0)) ∧ c'.xq = c.xq - (if cls = 3 then a else 0) ∧
    ∀ p, slotOf u (crewOf s t.key).cluster p =
      if cls = 2 ∧ p ∈ c.mslots.drop (c.mslots.length - a) then {} else slotOf s (crewOf s t.key).cluster p := by
  intro c hc
  refine ⟨c, by rw [findCrew, hcrews]; exact hc, by rw [if_neg h2, Nat.sub_zero, List.take_length], by rw [if_neg h3, Nat.sub_zero], fun p => ?_⟩
  rw [if_neg (fun h => h2 h.1), slotOf, slotOf, clusterOf, clusterOf, hclusters]

/-- The strand where the crew's units are released. -/
theorem strand_unreleased {s u : State} {t : Strand} {cls a : ℕ} (h : findStrand s t.key = some t) (hstrands : u.strands = s.strands)
    (h0 : cls ≠ 0) (h1 : cls ≠ 1) :
    ∃ t', findStrand u t.key = some t' ∧ t'.vblocks = t.vblocks - (if cls = 0 then a else 0) ∧
      t'.granules = t.granules.take (t.granules.length - (if cls = 1 then a else 0)) ∧
      ∀ r, tget 0 t'.v r = if cls = 0 ∧ 8 * t'.vblocks ≤ r then 0 else tget 0 t.v r :=
  ⟨t, by rw [findStrand, hstrands]; exact h, by rw [if_neg h0, Nat.sub_zero], by rw [if_neg h1, Nat.sub_zero, List.take_length],
    fun _ => (if_neg (fun hr => h0 hr.1)).symm⟩

theorem peek_powerDown (s : State) (core : ℕ) (p : PowerUnit → Bool) (sp : Space) (a : ℕ) : peek (powerDown s core p) sp a = peek s sp a :=
  peek_setCore ..

theorem partyKept_powerDown (s : State) (core : ℕ) (p : PowerUnit → Bool) : PartyKept s (powerDown s core p) :=
  (served_setCore s core (fun c => { c with drowsy := c.drowsy.filter (fun u => !p u) }) (fun _ => rfl)).partyKept

/-- What capping an inheritance makes of a strand. -/
def cappedHeir (k : StrandKey) (n : ℕ) (u : Strand) : Strand :=
  match u.heir with
  | some (h, m) => if h = k && u.key ≠ k then { u with heir := some (h, min m n) } else u
  | none => u

theorem cappedHeir_parts (k : StrandKey) (n : ℕ) (u : Strand) : ∃ h, cappedHeir k n u = { u with heir := h } := by
  unfold cappedHeir
  split
  · split
    · exact ⟨_, rfl⟩
    · exact ⟨u.heir, rfl⟩
  · exact ⟨u.heir, rfl⟩

theorem findStrand_capHeir (s : State) (k j : StrandKey) (n : ℕ) :
    findStrand (capHeir s k n) j = (findStrand s j).map (cappedHeir k n) := by
  have hkey : (fun u : Strand => decide (u.key = j)) ∘ cappedHeir k n = fun u => decide (u.key = j) := by
    funext u
    obtain ⟨h, hu⟩ := cappedHeir_parts k n u
    rw [Function.comp_apply, hu]
  have hmap : capHeir s k n = { s with strands := s.strands.map (cappedHeir k n) } := rfl
  rw [hmap, findStrand, List.find?_map, hkey]
  rfl

theorem partyKept_capHeir (s : State) (k : StrandKey) (n : ℕ) : PartyKept s (capHeir s k n) where
  cur := rfl
  strand := fun j t _ ht => by
    obtain ⟨h, hu⟩ := cappedHeir_parts k n t
    exact ⟨_, by rw [findStrand_capHeir, ht]; rfl, by rw [hu]; exact ⟨rfl, rfl, rfl, rfl, rfl, rfl, rfl, rfl⟩⟩
  handler := fun _ _ => ⟨rfl, rfl⟩

/-- A strand's own inheritance from itself is not capped. -/
theorem findStrand_capHeir_self {s : State} {t : Strand} (h : findStrand s t.key = some t) (n : ℕ) :
    findStrand (capHeir s t.key n) t.key = some t := by
  rw [findStrand_capHeir, h, Option.map_some, cappedHeir]
  split
  · rw [if_neg (by simp)]
  · rfl

theorem released_vreg {s : State} {t : Strand} (h : findStrand s t.key = some t) (a : ℕ) :
    PartyKept s (releaseUnits s t.key 0 a) ∧ Released s (releaseUnits s t.key 0 a) t 0 a := by
  have hrel : releaseUnits s t.key 0 a = powerDown (setStrand s t.key (fun u => { u with
      vblocks := t.vblocks - a, v := u.v.filter (fun e => decide (e.1 < 8 * (t.vblocks - a))) })) t.core (blockFrom t.slot (t.vblocks - a)) := by
    simp only [releaseUnits, strandOf_eq h]
  rw [hrel]
  refine ⟨PartyKept.trans ?_ (partyKept_powerDown _ _ _),
    ⟨{ t with vblocks := t.vblocks - a, v := t.v.filter (fun e => decide (e.1 < 8 * (t.vblocks - a))) }, ?_, rfl, ?_, fun r => ?_⟩,
    fun sp b => ?_, crew_unreleased rfl rfl (by decide) (by decide)⟩
  · exact partyKept_setStrand s t.key _ (fun _ => rfl) (fun _ => ⟨rfl, rfl, rfl, rfl, rfl, rfl, rfl, rfl⟩)
  · refine (findStrand_setStrand s t.key _ ?_).trans (congrArg (Option.map _) h)
    exact fun _ hu => hu
  · rw [if_neg (by decide), Nat.sub_zero, List.take_length]
  · refine (tget_filter_key 0 (fun j => decide (j < 8 * (t.vblocks - a))) t.v r).trans ?_
    by_cases hr : r < 8 * (t.vblocks - a)
    · rw [if_pos (decide_eq_true hr), if_neg (fun hle => absurd hle.2 (by simpa using hr))]
    · rw [if_neg (by simpa using hr), if_pos ⟨rfl, by simpa using hr⟩]
  · rw [peek_powerDown, peek_setStrand]

theorem released_spad {s : State} {t : Strand} (h : findStrand s t.key = some t) (a : ℕ) :
    PartyKept s (releaseUnits s t.key 1 a) ∧ Released s (releaseUnits s t.key 1 a) t 1 a := by
  have hrel : releaseUnits s t.key 1 a = powerDown (setStrand (capHeir s t.key (t.granules.length - a)) t.key (fun u => { u with
      granules := u.granules.take (t.granules.length - a) })) t.core (granuleOf (t.granules.drop (t.granules.length - a))) := by
    simp only [releaseUnits, strandOf_eq h]
  rw [hrel]
  refine ⟨((partyKept_capHeir s t.key (t.granules.length - a)).trans ?_).trans (partyKept_powerDown _ _ _),
    ⟨{ t with granules := t.granules.take (t.granules.length - a) }, ?_, rfl, rfl, fun r => (if_neg (fun hr => absurd hr.1 (by decide))).symm⟩,
    fun sp b => ?_, crew_unreleased rfl rfl (by decide) (by decide)⟩
  · exact partyKept_setStrand _ t.key _ (fun _ => rfl) (fun _ => ⟨rfl, rfl, rfl, rfl, rfl, rfl, rfl, rfl⟩)
  · refine (findStrand_setStrand _ t.key _ ?_).trans (congrArg (Option.map _) (findStrand_capHeir_self h _))
    exact fun _ hu => hu
  · rw [peek_powerDown, peek_setStrand]
    cases sp <;> rfl

theorem released_mslot {s : State} {t : Strand} (h : findStrand s t.key = some t) (a : ℕ) :
    PartyKept s (releaseUnits s t.key 2 a) ∧ Released s (releaseUnits s t.key 2 a) t 2 a := by
  refine ⟨partyKept_of_strands rfl rfl (fun _ => ⟨rfl, rfl⟩), strand_unreleased h rfl (by decide) (by decide),
    fun sp b => by cases sp <;> rfl, fun c hc => ?_⟩
  refine ⟨{ c with mslots := c.mslots.take (c.mslots.length - a) }, ?_, rfl, rfl, fun p => ?_⟩
  · refine (findCrew_setCrew _ t.key.run (t.key.gls / 32) _ ?_ ?_).trans ((congrArg (Option.map _) hc).trans ?_)
    · exact fun _ => rfl
    · exact fun _ => rfl
    · simp only [Option.map_some]
  · refine (slotOf_delSlots s _ p _).trans ?_
    rw [crewOf_eq hc]
    exact if_congr (by simp) rfl rfl

theorem released_xq {s : State} {t : Strand} (h : findStrand s t.key = some t) (a : ℕ) :
    PartyKept s (releaseUnits s t.key 3 a) ∧ Released s (releaseUnits s t.key 3 a) t 3 a := by
  refine ⟨partyKept_of_strands rfl rfl (fun _ => ⟨rfl, rfl⟩), strand_unreleased h rfl (by decide) (by decide),
    fun sp b => by cases sp <;> rfl, fun c hc => ?_⟩
  refine ⟨{ c with xq := c.xq - a }, ?_, ?_, rfl, fun p => (if_neg (fun hp => absurd hp.1 (by decide))).symm⟩
  · refine (findCrew_setCrew _ t.key.run (t.key.gls / 32) _ ?_ ?_).trans (congrArg (Option.map _) hc)
    · exact fun _ => rfl
    · exact fun _ => rfl
  · rw [if_neg (by decide), Nat.sub_zero, List.take_length]

theorem released {s : State} {t : Strand} (h : findStrand s t.key = some t) {cls : ℕ} (hcls : cls < 4) (a : ℕ) :
    PartyKept s (releaseUnits s t.key cls a) ∧ Released s (releaseUnits s t.key cls a) t cls a := by
  interval_cases cls
  · exact released_vreg h a
  · exact released_spad h a
  · exact released_mslot h a
  · exact released_xq h a

theorem claimq_setCluster (s : State) (c cl : ℕ) (f : Cluster → Cluster) (h : ∀ x, (f x).claimq = x.claimq) :
    (clusterOf (setCluster s c f) cl).claimq = (clusterOf s cl).claimq := by
  rw [Machine.clusterOf_setCluster]
  split
  · next hc => rw [hc, h]
  · rfl

/-- A release asks for nothing in a queue. -/
theorem claimq_releaseUnits (s : State) (k : StrandKey) {cls : ℕ} (hcls : cls < 4) (a cl : ℕ) :
    (clusterOf (releaseUnits s k cls a) cl).claimq = (clusterOf s cl).claimq := by
  interval_cases cls
  · rfl
  · rfl
  · exact claimq_setCluster s (crewOf s k).cluster cl
      (fun d => { d with slots := ((crewOf s k).mslots.drop ((crewOf s k).mslots.length - a)).foldl tdel d.slots }) (fun _ => rfl)
  · rfl

/-- A release stays one when the strand's registers and its place change afterwards. -/
theorem released_setStrand {s u : State} {t t1 t2 : Strand} {cls a : ℕ} (hg : Released s u t cls a) (h1 : findStrand u t.key = some t1)
    (h2 : OnlyRegs t1 t2) : Released s (setStrand u t.key (fun _ => t2)) t cls a := by
  obtain ⟨⟨t', hfind, hblocks, hgran, hv⟩, hbytes, hcrew⟩ := hg
  obtain rfl : t1 = t' := Option.some.inj (h1.symm.trans hfind)
  have h2' := h2
  rw [OnlyRegs] at h2'
  refine ⟨⟨t2, findStrand_set h1 (key_of_onlyRegs h2), ?_, ?_, ?_⟩, fun sp b => (peek_setStrand ..).trans (hbytes sp b), hcrew⟩
  · rw [← hblocks, h2']
  · rw [← hgran, h2']
  · rw [h2']
    exact hv

/-- A release in a cluster where no request waits: the units are gone, and 0 is in rd. -/
theorem released_step {s : State} {t : Strand} (h : Issues s t) {cls : ℕ} (hcls : cls < 4) (a : ℕ) (rd : BitVec 5)
    (hnil : (clusterOf s (t.core / 8)).claimq = []) :
    ∃ u, retire 4 (.ok (serveClaims (xSet (releaseUnits s t.key cls a) rd 0) (t.core / 8)) .seq) = .next u ∧ RegStep s u rd 0 4 ∧
      Released s u t cls a := by
  obtain ⟨hcur, hfind⟩ := h
  obtain ⟨hkept, hrel⟩ := released hfind hcls a
  obtain ⟨t1, h1, -⟩ := hkept.strand t.key t hcur hfind
  have hkey := findStrand_key h1
  have hi : Issues (releaseUnits s t.key cls a) t1 := by rw [Issues, hkey]; exact ⟨hkept.cur.trans hcur, h1⟩
  have hserve : serveClaims (xSet (releaseUnits s t.key cls a) rd 0) (t.core / 8) = xSet (releaseUnits s t.key cls a) rd 0 := by
    refine serveClaims_of_nil ?_
    have hx : xSet (releaseUnits s t.key cls a) rd 0 = setStrand (releaseUnits s t.key cls a) t1.key (fun t => sx t rd.toNat 0) := by
      simp only [xSet, hi.1]
    rw [hx]
    exact (claimq_releaseUnits s t.key hcls a (t.core / 8)).trans hnil
  rw [hserve]
  obtain ⟨w, ho, hstep, -⟩ := regStep_of_partyKept (issuing_of_strand ⟨hcur, hfind⟩) hkept (writes_writeX (issuing_of_strand hi) rd 0)
  have hret := retire_xSet_strand hi 4 .seq rd 0
  rw [hkey] at hret
  obtain rfl : w = _ := Host.Outcome.next.inj (ho.symm.trans hret)
  exact ⟨_, hret, hstep, released_setStrand hrel h1 (onlyRegs_advance_sx ..)⟩

/-! ### REL -/

theorem exec_rel {s : State} {t : Strand} {rd rs1 : BitVec 5} {cls : BitVec 3} {n : BitVec 7} (h : Issues s t)
    (hok : formOk (.rel rd cls n rs1) = true) {a : ℕ} (ha : n.toNat + (xGet s rs1).toNat = a) :
    exec (.rel rd cls n rs1) s = retire 4 (
      if heldBy s t cls.toNat < a then .trap s (amountTrap a)
      else if a = 0 then writeX s rd 0
      else if cls = 1 && relPosted s t a then .trap s (parcelTrap cEngine s (.rel rd cls n rs1))
      else tryRel s t rd cls.toNat a) := by
  refine (runStrand_eq _ h.1 h.2 hok).trans ?_
  have hamount : claimAmount s n rs1 = a := ha
  simp only [hamount]
  rfl

/-- What a strand that waits becomes. -/
theorem nextStrand_wait {s : State} {t : Strand} (h : Issues s t) (w : Wait) :
    NextStrand s (retire 4 (.wait s w)) t.key
      { t with life := .blocked, wait := some (4, w), waitSince := now s t.core, blockedAt := now s t.core } := by
  have hblock : blockCur s 4 w = setStrand s t.key (fun v => { v with
      life := .blocked, wait := some (4, w), waitSince := now s v.core, blockedAt := now s v.core }) := by
    simp only [blockCur, h.1]
  exact congrArg _ (hblock.trans (setStrand_congr h.2 rfl))

/-- Settles O22: REL's cases in their order, and what a release leaves class by class. -/
theorem releaseResults : Obligations.ReleaseResults := by
  intro s t rd rs1 cls n h hok i a cl gone
  have hcls : cls.toNat < 4 := of_decide_eq_true hok
  have hexec := exec_rel (a := a) h hok rfl
  refine ⟨fun hlt => ?_, fun h0 => ?_, fun hpos hle hrep h1 hposted => ?_, fun hpos hle hposted => ?_⟩
  · rw [hexec, if_pos hlt]
    exact traps_trapCur 4 (amountTrap a) h rfl rfl
  · rw [hexec, if_neg (by omega), if_pos h0]
    exact writes_writeX (issuing_of_strand h) rd 0
  · rw [hexec, if_neg (by omega), if_neg (by omega), if_pos (by rw [hposted, Bool.and_true]; exact decide_eq_true h1)]
    exact traps_parcel h hrep _ _
  · have hnot : ¬ ((cls = 1 && relPosted s t a) = true) := by
      rw [Bool.and_eq_true, decide_eq_true_eq]
      exact fun hp => absurd (hposted hp.1) (by rw [hp.2]; decide)
    rw [hexec, if_neg (by omega), if_neg (by omega), if_neg hnot]
    have h0 : cls.toNat = 0 ↔ cls = 0 := BitVec.toNat_inj (y := 0)
    have h1 : cls.toNat = 1 ↔ cls = 1 := BitVec.toNat_inj (y := 1)
    have h2 : cls.toNat = 2 ↔ cls = 2 := BitVec.toNat_inj (y := 2)
    have h3 : cls.toNat = 3 ↔ cls = 3 := BitVec.toNat_inj (y := 3)
    refine ⟨fun hbusy => ⟨now s t.core, ?_⟩, fun hbusy hnil => ?_⟩
    · rw [tryRel, if_pos hbusy]
      exact nextStrand_wait h _
    · rw [tryRel, if_neg (by rw [hbusy]; decide)]
      obtain ⟨u, ho, hstep, ⟨t', hfind, hblocks, hgran, hv⟩, hbytes, hcrew⟩ := released_step h hcls a rd hnil
      simp only [h0, h1, h2, h3] at hblocks hgran hv hcrew
      exact ⟨u, t', ho, hfind, hstep, hblocks, hgran, hv, fun sp b _ => hbytes sp b, hcrew⟩

end Sys2Proof.Proofs
end

section
/-! PROOFS. What an event record does to a reservation on host memory, and the two statements that it refutes (R123, R193, R194, R203, R363). -/

namespace Sys2Proof.Proofs

open Machine Oblig

/-! ### A strand with a reservation where the event log stands -/

/-- A strand with a reservation on the first word of host memory. -/
def reserver : Strand :=
  { key := ⟨0, 0⟩, saving := some (0, 0, 0, false), resv := some { width := 8, ea := 0, space := .host, word := 0, cycle := 0 } }

/-- A package with this strand alone, whose event log has room for one record at the start of host memory. -/
def reserved : State := { strands := [reserver], logSize := 1 }

theorem findStrand_reserved : findStrand reserved ⟨0, 0⟩ = some reserver := by decide

/-- A window without a frozen strand answers with an error, whose record ends the reservation of a strand that it does not name. -/
theorem debugWindowWrite_reserved : ∃ w, exec (.debugWindowWrite 0 0 8 0) reserved = .next w ∧ w.strands = [{ reserver with resv := none }] :=
  ⟨_, rfl, by decide⟩

/-- Refutes O50: the error answer of a debug window is recorded in the event log, and the record's write in host memory ends a reservation
on its words. -/
theorem not_windowEvents : ¬ Obligations.WindowEvents := by
  intro h
  obtain ⟨-, -, -, -, -, hwindow⟩ := h reserved ⟨0, 0⟩ reserver 0 findStrand_reserved
  obtain ⟨-, -, -, w, hw, -, hstrands⟩ := (hwindow 0 0 8 0 (by decide)).1 (by decide)
  obtain ⟨w', hw', hstrands'⟩ := debugWindowWrite_reserved
  obtain rfl : w = w' := Host.Outcome.next.inj (hw.symm.trans hw')
  exact absurd (hstrands.symm.trans hstrands') (by decide)

/-- The save of this strand is refused, as it has no area; the record of the refusal ends the reservation. -/
theorem saveWrite_reserved : ∃ u, exec (.saveWrite ⟨0, 0⟩) reserved = .next u ∧
    findStrand u ⟨0, 0⟩ = some { reserver with saving := none, resv := none } :=
  ⟨_, rfl, by decide⟩

/-- Refutes O49: a refused save is recorded in the event log, and the record's write in host memory ends a reservation on its words, so that
the strand does not stay as it was. -/
theorem not_saveEvents : ¬ Obligations.SaveEvents := by
  intro h
  obtain ⟨-, -, hwaiting, -, -⟩ := h
  obtain ⟨-, -, hgoes⟩ := hwaiting reserved ⟨0, 0⟩ reserver (0, 0, 0, false) findStrand_reserved rfl
  obtain ⟨hrefused, -⟩ := hgoes (.inl rfl) (by decide)
  obtain ⟨u, hu, hfind, -⟩ := hrefused (by decide) (by decide)
  obtain ⟨u', hu', hfind'⟩ := saveWrite_reserved
  obtain rfl : u = u' := Host.Outcome.next.inj (hu.symm.trans hu')
  exact absurd (Option.some.inj (hfind.symm.trans hfind')) (by decide)

end Sys2Proof.Proofs
end

section
/-! PROOFS. What goes on around a strand leaves of it, of pending stores and of launches: event records, credits, claims that are served, and
other strands that leave (R113, R138, R139, R221, R363). -/

namespace Sys2Proof.Proofs

open Machine Oblig

/-! ### The relation -/

/-- A strand that waits for nothing goes on doing so, with its life and its packet. -/
def Still (t t' : Strand) : Prop := t.wait = none → t'.wait = none ∧ t'.life = t.life ∧ t'.packet = t.packet

theorem Still.refl (t : Strand) : Still t t := fun h => ⟨h, rfl, rfl⟩

theorem Still.trans {t u v : Strand} (h : Still t u) (h' : Still u v) : Still t v := fun ht => by
  obtain ⟨hw, hl, hp⟩ := h ht
  obtain ⟨hw', hl', hp'⟩ := h' hw
  exact ⟨hw', hl'.trans hl, hp'.trans hp⟩

/-- From s to u, strand k stays where it waits for nothing, no pending store changes, and the launches keep their stage and their cancel. -/
structure Calm (k : StrandKey) (s u : State) : Prop where
  strand : ∀ t, findStrand s k = some t → ∃ t', findStrand u k = some t' ∧ Still t t'
  stores : ∀ c, (coreOf u c).stores = (coreOf s c).stores
  launches : u.runs.length = s.runs.length
  runs : ∀ r, (runOf u r).stage = (runOf s r).stage ∧ ((runOf s r).cancelled = true → (runOf u r).cancelled = true)

variable {k : StrandKey}

theorem Calm.refl (s : State) : Calm k s s := ⟨fun t ht => ⟨t, ht, .refl t⟩, fun _ => rfl, rfl, fun _ => ⟨rfl, id⟩⟩

theorem Calm.trans {s u v : State} (h : Calm k s u) (h' : Calm k u v) : Calm k s v where
  strand := fun t ht => by
    obtain ⟨t1, ht1, h1⟩ := h.strand t ht
    obtain ⟨t2, ht2, h2⟩ := h'.strand t1 ht1
    exact ⟨t2, ht2, h1.trans h2⟩
  stores := fun c => (h'.stores c).trans (h.stores c)
  launches := h'.launches.trans h.launches
  runs := fun r => ⟨(h'.runs r).1.trans (h.runs r).1, fun hc => (h'.runs r).2 ((h.runs r).2 hc)⟩

/-- A change of neither strands nor cores nor launches. -/
theorem Calm.of_eq {s u : State} (hs : u.strands = s.strands) (hc : u.cores = s.cores) (hr : u.runs = s.runs) : Calm k s u where
  strand := fun t ht => ⟨t, by rw [findStrand, hs]; exact ht, .refl t⟩
  stores := fun c => by rw [coreOf, hc, coreOf]
  launches := congrArg List.length hr
  runs := fun r => by rw [runOf, hr]; exact ⟨rfl, id⟩

theorem Calm.foldl {α : Type} {s : State} (f : State → α → State) (hf : ∀ u a, Calm k u (f u a)) (l : List α) : Calm k s (l.foldl f s) :=
  foldl_keeps (Calm k s) l s f (.refl s) (fun u a hu => hu.trans (hf u a))

theorem Calm.forUpTo {s : State} (n : ℕ) (f : ℕ → State → State) (hf : ∀ i u, Calm k u (f i u)) : Calm k s (forUpTo n s f) :=
  forUpTo_keeps (Calm k s) n s f (.refl s) (fun i u hu => hu.trans (hf i u))

theorem Calm.ite {p : Prop} [Decidable p] {s u v : State} (hu : Calm k s u) (hv : Calm k s v) : Calm k s (if p then u else v) := by
  split
  · exact hu
  · exact hv

/-! ### Changes of one part of the state -/

theorem calm_setCore (s : State) (c : ℕ) (f : Core → Core) (h : ∀ x, (f x).stores = x.stores) : Calm k s (setCore s c f) where
  strand := fun t ht => ⟨t, ht, .refl t⟩
  stores := fun c' => by
    rw [Machine.coreOf_setCore]
    split
    · next hc => rw [hc, h]
    · rfl
  launches := rfl
  runs := fun _ => ⟨rfl, id⟩

theorem calm_setCluster (s : State) (c : ℕ) (f : Cluster → Cluster) : Calm k s (setCluster s c f) := .of_eq rfl rfl rfl

theorem calm_setDie (s : State) (d : ℕ) (f : Die → Die) : Calm k s (setDie s d f) := .of_eq rfl rfl rfl

theorem calm_setCrew (s : State) (r c : ℕ) (f : Crew → Crew) : Calm k s (setCrew s r c f) := .of_eq rfl rfl rfl

theorem calm_due (s : State) (l : List Instr) : Calm k s { s with due := l } := .of_eq rfl rfl rfl

/-- A strand changes that is another one, or that stays still. -/
theorem calm_setStrand (s : State) (j : StrandKey) (f : Strand → Strand) (hkey : ∀ t, (f t).key = t.key) (h : j = k → ∀ t, Still t (f t)) :
    Calm k s (setStrand s j f) where
  strand := fun t ht => by
    have hj : ∀ u : Strand, u.key = j → (f u).key = j := fun u hu => (hkey u).trans hu
    by_cases he : k = j
    · subst he
      exact ⟨f t, by rw [findStrand_setStrand s k f hj, ht]; rfl, h rfl t⟩
    · exact ⟨t, by rw [findStrand_setStrand_ne s f hj he]; exact ht, .refl t⟩
  stores := fun _ => rfl
  launches := rfl
  runs := fun _ => ⟨rfl, id⟩

/-- A strand that waits may change in any way. -/
theorem calm_setStrand_waiting {s : State} {j : StrandKey} {t : Strand} (ht : findStrand s j = some t) (hwait : t.wait ≠ none)
    (f : Strand → Strand) (hkey : ∀ t, (f t).key = t.key) : Calm k s (setStrand s j f) where
  strand := fun u hu => by
    have hj : ∀ u : Strand, u.key = j → (f u).key = j := fun u hu => (hkey u).trans hu
    by_cases he : k = j
    · subst he
      obtain rfl : t = u := Option.some.inj (ht.symm.trans hu)
      exact ⟨f t, by rw [findStrand_setStrand s k f hj, ht]; rfl, fun hn => absurd hn hwait⟩
    · exact ⟨u, by rw [findStrand_setStrand_ne s f hj he]; exact hu, .refl u⟩
  stores := fun _ => rfl
  launches := rfl
  runs := fun _ => ⟨rfl, id⟩

theorem runOf_setRun_if (s : State) (r q : ℕ) (f : Run → Run) :
    runOf (setRun s r f) q = if q = r ∧ q < s.runs.length then f (runOf s q) else runOf s q := by
  simp only [runOf, setRun, lmod_get]
  by_cases hq : q = r
  · subst hq
    by_cases hlt : q < s.runs.length
    · simp [hlt]
    · simp [hlt]
  · simp [hq]

theorem length_lmod {α : Type} (f : α → α) (l : List α) (n : ℕ) : (lmod f l n).length = l.length := by
  induction l generalizing n with
  | nil => rfl
  | cons a l ih =>
    cases n with
    | zero => rfl
    | succ n => exact congrArg (· + 1) (ih n)

theorem calm_setRun (s : State) (r : ℕ) (f : Run → Run) (hstage : ∀ x, (f x).stage = x.stage)
    (hcancel : ∀ x, x.cancelled = true → (f x).cancelled = true) : Calm k s (setRun s r f) where
  strand := fun t ht => ⟨t, ht, .refl t⟩
  stores := fun _ => rfl
  launches := length_lmod f s.runs r
  runs := fun q => by
    rw [runOf_setRun_if]
    split
    · exact ⟨hstage _, hcancel _⟩
    · exact ⟨rfl, id⟩

/-! ### Writes at a home -/

/-- What memory's service leaves is calm where it registers no store. -/
theorem Served.calm {s u : State} (h : Served s u) (hstores : ∀ c, (coreOf u c).stores = (coreOf s c).stores) : Calm k s u where
  strand := fun t ht => by
    obtain ⟨r, hr⟩ := h.findStrand ht
    exact ⟨_, hr, fun hw => ⟨hw, rfl, rfl⟩⟩
  stores := hstores
  launches := by rw [h.runs]
  runs := fun r => by rw [runOf, h.runs]; exact ⟨rfl, id⟩

theorem cores_poke (s : State) (sp : Space) (a : ℕ) (bs : List Byte) : (poke s sp a bs).cores = s.cores := by simp [poke]

theorem cores_pokeKeep (s : State) (sp : Space) (a : ℕ) (bs : List Byte) : (pokeKeep s sp a bs).cores = s.cores := by simp [pokeKeep]

theorem calm_poke (s : State) (sp : Space) (a : ℕ) (bs : List Byte) : Calm k s (poke s sp a bs) :=
  (served_poke s sp a bs).calm (fun c => by rw [coreOf, cores_poke, coreOf])

theorem calm_pokeKeep (s : State) (sp : Space) (a : ℕ) (bs : List Byte) : Calm k s (pokeKeep s sp a bs) :=
  (served_pokeKeep s sp a bs).calm (fun c => by rw [coreOf, cores_pokeKeep, coreOf])

theorem calm_breakResv (s : State) (sp : Space) (a n : ℕ) : Calm k s (breakResv s sp a n) :=
  (served_breakResv s sp a n).calm (fun c => by rw [coreOf_breakResv])

theorem calm_revoke (s : State) (core word : ℕ) : Calm k s (revoke s core word) := by
  refine calm_setCore s core _ (fun c => ?_)
  split
  · rfl
  · rfl

theorem calm_setOwner (s : State) (who a n : ℕ) : Calm k s (setOwner s who a n) := by
  unfold setOwner
  split
  · exact .refl s
  · refine Calm.forUpTo _ _ (fun i u => ?_)
    have hown : Calm k u { u with owner := tset 0 u.owner (a / 4 + i) who } := .of_eq rfl rfl rfl
    dsimp only
    split
    · exact hown
    · exact hown.trans (calm_revoke _ _ _)

theorem calm_writeHome (s : State) (sp : Space) (a : ℕ) (bs : List Byte) : Calm k s (writeHome s sp a bs) := by
  have h : Calm k s (breakResv (poke s sp a bs) sp a bs.length) := (calm_poke s sp a bs).trans (calm_breakResv _ sp a bs.length)
  unfold writeHome
  split
  · exact h.trans (calm_setOwner _ _ _ _)
  · exact h

theorem calm_updateHome (s : State) (sp : Space) (a : ℕ) (bs : List Byte) : Calm k s (updateHome s sp a bs) := by
  have h : Calm k s (breakResv (pokeKeep s sp a bs) sp a bs.length) := (calm_pokeKeep s sp a bs).trans (calm_breakResv _ sp a bs.length)
  unfold updateHome
  split
  · exact h.trans (calm_setOwner _ _ _ _)
  · exact h

theorem calm_writeLocs (s : State) (ls : List Loc) (bs : List Byte) : Calm k s (writeLocs s ls bs) := by
  unfold writeLocs
  generalize runs ls = rs
  induction rs generalizing s bs with
  | nil => exact .refl s
  | cons r rs ih => exact (calm_writeHome s _ _ _).trans (ih _ _)

theorem calm_wake (s : State) (core : ℕ) (u : PowerUnit) : Calm k s (wake s core u) := calm_setCore s core _ (fun _ => rfl)

theorem calm_wakeLoc (s : State) (l : Loc) : Calm k s (wakeLoc s l) := by
  unfold wakeLoc
  split
  · exact calm_wake _ _ _
  · exact .refl s

theorem calm_wakeLocs (s : State) (ls : List Loc) : Calm k s (wakeLocs s ls) :=
  Calm.foldl _ (fun _ _ => Calm.foldl _ (fun v _ => calm_wakeLoc v _) _) _

/-! ### Event records -/

theorem calm_logEvent (s : State) (e : Event) : Calm k s (logEvent s e) := by
  unfold logEvent
  dsimp only
  split
  · exact .of_eq rfl rfl rfl
  · refine Calm.trans (u := { s with recCount := tset 0 s.recCount e.src ((tget 0 s.recCount e.src + 1) % 2 ^ 32) }) (.of_eq rfl rfl rfl) ?_
    exact (calm_writeHome _ _ _ _).trans (.of_eq rfl rfl rfl)

theorem calm_logStrand (s : State) (src kind cause : ℕ) (j : StrandKey) (addr : ℕ) : Calm k s (logStrand s src kind cause j addr) :=
  calm_logEvent s _

theorem calm_noteFailure (s : State) (f : Failure) : Calm k s (noteFailure s f) := by
  cases f with
  | walk d va n a bad => exact (calm_setDie s d _).trans (calm_logEvent _ _)
  | response src a => exact calm_logEvent s _
  | outside => exact .refl s

theorem calm_noteTrap (s : State) (tr : Trap) : Calm k s (noteTrap s tr) := by
  unfold noteTrap
  cases tr.note with
  | none => exact .refl s
  | some f => exact calm_noteFailure s f

theorem calm_reportEnded (s : State) (t : Strand) : Calm k s (reportEnded s t) := by
  unfold reportEnded
  refine Calm.trans (Calm.foldl _ ?_ _) (Calm.foldl _ ?_ _)
  · exact fun u f => calm_logStrand u _ _ _ _ _
  · exact fun u d => calm_logStrand u _ _ _ _ _

/-! ### Claims that are granted and served -/

theorem calm_powerDown (s : State) (core : ℕ) (p : PowerUnit → Bool) : Calm k s (powerDown s core p) := calm_setCore s core _ (fun _ => rfl)

theorem calm_zeroGranule (core : ℕ) (s : State) (g : ℕ) : Calm k s (zeroGranule core s g) := .of_eq rfl rfl rfl

theorem calm_grantUnits (s : State) (j : StrandKey) (cls a : ℕ) : Calm k s (grantUnits s j cls a) := by
  unfold grantUnits
  dsimp only
  split
  · refine Calm.trans (Calm.foldl _ ?_ _) (calm_setStrand _ _ _ (fun _ => rfl) (fun _ _ hw => ⟨hw, rfl, rfl⟩))
    exact fun u i => calm_wake u _ _
  · refine Calm.trans (Calm.foldl _ ?_ _) (calm_setStrand _ _ _ (fun _ => rfl) (fun _ _ hw => ⟨hw, rfl, rfl⟩))
    exact fun u g => (calm_zeroGranule _ u g).trans (calm_wake _ _ _)
  · exact (calm_setCluster s _ _).trans (calm_setCrew _ _ _ _)
  · exact calm_setCrew s _ _ _

/-- A strand whose wait is over changes; one that waits for nothing does not. -/
theorem calm_finishBlocked (s : State) (j : StrandKey) (rd : BitVec 5) (v : Word) : Calm k s (finishBlocked s j (fun s => xSet s rd v)) := by
  unfold finishBlocked
  split
  · exact .refl s
  · next t ht =>
    split
    · exact .refl s
    · next len w hw =>
      have hfin : ({ complete (setStrand (xSet { s with cur := .strand j } rd v) j (fun t => { t with life := .running, wait := none })) len .seq
            with cur := s.cur } : State) =
          setStrand s j (fun t => advance { sx t rd.toNat v with life := .running, wait := none } len .seq) := by
        simp only [xSet, complete, setStrand_cur]
        rw [setStrand_setStrand _ j _ _ (fun u hu => by exact hu), setStrand_setStrand _ j _ _ (fun u hu => by rw [sx_key, hu])]
        rfl
      dsimp only
      rw [hfin]
      exact calm_setStrand_waiting ht (by rw [hw]; exact Option.some_ne_none _) _ (fun u => (advance_key ..).trans (sx_key ..))

theorem calm_grantRequest (s : State) (cl : ℕ) (q : ClaimReq) : Calm k s (grantRequest s cl q) :=
  ((calm_setCluster s cl _).trans (calm_grantUnits _ _ _ _)).trans (calm_finishBlocked _ _ _ _)

theorem calm_servePass (s : State) (cl : ℕ) : Calm k s (servePass cl s).1 := by
  unfold servePass
  refine foldl_keeps (fun acc : State × Bool => Calm k s acc.1) _ _ _ (.refl s) (fun acc p hacc => ?_)
  refine foldl_keeps (fun acc : State × Bool => Calm k s acc.1) _ _ _ hacc (fun acc q hacc => ?_)
  split
  · exact hacc.trans (calm_grantRequest _ cl q)
  · exact hacc

theorem calm_serveClaims (s : State) (cl : ℕ) : Calm k s (serveClaims s cl) := by
  unfold serveClaims
  generalize (clusterOf s cl).claimq.length + 1 = fuel
  induction fuel generalizing s with
  | zero => exact .refl s
  | succ fuel ih =>
    rw [serveLoop]
    dsimp only
    split
    · exact (calm_servePass s cl).trans (ih _)
    · exact calm_servePass s cl

/-! ### A strand that leaves its slot -/

theorem calm_freeEntries (s : State) (run : ℕ) (p : ℕ → ℕ → BindEntry → Bool) : Calm k s (freeEntries s run p) :=
  Calm.forUpTo _ _ (fun _ u => calm_setDie u _ _)

theorem calm_crewDone (s : State) (j : StrandKey) : Calm k s (crewDone s j) := by
  unfold crewDone
  dsimp only
  split
  · exact .refl s
  · refine Calm.trans (Calm.trans ?_ (calm_setRun _ _ _ ?_ ?_)) (calm_due _ _)
    · exact (calm_setCluster s _ _).trans (calm_setCrew _ _ _ _)
    · exact fun _ => rfl
    · exact fun _ hc => hc

theorem calm_surrenderCrew (s : State) (j : StrandKey) : Calm k s (surrenderCrew s j) := by
  unfold surrenderCrew
  dsimp only
  split
  · exact .refl s
  · exact (calm_setCluster s _ _).trans (calm_setCrew _ _ _ _)

theorem calm_crossingDue (s : State) (run : ℕ) : Calm k s (crossingDue s run) := by
  unfold crossingDue
  split
  · exact .of_eq rfl rfl rfl
  · exact .refl s

theorem calm_leftSlot (s : State) (t : Strand) : Calm k s (leftSlot s t) :=
  ((((calm_crewDone s t.key).trans (calm_surrenderCrew _ t.key)).trans (calm_freeEntries _ _ _)).trans (calm_serveClaims _ _)).trans
    (calm_crossingDue _ _)

theorem calm_keepPosted (s : State) (j : StrandKey) (core : ℕ) (stay : Tab ℕ) : Calm k s (keepPosted s j core stay) := by
  unfold keepPosted
  split
  · exact .refl s
  · exact .of_eq rfl rfl rfl

theorem calm_dropClaim (s : State) (t : Strand) : Calm k s (dropClaim s t) := calm_setCluster s _ _

theorem calm_dropEscalated (s : State) (t : Strand) : Calm k s (dropEscalated s t) := calm_setDie s _ _

theorem calm_clearSlotBits (s : State) (t : Strand) : Calm k s (clearSlotBits s t) := calm_setCore s _ _ (fun _ => rfl)

theorem calm_endMastership (s : State) (t : Strand) : Calm k s (endMastership s t) := .of_eq rfl rfl rfl

/-- What happens before a strand's end. -/
theorem calm_beforeEnd (s : State) (t : Strand) : Calm k s (clearSlotBits (endMastership (dropEscalated (dropClaim (reportEnded s t) t) t) t) t) :=
  ((((calm_reportEnded s t).trans (calm_dropClaim _ t)).trans (calm_dropEscalated _ t)).trans (calm_endMastership _ t)).trans
    (calm_clearSlotBits _ t)

/-- The end of another strand. -/
theorem calm_endStrand (s : State) {j : StrandKey} (hj : j ≠ k) (keep : Bool) : Calm k s (endStrand s j keep) := by
  unfold endStrand
  split
  · exact .refl s
  · next t ht =>
    dsimp only
    refine Calm.trans ?_ (calm_leftSlot _ t)
    refine Calm.trans ?_ (calm_keepPosted _ _ _ _)
    refine Calm.trans ?_ (calm_setStrand _ _ _ (fun _ => rfl) (fun he => absurd he hj))
    exact ((calm_beforeEnd s t).trans (calm_powerDown _ _ _)).trans (calm_powerDown _ _ _)

/-- Strand k is there, waits for nothing, and has a life. -/
def Rests (k : StrandKey) (l : Life) (u : State) : Prop := ∃ t', findStrand u k = some t' ∧ t'.wait = none ∧ t'.life = l

theorem Rests.calm {l : Life} {s u : State} (h : Rests k l s) (hu : Calm k s u) : Rests k l u := by
  obtain ⟨t, ht, hw, hl⟩ := h
  obtain ⟨t', ht', hstill⟩ := hu.strand t ht
  obtain ⟨hw', hl', -⟩ := hstill hw
  exact ⟨t', ht', hw', hl'.trans hl⟩

theorem rests_goneStrand {s : State} {t : Strand} (ht : findStrand s k = some t) (l : Life) : Rests k l (setStrand s k (goneStrand l)) :=
  ⟨goneStrand l t, (findStrand_setStrand s k (goneStrand l) (fun _ hu => hu)).trans (by rw [ht]; rfl), rfl, rfl⟩

/-- The strand that ends has ended, and no pending store has changed. -/
theorem endStrand_rests {s : State} {t : Strand} (ht : findStrand s k = some t) (keep : Bool) :
    Rests k .ended (endStrand s k keep) ∧ ∀ c, (coreOf (endStrand s k keep) c).stores = (coreOf s c).stores := by
  simp only [endStrand, ht]
  have hbefore : Calm k s _ := ((calm_beforeEnd s t).trans (calm_powerDown _ t.core (blockFrom t.slot 0))).trans
    (calm_powerDown _ t.core (granuleOf (t.granules.filter (fun g => !((if keep then postedGranules s t else []).map (·.2)).contains g))))
  obtain ⟨t', ht', -⟩ := hbefore.strand t ht
  have hafter (u : State) : Calm k u (leftSlot (keepPosted u k t.core (if keep then postedGranules s t else [])) t) :=
    (calm_keepPosted u _ _ _).trans (calm_leftSlot _ t)
  exact ⟨(rests_goneStrand ht' .ended).calm (hafter _), fun c => ((hafter _).stores c).trans (hbefore.stores c)⟩

end Sys2Proof.Proofs
end

section
/-! PROOFS. HALT (R138): it waits for commands, traps on its tag, and ends or retains its strand. -/

namespace Sys2Proof.Proofs

open Machine Oblig

/-! ### Stores of a strand that registers them -/

theorem stores_refreshWord (core : ℕ) (s : State) (word c : ℕ) : (coreOf (refreshWord core s word) c).stores = (coreOf s c).stores := by
  unfold refreshWord
  split
  · refine (calm_setCore (k := ⟨0, 0⟩) s core _ ?_).stores c
    exact fun _ => rfl
  · rfl

/-- A store that registers leaves its core's queue. -/
theorem stores_registerStore (core : ℕ) (s : State) (p : PendStore) :
    (coreOf (registerStore core s p) core).stores = (coreOf s core).stores.erase p := by
  unfold registerStore
  dsimp only
  refine foldl_keeps (fun u : State => (coreOf u core).stores = (coreOf s core).stores.erase p) _ _ _ ?_
    (fun u w hu => (stores_refreshWord core u w core).trans hu)
  have hcalm := ((calm_poke (k := ⟨0, 0⟩) (setCore s core (fun c => { c with stores := c.stores.erase p })) .dev p.pa p.data).trans
    (calm_breakResv _ .dev p.pa p.data.length)).trans (calm_setOwner _ (core + 1) p.pa p.data.length)
  rw [hcalm.stores core, Machine.coreOf_setCore, if_pos rfl]

theorem stores_foldl_registerStore (core : ℕ) (ps : List PendStore) (s : State) :
    (coreOf (ps.foldl (registerStore core) s) core).stores = (coreOf s core).stores.diff ps := by
  induction ps generalizing s with
  | nil => rfl
  | cons p ps ih => rw [List.foldl_cons, ih, stores_registerStore, List.diff_cons]

theorem count_wantedStores (want : PendStore → Bool) (l : List PendStore) {p : PendStore} (hp : want p = true) :
    (wantedStores want l).count p = l.count p := by
  induction l with
  | nil => rfl
  | cons q l ih =>
    simp only [wantedStores]
    split
    · rw [List.count_cons, List.count_cons, ih]
    · next hq =>
      have hne : q ≠ p := fun he => hq (by rw [he, hp, Bool.true_or])
      rw [List.count_cons_of_ne hne, ih]

/-- After a release no store of the party is pending. -/
theorem no_stores_release (s : State) (core : ℕ) (key : StrandKey) : ∀ p ∈ (coreOf (release s core key) core).stores, p.key ≠ key := by
  intro p hp hkey
  rw [release, registerWhere, stores_foldl_registerStore] at hp
  have hcount := List.count_pos_iff.mpr hp
  rw [List.count_diff, count_wantedStores _ _ (decide_eq_true hkey)] at hcount
  omega

/-! ### A strand that is retained -/

theorem calm_renameUnit {k : StrandKey} (s : State) (core : ℕ) (u v : PowerUnit) : Calm k s (renameUnit s core u v) :=
  calm_setCore s core _ (fun _ => rfl)

theorem retained_grantUnits (s : State) (j : StrandKey) (cls a : ℕ) : (grantUnits s j cls a).retained = s.retained := by
  have hkeep {α : Type} (l : List α) (f : State → α → State) (hf : ∀ u x, (f u x).retained = u.retained) : (l.foldl f s).retained = s.retained :=
    foldl_keeps (fun u : State => u.retained = s.retained) l s f rfl (fun u x hu => (hf u x).trans hu)
  unfold grantUnits
  dsimp only
  split
  · exact hkeep _ _ (fun _ _ => rfl)
  · exact hkeep _ _ (fun _ _ => rfl)
  · rfl
  · rfl

theorem retained_finishBlocked (s : State) (j : StrandKey) (rd : BitVec 5) (v : Word) :
    (finishBlocked s j (fun s => xSet s rd v)).retained = s.retained := by
  unfold finishBlocked
  split
  · rfl
  · split
    · rfl
    · rfl

theorem retained_serveClaims (s : State) (cl : ℕ) : (serveClaims s cl).retained = s.retained := by
  have hpass (u : State) : (servePass cl u).1.retained = u.retained := by
    unfold servePass
    refine foldl_keeps (fun acc : State × Bool => acc.1.retained = u.retained) _ _ _ rfl (fun acc p hacc => ?_)
    refine foldl_keeps (fun acc : State × Bool => acc.1.retained = u.retained) _ _ _ hacc (fun acc q hacc => ?_)
    split
    · exact ((retained_finishBlocked _ _ _ _).trans (retained_grantUnits _ _ _ _)).trans hacc
    · exact hacc
  unfold serveClaims
  generalize (clusterOf s cl).claimq.length + 1 = fuel
  induction fuel generalizing s with
  | zero => rfl
  | succ fuel ih =>
    rw [serveLoop]
    dsimp only
    split
    · exact (ih _).trans (hpass s)
    · exact hpass s

theorem retained_leftSlot (s : State) (t : Strand) : (leftSlot s t).retained = s.retained := by
  have hdone (u : State) : (crewDone u t.key).retained = u.retained := by
    unfold crewDone
    dsimp only
    split
    · rfl
    · rfl
  have hsurrender (u : State) : (surrenderCrew u t.key).retained = u.retained := by
    unfold surrenderCrew
    dsimp only
    split
    · rfl
    · rfl
  have hfree (u : State) : (freeDone u t.key.run).retained = u.retained :=
    forUpTo_keeps (fun v : State => v.retained = u.retained) _ _ _ rfl (fun _ _ hv => hv)
  have hcross (u : State) : (crossingDue u t.key.run).retained = u.retained := by
    unfold crossingDue
    split
    · rfl
    · rfl
  rw [leftSlot, hcross, retained_serveClaims, hfree, hsurrender, hdone]

/-- The strand is RETAINED, no pending store has changed, and its holding is kept. -/
theorem retainStrand_rests {s : State} {t t1 : Strand} (ht : findStrand s t.key = some t1) (tag : Word) :
    Rests t.key .retained (retainStrand s t tag) ∧ (∀ c, (coreOf (retainStrand s t tag) c).stores = (coreOf s c).stores) ∧
      ∃ h ∈ (retainStrand s t tag).retained, h.ctx = t.ctx ∧ h.tag = tag ∧ h.key = t.key ∧ h.granules = t.granules ∧ h.vblocks = t.vblocks := by
  have hbefore : Calm t.key s (clearSlotBits (dropEscalated (reportEnded s t) t) t) :=
    ((calm_reportEnded s t).trans (calm_dropEscalated _ t)).trans (calm_clearSlotBits _ t)
  obtain ⟨t2, ht2, -⟩ := hbefore.strand t1 ht
  have hafter : Calm t.key (setStrand (clearSlotBits (dropEscalated (reportEnded s t) t) t) t.key (goneStrand .retained)) (retainStrand s t tag) := by
    unfold retainStrand
    dsimp only
    refine Calm.trans ?_ (calm_leftSlot _ t)
    refine Calm.trans ?_ (Calm.forUpTo _ _ (fun b u => calm_renameUnit u _ _ _))
    refine Calm.trans ?_ (calm_setCore _ _ _ ?_)
    · refine Calm.ite ?_ (.of_eq rfl rfl rfl)
      exact .of_eq rfl rfl rfl
    · exact fun _ => rfl
  refine ⟨(rests_goneStrand ht2 .retained).calm hafter, fun c => (hafter.stores c).trans (hbefore.stores c), ?_⟩
  have hrename (u : State) : (forUpTo t.vblocks u (fun b s => renameUnit s t.core (.vreg t.slot b) (.held t.key.run t.key.gls b))).retained =
      u.retained := forUpTo_keeps (fun v : State => v.retained = u.retained) _ _ _ rfl (fun _ _ hv => hv)
  unfold retainStrand
  dsimp only
  rw [retained_leftSlot, hrename, setCore_retained]
  split
  · exact ⟨_, List.mem_append_right _ (List.mem_singleton.mpr rfl), rfl, rfl, rfl, rfl, rfl⟩
  · exact ⟨_, List.mem_append_right _ (List.mem_singleton.mpr rfl), rfl, rfl, rfl, rfl, rfl⟩

/-! ### HALT -/

theorem exec_halt {s : State} {t : Strand} {rs1 : BitVec 5} {retain : Bool} (h : Issues s t) (hok : formOk (.halt rs1 retain) = true) :
    exec (.halt rs1 retain) s = retire 4 (
      if retain && gx t rs1.toNat = 0 then .trap s (parcelTrap cEngine s (.halt rs1 retain))
      else tryHalt s t (gx t rs1.toNat) retain (curParcel s (.halt rs1 retain))) :=
  runStrand_eq (i := .halt rs1 retain) _ h.1 h.2 hok

/-- A strand that rests goes on doing so when the party's instruction has completed where it stands. -/
theorem calm_complete_stay {k : StrandKey} (s : State) (len : ℕ) : Calm k s (complete s len .stay) := by
  unfold complete
  split
  · exact calm_setStrand _ _ _ (fun _ => rfl) (fun _ t => .refl t)
  · refine calm_setCore _ _ _ ?_
    exact fun _ => rfl

theorem retained_complete_stay (s : State) (len : ℕ) : (complete s len .stay).retained = s.retained := by
  unfold complete
  split
  · rfl
  · rfl

/-- HALT of a strand whose commands have completed, with a tag that it may retain under. -/
theorem exec_halt_done {s : State} {t : Strand} {rs1 : BitVec 5} {retain : Bool} (h : Issues s t) (hok : formOk (.halt rs1 retain) = true)
    (hdone : classesDone s t 29 = true) (htag : retain = true → gx t rs1.toNat ≠ 0)
    (hfresh : retain = true → ∀ h ∈ s.retained, ¬ (h.ctx = t.ctx ∧ h.tag = gx t rs1.toNat)) :
    exec (.halt rs1 retain) s = .next (complete (if retain = true then retainStrand (release s t.core t.key) t (gx t rs1.toNat)
      else endStrand (release s t.core t.key) t.key true) 4 .stay) := by
  have htag' : ¬ ((retain && gx t rs1.toNat = 0) = true) := by
    rw [Bool.and_eq_true, decide_eq_true_eq]
    exact fun hp => htag hp.1 hp.2
  have hfresh' : ¬ ((retain && s.retained.any (fun h => h.ctx = t.ctx && h.tag = gx t rs1.toNat)) = true) := by
    rw [Bool.and_eq_true, List.any_eq_true]
    rintro ⟨hretain, e, he, hboth⟩
    exact hfresh hretain e he (by simpa using hboth)
  rw [exec_halt h hok, if_neg htag', tryHalt, if_neg (by rw [hdone]; decide), if_neg hfresh']
  rfl

theorem halt_completes : haltCompletes := by
  intro s t rs1 retain h hok hdone htag hfresh
  obtain ⟨r, hr⟩ := (fetched_release s t.core t.key).toServed.findStrand h.2
  have hnone := no_stores_release s t.core t.key
  have hexec := exec_halt_done h hok hdone htag hfresh
  cases retain with
  | true =>
    rw [if_pos rfl] at hexec
    obtain ⟨hrests, hstores, e, he, hfields⟩ := retainStrand_rests hr (gx t rs1.toNat)
    have hstay := calm_complete_stay (k := t.key) (retainStrand (release s t.core t.key) t (gx t rs1.toNat)) 4
    obtain ⟨t', hfind, hwait, hlife⟩ := hrests.calm hstay
    refine ⟨_, t', hexec, hfind, hwait, hlife, fun p hp => hnone p ?_, fun _ _ => ⟨e, ?_, hfields⟩⟩
    · rw [hstay.stores, hstores] at hp
      exact hp
    · rw [retained_complete_stay]
      exact he
  | false =>
    rw [if_neg (by decide)] at hexec
    obtain ⟨hrests, hstores⟩ := endStrand_rests hr true
    have hstay := calm_complete_stay (k := t.key) (endStrand (release s t.core t.key) t.key true) 4
    obtain ⟨t', hfind, hwait, hlife⟩ := hrests.calm hstay
    refine ⟨_, t', hexec, hfind, hwait, hlife, fun p hp => hnone p ?_, fun he => absurd he (by decide)⟩
    rw [hstay.stores, hstores] at hp
    exact hp

theorem halt_waits : haltWaits := by
  intro s t rs1 retain h hok hrep i tag
  have hexec := exec_halt h hok
  have hparcel : curParcel s (.halt rs1 retain) = firstParcel (.halt rs1 retain) := by simp only [curParcel, h.1, strandOf_eq h.2, hrep]
  refine ⟨fun hretain h0 => ?_, fun htag hdone => ⟨now s t.core, .halt tag retain (curParcel s (.halt rs1 retain)), ?_⟩, fun hretain htag hdone hheld => ?_⟩
  · rw [hexec, if_pos (by rw [hretain, Bool.true_and]; exact decide_eq_true h0)]
    exact traps_parcel h hrep _ _
  · have htag' : ¬ ((retain && gx t rs1.toNat = 0) = true) := by
      rw [Bool.and_eq_true, decide_eq_true_eq]
      exact fun hp => htag hp.1 hp.2
    rw [hexec, if_neg htag', tryHalt, if_pos (by rw [hdone]; rfl)]
    exact nextStrand_wait h _
  · have htag' : ¬ ((retain && gx t rs1.toNat = 0) = true) := by
      rw [Bool.and_eq_true, decide_eq_true_eq]
      exact fun hp => htag hp.2
    have hheld' : (retain && s.retained.any (fun h => h.ctx = t.ctx && h.tag = gx t rs1.toNat)) = true := by
      rw [hretain, Bool.true_and, List.any_eq_true]
      obtain ⟨e, he, hctx, htag⟩ := hheld
      exact ⟨e, he, by simpa using ⟨hctx, htag⟩⟩
    rw [hexec, if_neg htag', tryHalt, if_neg (by rw [hdone]; decide), if_pos hheld', hparcel]
    exact traps_trapCur 4 _ h rfl rfl

/-- Settles O23: HALT's cases in their order; what leaves a slot leaves the strand that has gone, and the stores that registered. -/
theorem haltResults : Obligations.HaltResults := ⟨halt_completes, halt_waits⟩

end Sys2Proof.Proofs
end

section
/-! PROOFS. What happens to a core of itself: a pending store registers (R317), a fault packet goes to its buddy (R192), and a sleeping
handler wakes (R191, R196). -/

namespace Sys2Proof.Proofs

open Machine Oblig

/-! ### A pending store registers -/

theorem sameBytes_refreshWord (core : ℕ) (s : State) (word : ℕ) : SameBytes s (refreshWord core s word) := by
  unfold refreshWord
  split
  · exact peek_setCore s core _
  · exact sameBytes_refl s

/-- A store that registers writes its bytes at its home, as an engine's write of them does. -/
theorem peek_registerStore (core : ℕ) (s : State) (p : PendStore) (sp : Space) (j : ℕ) :
    peek (registerStore core s p) sp j = if sp = .dev ∧ p.pa ≤ j ∧ j < p.pa + p.data.length then p.data.getD (j - p.pa) 0 else peek s sp j := by
  unfold registerStore
  dsimp only
  refine (foldl_keeps (fun u : State => SameBytes _ u) _ _ _ (sameBytes_refl _)
    (fun u w hu => sameBytes_trans hu (sameBytes_refreshWord core u w)) sp j).trans ?_
  rw [peek_setOwner, peek_breakResv, peek_poke, peek_setCore]

theorem peekN_of_getD {s : State} {sp : Space} {a : ℕ} {bs : List Byte} (h : ∀ j, a ≤ j → j < a + bs.length → peek s sp j = bs.getD (j - a) 0) :
    peekN s sp a bs.length = bs := by
  refine List.ext_getElem (peekN_length ..) (fun i hi hb => ?_)
  simp only [peekN, tabulate_eq, List.getElem_map, List.getElem_range]
  rw [h _ (by omega) (by omega), Nat.add_sub_cancel_left, List.getD_eq_getElem _ _ hb]

theorem coreEvents_storeRegister (s : State) (core : ℕ) (hcore : coreOk core = true) {p : PendStore} {rest : List PendStore}
    (hp : (coreOf s core).stores = p :: rest) : ∃ u, exec (.storeRegister core) s = .next u ∧ (coreOf u core).stores = rest ∧
      peekN u .dev p.pa p.data.length = p.data ∧ OtherBytes s u .dev p.pa p.data.length := by
  have hexec : exec (.storeRegister core) s = .next (registerStore core s p) := by
    rw [show exec (.storeRegister core) s = runEvent (coreOk core) (registerOne s core) from rfl, runEvent, if_pos hcore, registerOne, hp]
  refine ⟨_, hexec, ?_, peekN_of_getD (fun j hl hu => ?_), fun sp b hb => ?_⟩
  · rw [stores_registerStore, hp, List.erase_cons_head]
  · rw [peek_registerStore, if_pos ⟨rfl, hl, hu⟩]
  · rw [peek_registerStore, if_neg hb]

/-! ### Fault packets -/

theorem Served.dies {s u : State} (h : Served s u) : u.dies = s.dies := by rw [h.rest]

/-- An event's record leaves every die, and of cores only what serves their accesses. -/
theorem dies_logEvent (s : State) (e : Event) : (logEvent s e).dies = s.dies := by
  unfold logEvent
  dsimp only
  split
  · rfl
  · exact (served_writeHome { s with recCount := tset 0 s.recCount e.src ((tget 0 s.recCount e.src + 1) % 2 ^ 32) } _ _ _).dies

theorem coreServed_logEvent (s : State) (e : Event) (c : ℕ) : CoreServed (coreOf s c) (coreOf (logEvent s e) c) := by
  unfold logEvent
  dsimp only
  split
  · exact .refl _
  · exact (served_writeHome { s with recCount := tset 0 s.recCount e.src ((tget 0 s.recCount e.src + 1) % 2 ^ 32) } _ _ _).cores c

theorem outq_logEvent (s : State) (e : Event) (c : ℕ) : (coreOf (logEvent s e) c).outq = (coreOf s c).outq := by
  rw [coreServed_logEvent s e c]

/-- The die with the packet in the die manager's list. -/
def withPacket (p : Packet) (d : Die) : Die := { d with escalated := d.escalated ++ [p] }

/-- An escalation: the packet enters the list, and what else it changes of the state is a strand, its record and a vector. -/
theorem escalate_parts (s : State) (core : ℕ) (p : Packet) : ∃ s2,
    escalate s core p = raiseVector (logStrand s2 (dieSource (dieOfCore core)) 1 p.cause.toNat p.key p.tval.toNat) (ctxVector (strandOf s p.key).ctx) ∧
    s2.cores = s.cores ∧ s2.dies = (setDie s (dieOfCore core) (withPacket p)).dies := by
  by_cases hlife : (strandOf s p.key).life = .frozen
  · refine ⟨setStrand (setDie s (dieOfCore core) (withPacket p)) p.key (fun t => { t with escalated := true }), ?_, rfl, rfl⟩
    rw [escalate, if_pos hlife]
    rfl
  · refine ⟨setDie s (dieOfCore core) (withPacket p), ?_, rfl, rfl⟩
    rw [escalate, if_neg hlife]
    rfl

/-- A packet that is escalated stands in the die manager's list; no core's queue changes. -/
theorem escalate_answers (s : State) (core : ℕ) (p : Packet) :
    (∀ c, (coreOf (escalate s core p) c).outq = (coreOf s c).outq) ∧ p ∈ (dieOf (escalate s core p) (dieOfCore core)).escalated := by
  obtain ⟨s2, heq, hcores, hdies⟩ := escalate_parts s core p
  rw [heq]
  refine ⟨fun c => (outq_logEvent s2 _ c).trans ?_, ?_⟩
  · rw [coreOf, hcores, coreOf]
  · have hdie : dieOf (raiseVector (logStrand s2 (dieSource (dieOfCore core)) 1 p.cause.toNat p.key p.tval.toNat) (ctxVector (strandOf s p.key).ctx))
        (dieOfCore core) = dieOf (setDie s (dieOfCore core) (withPacket p)) (dieOfCore core) :=
      congrArg (fun ds => tget ({} : Die) ds (dieOfCore core)) ((dies_logEvent s2 _).trans hdies)
    rw [hdie, dieOf_setDie, if_pos rfl]
    exact List.mem_append_right _ (List.mem_singleton.mpr rfl)

theorem peek_due (s : State) (l : List Instr) (sp : Space) (a : ℕ) : peek { s with due := l } sp a = peek s sp a := by
  cases sp <;> rfl

/-- A core's oldest packet goes to its buddy's queue, which has room for it. -/
theorem coreEvents_deliver (s : State) (core : ℕ) (hcore : coreOk core = true) {p : Packet} {rest : List Packet}
    (hp : (coreOf s core).outq = p :: rest) (hb : core / 768 * 768 + pairtabOf s core ≠ core) (htab : pairtabOf s core < 768)
    (hroom : (coreOf s (core / 768 * 768 + pairtabOf s core)).faultq.length < 16) :
    ∃ u, exec (.faultPacketDeliver core) s = .next u ∧ (coreOf u core).outq = rest ∧
      (coreOf u (core / 768 * 768 + pairtabOf s core)).faultq = (coreOf s (core / 768 * 768 + pairtabOf s core)).faultq ++ [p] ∧ SameBytes s u := by
  have hbuddy : buddyOf s core = core / 768 * 768 + pairtabOf s core := rfl
  rw [← hbuddy] at hb hroom ⊢
  have hrefused : ¬ ((decide (Config.dieCores ≤ pairtabOf s core) || decide (16 ≤ (coreOf s (buddyOf s core)).faultq.length)) = true) := by
    rw [Bool.or_eq_true, decide_eq_true_eq, decide_eq_true_eq]
    exact fun h => h.elim (Nat.not_le.mpr htab) (Nat.not_le.mpr hroom)
  generalize hs1 : setCore (setCore s core (fun c => { c with outq := rest })) (buddyOf s core) (fun c => { c with faultq := c.faultq ++ [p] }) = s1
  have hexec : exec (.faultPacketDeliver core) s = .next { s1 with due := s1.due ++ [.handlerWake (buddyOf s core)] } := by
    rw [show exec (.faultPacketDeliver core) s = execFaultPacketDeliver core s from rfl, execFaultPacketDeliver, runEvent, if_pos hcore, hp]
    simp only [if_neg hb, if_neg hrefused, hs1]
  have hout : (coreOf s1 core).outq = rest := by rw [← hs1, Machine.coreOf_setCore, if_neg (Ne.symm hb), Machine.coreOf_setCore, if_pos rfl]
  have hin : (coreOf s1 (buddyOf s core)).faultq = (coreOf s (buddyOf s core)).faultq ++ [p] := by
    rw [← hs1, Machine.coreOf_setCore, if_pos rfl, Machine.coreOf_setCore, if_neg hb]
  have hbytes : SameBytes s s1 := fun sp a => by rw [← hs1, peek_setCore, peek_setCore]
  exact ⟨_, hexec, hout, hin, fun sp a => (peek_due s1 _ sp a).trans (hbytes sp a)⟩

/-- The oldest packet of a core that is its own buddy goes to the die manager. -/
theorem coreEvents_escalate (s : State) (core : ℕ) (hcore : coreOk core = true) {p : Packet} {rest : List Packet}
    (hp : (coreOf s core).outq = p :: rest) (hb : core / 768 * 768 + pairtabOf s core = core) :
    ∃ u, exec (.faultPacketDeliver core) s = .next u ∧ (coreOf u core).outq = rest ∧ p ∈ (dieOf u (core / 768)).escalated := by
  have hexec : exec (.faultPacketDeliver core) s = .next (escalate (setCore s core (fun c => { c with outq := rest })) core p) := by
    rw [show exec (.faultPacketDeliver core) s = execFaultPacketDeliver core s from rfl, execFaultPacketDeliver, runEvent, if_pos hcore, hp]
    simp only [if_pos (show buddyOf s core = core from hb)]
  obtain ⟨hout, hmem⟩ := escalate_answers (setCore s core (fun c => { c with outq := rest })) core p
  refine ⟨_, hexec, ?_, hmem⟩
  rw [hout, Machine.coreOf_setCore, if_pos rfl]

/-! ### A handler wakes -/

theorem coreEvents_wake (s : State) (core : ℕ) (hcore : coreOk core = true) {p : Packet} {rest : List Packet}
    (hp : (coreOf s core).faultq = p :: rest) (hawake : (coreOf s core).hawake = false) (hfrozen : (coreOf s core).hfrozen = false) :
    ∃ u, exec (.handlerWake core) s = .next u ∧ (coreOf u core).hawake = true ∧ (coreOf u core).hpc = 0 ∧
      (coreOf u core).loaded = some p ∧ (coreOf u core).valid = true ∧ (coreOf u core).faultq = rest ∧ SameBytes s u := by
  have hexec : exec (.handlerWake core) s = .next (nextPacket s core) := by
    rw [show exec (.handlerWake core) s = execHandlerWake core s from rfl, execHandlerWake, runEvent, if_pos hcore]
    simp only [hawake, hfrozen, hp, List.isEmpty_cons, Bool.or_self, Bool.false_eq_true, if_false]
  have hwoken : coreOf (nextPacket s core) core =
      { coreOf s core with hawake := true, hpc := 0, faultq := rest, loaded := some p, valid := true } := by
    rw [nextPacket, Machine.coreOf_setCore, if_pos rfl]
    simp only [hp]
  refine ⟨_, hexec, ?_⟩
  rw [hwoken]
  exact ⟨rfl, rfl, rfl, rfl, rfl, peek_setCore s core _⟩

theorem strandEvents_core : coreEvents := fun s core hcore =>
  ⟨fun _ _ hp => coreEvents_storeRegister s core hcore hp,
    fun _ _ hp => ⟨fun hb htab hroom => coreEvents_deliver s core hcore hp hb htab hroom, fun hb => coreEvents_escalate s core hcore hp hb⟩,
    fun _ _ hp hawake hfrozen => coreEvents_wake s core hcore hp hawake hfrozen⟩

end Sys2Proof.Proofs
end

section
/-! PROOFS. A strand's commands stop (R236, R261, R294, R411, R412), and a cancel that has reached it ends it (R113, R140). -/

namespace Sys2Proof.Proofs

open Machine Oblig

variable {k : StrandKey}

/-! ### Credits -/

theorem calm_addFault (s : State) (j : StrandKey) (f : PendFault) : Calm k s (addFault s j f) :=
  calm_setStrand s j _ (fun _ => rfl) (fun _ _ hw => ⟨hw, rfl, rfl⟩)

theorem calm_creditFault (s : State) (t : Strand) (order : ℕ) (ptr : Word) (a : ℕ) : Calm k s (creditFault s t order ptr a) := by
  unfold creditFault
  exact Calm.ite (.refl s) ((calm_noteFailure s _).trans (calm_addFault _ _ _))

theorem calm_credit (s : State) (j : StrandKey) (order : ℕ) (ptr : Word) (n bits : ℕ) : Calm k s (credit s j order ptr n bits) := by
  unfold credit
  split
  · exact .refl s
  · split
    · exact .refl s
    · next t ht =>
      refine Calm.ite (.refl s) (Calm.ite ?_ (Calm.ite (.refl s) ?_))
      · exact (calm_wakeLoc s _).trans (calm_creditFault _ t order ptr _)
      · exact (calm_wakeLoc s _).trans (calm_updateHome _ _ _ _)

/-! ### Commands that stop -/

theorem calm_copyDrop (s : State) (cl : ℕ) (c : CopyCmd) : Calm k s (copyDrop s cl c) := calm_setCluster s cl _

theorem calm_copyStop (cl bits : ℕ) (s : State) (c : CopyCmd) : Calm k s (copyStop cl bits s c) :=
  (calm_credit s _ _ _ _ _).trans (calm_copyDrop _ _ _)

theorem calm_setBlockState (s : State) (t : Strand) (ptr : Word) (v : ℕ) : Calm k s (setBlockState s t ptr v) :=
  (calm_wakeLocs s _).trans (calm_writeLocs _ _ _)

theorem calm_xFinish (s : State) (cl : ℕ) (q : XformReq) (final bits : ℕ) : Calm k s (xFinish s cl q final bits) := by
  unfold xFinish
  dsimp only
  split
  · exact (calm_setCluster s _ _).trans (calm_serveClaims _ _)
  · refine Calm.trans (Calm.trans ?_ (calm_credit _ _ _ _ _ _)) (calm_serveClaims _ _)
    exact Calm.ite (calm_setCluster s cl _) ((calm_setCluster s cl _).trans (calm_setBlockState _ _ _ _))

theorem calm_spread (s : State) (type : ℕ) (ps : List (BitVec 512)) : Calm k s (spread s type ps) := by
  unfold spread sendFlits
  refine Calm.ite (.of_eq rfl rfl rfl) (Calm.foldl _ ?_ _)
  exact fun u e => .of_eq rfl rfl rfl

theorem calm_collEnd (s : State) (c : Coll) (result bits : ℕ) : Calm k s (collEnd s c result bits) := by
  have hconsumed : Calm k s { consume s (flitFor c) with colls := s.colls.filter (fun x => x.id ≠ c.id) } := .of_eq rfl rfl rfl
  unfold collEnd
  dsimp only
  split
  · exact hconsumed
  · refine Calm.trans ?_ (calm_credit _ _ _ _ _ _)
    exact Calm.ite hconsumed ((hconsumed.trans (calm_wakeLocs _ _)).trans (calm_writeLocs _ _ _))

theorem calm_collFailAll (s : State) (c : Coll) (cause : CollCause) : Calm k s (collFailAll s c cause) :=
  ((calm_spread s _ _).trans (calm_logStrand _ _ _ _ _ _)).trans (calm_collEnd _ _ _ _)

theorem calm_stopColl (cause : CollCause) (s : State) (c : Coll) : Calm k s (stopColl collFailAll cause s c) := by
  unfold stopColl
  split
  · exact calm_collEnd s c _ _
  · exact calm_collFailAll s c cause

theorem calm_stopCommands (s : State) (t : Strand) : Calm k s (stopCommands s t) := by
  unfold stopCommands
  dsimp only
  refine Calm.trans ?_ (Calm.foldl _ (fun u c => calm_stopColl _ u c) _)
  refine Calm.trans ?_ (calm_setCluster _ _ _)
  refine Calm.trans ?_ (Calm.foldl _ (fun u q => calm_xFinish u _ q _ _) _)
  exact (calm_dropClaim s t).trans (Calm.foldl _ (fun u c => calm_copyStop _ _ u c) _)

/-! ### Postings that are discarded -/

theorem calm_freePostHolds (s : State) (p : PostHold → Bool) : Calm k s (freePostHolds s p) := by
  unfold freePostHolds
  dsimp only
  refine Calm.trans ?_ (Calm.foldl _ (fun u cl => calm_serveClaims u cl) _)
  refine Calm.trans (u := { s with postHolds := s.postHolds.filter (fun h => !p h) }) (.of_eq rfl rfl rfl) ?_
  exact Calm.foldl _ (fun u h => calm_powerDown u _ _) _

theorem calm_discardPosts (s : State) (run : ℕ) (p : ℕ → Bool) : Calm k s (discardPosts s run p) := by
  unfold discardPosts
  dsimp only
  refine Calm.trans ?_ (calm_freePostHolds _ _)
  exact calm_setRun s run _ (fun _ => rfl) (fun _ hc => hc)

/-! ### A strand that is cancelled -/

theorem endCancelled_rests {s : State} {t t1 : Strand} (ht : findStrand s t.key = some t1) : Rests t.key .ended (endCancelled s t) := by
  obtain ⟨t', ht', -⟩ := ((calm_discardPosts (k := t.key) s t.key.run (fun g => g = t.key.gls)).trans (calm_stopCommands _ t)).strand t1 ht
  exact (endStrand_rests ht' false).1

theorem kill_rests {s : State} {t t1 : Strand} (ht : findStrand s t.key = some t1) : Rests t.key .ended (kill s t) := by
  unfold kill
  split
  · exact endCancelled_rests ht
  · obtain ⟨t', ht', -⟩ := (calm_stopCommands (k := t.key) s t).strand t1 ht
    exact (endStrand_rests ht' true).1

/-- The end of another strand by a cancel. -/
theorem calm_endCancelled (s : State) {t : Strand} (h : t.key ≠ k) : Calm k s (endCancelled s t) :=
  ((calm_discardPosts s _ _).trans (calm_stopCommands _ t)).trans (calm_endStrand _ h false)

end Sys2Proof.Proofs
end

section
/-! PROOFS. The stall of a cluster's claims (R222), the end of a holding (R113, R226), and what the die manager does with a strand (R196). -/

namespace Sys2Proof.Proofs

open Machine Oblig

theorem poolEvents_stall (s : State) (cl : ℕ) (hcl : clusterOk cl = true) : ∃ u, exec (.claimWaitStall cl) s = .next u ∧ SameBytes s u ∧
    (clusterOf u cl).stalled = (waitingReqs s cl).any (fun q => q.since + 65536 ≤ (dieOf s (cl / 96)).cycles) := by
  have hexec : exec (.claimWaitStall cl) s = .next (setCluster s cl (fun c =>
      { c with stalled := (waitingReqs s cl).any (fun q => q.since + 65536 ≤ (dieOf s (dieOfCluster cl)).cycles) })) := by
    rw [show exec (.claimWaitStall cl) s = execClaimWaitStall cl s from rfl, execClaimWaitStall, runEvent, if_pos hcl]
  refine ⟨_, hexec, sameBytes_setCluster s cl _, ?_⟩
  rw [Machine.clusterOf_setCluster, if_pos rfl]
  rfl

/-! ### A holding ends -/

theorem retained_dropRetained (s : State) (h : Retained) : (dropRetained s h).retained = s.retained.filter (fun x => x.key ≠ h.key) := by
  have hkeep (u : State) (stay : Tab ℕ) : (keepPosted u h.key h.core stay).retained = u.retained := by
    unfold keepPosted
    split
    · rfl
    · rfl
  unfold dropRetained
  dsimp only
  rw [retained_serveClaims, setStrand_retained, hkeep]
  rfl

theorem poolEvents_expiry (s : State) {ctx : ℕ} {tag : Word} {h : Retained} (hh : s.retained.find? (fun x => x.ctx = ctx && x.tag = tag) = some h) :
    (now s h.core < h.since + 2 ^ 20 → exec (.retainExpiry ctx tag) s = .next s) ∧
    (h.since + 2 ^ 20 ≤ now s h.core → ∃ u, exec (.retainExpiry ctx tag) s = .next u ∧ ∀ x ∈ u.retained, x.key ≠ h.key) := by
  have hexec : exec (.retainExpiry ctx tag) s = .next (if h.since + 2 ^ 20 ≤ now s h.core then dropRetained s h else s) := by
    rw [show exec (.retainExpiry ctx tag) s = execRetainExpiry ctx tag s from rfl, execRetainExpiry, hh]
  refine ⟨fun hlt => ?_, fun hle => ⟨dropRetained s h, ?_, fun x hx => ?_⟩⟩
  · rw [hexec, if_neg (Nat.not_le.mpr hlt)]
  · rw [hexec, if_pos hle]
  · rw [retained_dropRetained] at hx
    simpa using (List.mem_filter.mp hx).2

/-! ### The die manager's disposition -/

theorem exec_disposition {s : State} {q : ℕ} {t : Strand} (hq : q / 2 ^ 12 < 4) (ht : physStrand s (q / 2 ^ 12) (q % 2 ^ 12) = some t)
    (hlife : t.life = .frozen) (hesc : t.escalated = true) (act : Disposition) :
    exec (.dieManagerDisposition q act) s = .next (match act with
      | .resume => thaw s t
      | .kill => kill s t
      | .toHost => dropEscalated s t) := by
  rw [show exec (.dieManagerDisposition q act) s = execDieManagerDisposition q act s from rfl, execDieManagerDisposition, runEvent,
    if_pos (decide_eq_true (show q / 2 ^ 12 < Config.dies from hq)), ht]
  simp only [hlife, hesc]
  rfl

theorem poolEvents_disposition (s : State) (q : ℕ) (t : Strand) (hq : q / 2 ^ 12 < 4) (ht : physStrand s (q / 2 ^ 12) (q % 2 ^ 12) = some t)
    (hfind : findStrand s t.key = some t) (hlife : t.life = .frozen) (hesc : t.escalated = true) :
    let leads (act : Disposition) (p : Strand → Prop) : Prop := ∃ u t', exec (.dieManagerDisposition q act) s = .next u ∧
      findStrand u t.key = some t' ∧ p t'
    leads .resume (fun t' => t'.life = .running ∧ t'.pc = t.pc ∧ t'.x = t.x) ∧ leads .kill (fun t' => t'.life = .ended) ∧
      leads .toHost (fun t' => t' = t) := by
  have hexec := exec_disposition hq ht hlife hesc
  have hresume : ∃ t', findStrand (thaw s t) t.key = some t' ∧ t'.life = .running ∧ t'.pc = t.pc ∧ t'.x = t.x := by
    refine ⟨_, (findStrand_setStrand (dropEscalated s t) t.key _ ?_).trans (congrArg (Option.map _) hfind), ?_⟩
    · exact fun _ hu => hu
    · exact ⟨rfl, rfl, rfl⟩
  obtain ⟨t', hkill, -, hended⟩ := kill_rests hfind
  obtain ⟨t1, hthaw, hkept⟩ := hresume
  exact ⟨⟨_, t1, hexec .resume, hthaw, hkept⟩, ⟨_, t', hexec .kill, hkill, hended⟩, _, t, hexec .toHost, hfind, rfl⟩

theorem strandEvents_pool : poolEvents := fun s =>
  ⟨fun cl hcl => poolEvents_stall s cl hcl, fun _ _ _ hh => poolEvents_expiry s hh,
    fun q t hq ht hfind hlife hesc => poolEvents_disposition s q t hq ht hfind hlife hesc⟩

end Sys2Proof.Proofs
end

section
/-! PROOFS. A blocked strand's instruction completes: a BWAIT whose phase has passed (R298), and an MPEEK (R256). -/

namespace Sys2Proof.Proofs

open Machine Oblig

theorem gx_advance (t : Strand) (len r : ℕ) (n : Next) : gx (advance t len n) r = gx t r := by
  rw [advance_frame]
  rfl

/-- A blocked strand that its instruction's completion has found running again. -/
def unblocked (t : Strand) : Strand := if t.life = .blocked then { t with life := .running, wait := none } else t

theorem unblocked_of_blocked {t : Strand} (h : t.life = .blocked) : unblocked t = { t with life := .running, wait := none } := if_pos h

theorem unblocked_key (t : Strand) : (unblocked t).key = t.key := by
  unfold unblocked
  split
  · rfl
  · rfl

/-- An instruction that completes as its strand is looked at again: the strand runs on behind it, with what the instruction has left. -/
theorem unblock_ok {s s1 : State} {t t1 : Strand} {len : ℕ} {w : Wait} (hres : waitRes { s with cur := .strand t.key } t w = .ok s1 .seq)
    (hcur : s1.cur = .strand t.key) (h1 : findStrand s1 t.key = some t1) (hlife : t1.life = .blocked) (hflow : SameFlow t t1)
    (hrep : t.rep = none) :
    let u : State := { unblock s t len w with cur := s.cur }
    ∃ t', findStrand u t.key = some t' ∧ t'.life = .running ∧ t'.pc = seqPc t len ∧ (∀ r, gx t' r = gx t1 r) ∧ SameBytes s1 u := by
  have heq : unblock s t len w = setStrand (setStrand s1 t.key unblocked) t.key (fun u => advance u len .seq) := by
    rw [unblock, hres]
    dsimp only
    rw [complete, setStrand_cur, hcur]
    rfl
  have hfind : findStrand (setStrand (setStrand s1 t.key unblocked) t.key (fun u => advance u len .seq)) t.key =
      some (advance (unblocked t1) len .seq) := by
    rw [findStrand_setStrand _ _ _ (fun u hu => (advance_key u len .seq).trans hu),
      findStrand_setStrand _ _ _ (fun u hu => (unblocked_key u).trans hu), h1]
    rfl
  rw [unblocked_of_blocked hlife] at hfind
  have hgoes : GoesOn t (advance { t1 with life := .running, wait := none } len .seq) len := goesOn_advance len hflow
  refine ⟨_, (congrArg (fun v : State => findStrand v t.key) heq).trans hfind, ?_, (hgoes hrep).1, fun r => ?_, fun sp a => ?_⟩
  · rw [advance_frame]
  · rw [gx_advance]
    rfl
  · have hb : peek ({ unblock s t len w with cur := s.cur } : State) sp a = peek (unblock s t len w) sp a := by cases sp <;> rfl
    rw [hb, heq, peek_setStrand, peek_setStrand]

/-! ### BWAIT -/

theorem reportFault_none (s : State) {t : Strand} (h : t.faults = []) (covers : PendFault → Bool) : reportFault s t covers = none := by
  rw [reportFault, h]
  rfl

theorem coresOnly_bwait (s : State) (a core : ℕ) : CoresOnly s (acquire (wakeLoc s (.spad, a)) core) :=
  (coresOnly_wakeLoc s _).trans (acquire_coresOnly _ _)

theorem CoresOnly.cur {s u : State} (h : CoresOnly s u) : u.cur = s.cur := by
  obtain ⟨c, rfl⟩ := h
  rfl

theorem CoresOnly.findStrand {s u : State} (h : CoresOnly s u) (k : StrandKey) : Machine.findStrand u k = Machine.findStrand s k := by
  obtain ⟨c, rfl⟩ := h
  rfl

/-- BWAIT's last test: its barrier reads, its phase has passed, and no fault is pending. -/
theorem waitBarrier_passed {s : State} {t : Strand} {rd : BitVec 5} {ptr : Word} {p : ℕ} (hbad : poisoned s .spad (barrierAt t ptr) 16 = false)
    (hpassed : passed (peekNat s .spad (barrierAt t ptr) 16) p = true) (hfaults : t.faults = []) :
    waitBarrier s t rd ptr p = .ok (xSet (acquire (wakeLoc s (.spad, barrierAt t ptr)) t.core) rd
      (BitVec.ofNat 64 (phaseStatus (peekNat s .spad (barrierAt t ptr) 16)))) .seq := by
  have hread : badBarrierRead s t ptr = none := by
    rw [badBarrierRead, hbad]
    rfl
  rw [waitBarrier, hread]
  simp only [reportFault_none _ hfaults, if_pos (show phasePassed (peekNat s .spad (barrierAt t ptr) 16) p = true from hpassed)]

theorem strandEvents_bwait {s : State} {t : Strand} (hfind : findStrand s t.key = some t) {rd : BitVec 5} {ptr : Word} {p : ℕ}
    (hlife : t.life = .blocked) (hsaving : t.saving = none) (hwait : t.wait = some (4, .bwait rd ptr p)) (hrep : t.rep = none)
    (hfaults : t.faults = []) (hbad : poisoned s .spad (barrierAt t ptr) 16 = false)
    (hpassed : passed (peekNat s .spad (barrierAt t ptr) 16) p = true) :
    ∃ u t', exec (.strandUnblock t.key) s = .next u ∧ findStrand u t.key = some t' ∧ t'.life = .running ∧ t'.pc = seqPc t 4 ∧
      (∀ r < 32, gx t' r = if r = rd.toNat ∧ r ≠ 0 then
        BitVec.ofNat 64 (bStatus (peekNat s .spad (barrierAt t ptr) 16) + bPhase (peekNat s .spad (barrierAt t ptr) 16) * 2 ^ 16) else gx t r) ∧
      SameBytes s u := by
  have hexec : exec (.strandUnblock t.key) s = .next { unblock s t 4 (.bwait rd ptr p) with cur := s.cur } := by
    rw [show exec (.strandUnblock t.key) s = execStrandUnblock t.key s from rfl, execStrandUnblock, hfind]
    simp only [hlife, hwait, hsaving, Option.isNone_none, Bool.true_or, if_true]
  generalize hv : BitVec.ofNat 64 (phaseStatus (peekNat s .spad (barrierAt t ptr) 16)) = v
  have hcores := coresOnly_bwait { s with cur := .strand t.key } (barrierAt t ptr) t.core
  generalize hs0 : acquire (wakeLoc { s with cur := .strand t.key } (.spad, barrierAt t ptr)) t.core = s0 at hcores
  have hcur : s0.cur = .strand t.key := hcores.cur
  have hset : xSet s0 rd v = setStrand s0 t.key (fun u => sx u rd.toNat v) := by rw [xSet, hcur]
  have hres : waitRes { s with cur := .strand t.key } t (.bwait rd ptr p) = .ok (setStrand s0 t.key (fun u => sx u rd.toNat v)) .seq := by
    rw [← hset, ← hs0, ← hv]
    exact waitBarrier_passed (s := { s with cur := .strand t.key }) hbad hpassed hfaults
  have h1 : findStrand (setStrand s0 t.key (fun u => sx u rd.toNat v)) t.key = some (sx t rd.toNat v) := by
    rw [findStrand_setStrand _ _ _ (fun u hu => (sx_key u _ _).trans hu), hcores.findStrand]
    exact congrArg (Option.map _) hfind
  have hflow : SameFlow t (sx t rd.toNat v) := by
    unfold sx
    split
    · exact ⟨rfl, rfl, rfl, rfl, rfl⟩
    · exact ⟨rfl, rfl, rfl, rfl, rfl⟩
  have hblocked : (sx t rd.toNat v).life = .blocked := by
    unfold sx
    split
    · exact hlife
    · exact hlife
  obtain ⟨t', hfind', hrun, hpc, hregs, hbytes⟩ := unblock_ok (len := 4) hres hcur h1 hblocked hflow hrep
  refine ⟨_, t', hexec, hfind', hrun, hpc, fun r hr => ?_, fun sp a => ?_⟩
  · rw [hregs, gx_sx t rd.toNat r v rd.isLt hr, ← hv]
    refine if_congr ⟨fun h => ⟨h.1, h.1 ▸ h.2⟩, fun h => ⟨h.1, h.1 ▸ h.2⟩⟩ rfl rfl
  · have hs : peek ({ s with cur := .strand t.key } : State) sp a = peek s sp a := by cases sp <;> rfl
    rw [hbytes, peek_setStrand, hcores.peek, hs]

/-! ### MPEEK -/

theorem sameBytes_writeHome {s u : State} (h : SameBytes s u) (sp : Space) (a : ℕ) (bs : List Byte) :
    SameBytes (writeHome s sp a bs) (writeHome u sp a bs) := fun sp' j => by rw [peek_writeHome, peek_writeHome, h]

theorem sameBytes_writeLocs {s u : State} (h : SameBytes s u) (ls : List Loc) (bs : List Byte) : SameBytes (writeLocs s ls bs) (writeLocs u ls bs) := by
  unfold writeLocs
  generalize runs ls = rs
  induction rs generalizing s u bs with
  | nil => exact h
  | cons r rs ih => exact ih (sameBytes_writeHome h _ _ _) _

/-- A drain writes the same rows whoever issues, and collects the same conditions. -/
theorem sameBytes_drainWrite {s u : State} (h : SameBytes s u) (seed : Word) (sl : SlotSt) (core : ℕ) (gs : List ℕ) (op : DrainOp) :
    SameBytes (drainWrite s seed sl core gs op).1 (drainWrite u seed sl core gs op).1 := by
  unfold drainWrite
  generalize (if sl.ovf = true then fOF else 0) = fl
  generalize op.rows = rows
  induction rows generalizing s u fl with
  | nil => exact h
  | cons e rows ih =>
    refine ih ?_ _
    refine sameBytes_writeLocs ?_ _ _
    exact fun sp a => ((coresOnly_wakeLocs _ _).peek sp a).trans ((h sp a).trans ((coresOnly_wakeLocs _ _).peek sp a).symm)

/-- What MPEEK's completion does to its strand. -/
def peekedStrand (fl r : ℕ) (v : Word) (t : Strand) : Strand := sx (orFlags t fl) r v

theorem peekedStrand_key (fl r : ℕ) (v : Word) (t : Strand) : (peekedStrand fl r v t).key = t.key := sx_key _ _ _

theorem peekedStrand_kept (fl r : ℕ) (v : Word) (t : Strand) : SameFlow t (peekedStrand fl r v t) ∧ (peekedStrand fl r v t).life = t.life := by
  unfold peekedStrand sx
  split
  · exact ⟨⟨rfl, rfl, rfl, rfl, rfl⟩, rfl⟩
  · exact ⟨⟨rfl, rfl, rfl, rfl, rfl⟩, rfl⟩

/-- MPEEK's last test: its slot is there and zeroed, and no fault is pending. -/
theorem waitPeek_done {s : State} {t : Strand} {m p : ℕ} {rd : BitVec 5} {op : DrainOp} (hslot : crewSlot s t m = some p)
    (hzero : zeroDone s t.core p = true) (hfaults : t.faults = []) :
    waitPeek s t m rd op =
      let d := drainWrite s (runOf s t.key.run).seed (peekedSlot s (slotOf s (clusterOfStrand t) p)) t.core t.granules op
      .ok (setStrand d.1 t.key (peekedStrand d.2 rd.toNat (BitVec.ofNat 64 (peekedSlot s (slotOf s (clusterOfStrand t) p)).steps))) .seq := by
  rw [waitPeek, hslot]
  simp only [hzero, reportFault_none _ hfaults]
  rfl

theorem strandEvents_mpeek {s : State} {t : Strand} (hfind : findStrand s t.key = some t) {m p : ℕ} {rd : BitVec 5} {op : DrainOp}
    (hlife : t.life = .blocked) (hsaving : t.saving = none) (hwait : t.wait = some (12, .peek m rd op)) (hslot : crewSlot s t m = some p)
    (hzero : zeroDone s t.core p = true) (hfaults : t.faults = []) (hrep : t.rep = none) :
    let sl := peekedSlot s (slotOf s (t.core / 8) p)
    ∃ u t', exec (.mpeekSnapshot t.key) s = .next u ∧ findStrand u t.key = some t' ∧ t'.life = .running ∧ t'.pc = seqPc t 12 ∧
      gx t' rd.toNat = (if rd = 0 then 0 else BitVec.ofNat 64 sl.steps) ∧
      SameBytes (drainWrite s (runOf s t.key.run).seed sl t.core t.granules op).1 u := by
  intro sl
  have hexec : exec (.mpeekSnapshot t.key) s = .next { unblock s t 12 (.peek m rd op) with cur := s.cur } := by
    rw [show exec (.mpeekSnapshot t.key) s = execMpeekSnapshot t.key s from rfl, execMpeekSnapshot, hfind]
    simp only [hlife, hwait, hsaving, Option.isNone_none, if_true]
  have hres := waitPeek_done (s := { s with cur := .strand t.key }) (rd := rd) (op := op) hslot hzero hfaults
  dsimp only at hres
  have hstart : SameBytes s { s with cur := .strand t.key } := fun sp a => by cases sp <;> rfl
  have hbytes0 := sameBytes_drainWrite hstart (runOf s t.key.run).seed sl t.core t.granules op
  have hhome := homeOnly_drainWrite { s with cur := .strand t.key } (runOf s t.key.run).seed sl t.core t.granules op
  change waitRes { s with cur := .strand t.key } t (.peek m rd op) = .ok (setStrand
    (drainWrite { s with cur := .strand t.key } (runOf s t.key.run).seed sl t.core t.granules op).1 t.key (peekedStrand
      (drainWrite { s with cur := .strand t.key } (runOf s t.key.run).seed sl t.core t.granules op).2 rd.toNat (BitVec.ofNat 64 sl.steps))) .seq at hres
  generalize drainWrite { s with cur := .strand t.key } (runOf s t.key.run).seed sl t.core t.granules op = d at hres hbytes0 hhome
  obtain ⟨r, hr⟩ := hhome.strands t.key t hfind
  have h1 : findStrand (setStrand d.1 t.key (peekedStrand d.2 rd.toNat (BitVec.ofNat 64 sl.steps))) t.key =
      some (peekedStrand d.2 rd.toNat (BitVec.ofNat 64 sl.steps) { t with resv := r }) := by
    rw [findStrand_setStrand _ _ _ (fun u hu => (peekedStrand_key _ _ _ u).trans hu), hr]
    rfl
  obtain ⟨hflow, hblocked⟩ := peekedStrand_kept d.2 rd.toNat (BitVec.ofNat 64 sl.steps) { t with resv := r }
  obtain ⟨t', hfind', hrun, hpc, hregs, hbytes⟩ := unblock_ok (len := 12) hres hhome.cur h1 (hblocked.trans hlife) hflow hrep
  refine ⟨_, t', hexec, hfind', hrun, hpc, ?_, fun sp a => ?_⟩
  · rw [hregs, peekedStrand, gx_sx _ _ _ _ rd.isLt rd.isLt]
    by_cases h0 : rd = 0
    · rw [if_pos h0, h0]
      rfl
    · rw [if_neg h0, if_pos ⟨rfl, fun he => h0 (BitVec.eq_of_toNat_eq he)⟩]
  · rw [hbytes, peek_setStrand, hbytes0]

end Sys2Proof.Proofs
end

section
/-! PROOFS. A cancel that has reached its strand (R113, R140), an old reservation (R123), a long claim wait (R222), and a deadlock found
(R351, R352). -/

namespace Sys2Proof.Proofs

open Machine Oblig

/-! ### Cancels -/

theorem exec_strandCancel {s : State} {k : StrandKey} {t : Strand} (hfind : findStrand s k = some t) :
    exec (.strandCancel k) s = .next (if t.cancelPending then cancelNow s t else s) := by
  rw [show exec (.strandCancel k) s = execStrandCancel k s from rfl, execStrandCancel, hfind]

theorem cancelNow_boundary (s : State) {t : Strand} (h : t.life = .blocked ∨ t.life = .frozen ∨ t.life = .running ∧ atBoundary t = true) :
    cancelNow s t = endCancelled s t := by
  obtain hl | hl | ⟨hl, hb⟩ := h
  · simp only [cancelNow, hl]
  · simp only [cancelNow, hl]
  · simp only [cancelNow, hl, hb, if_true]

theorem strandEvents_cancel {s : State} {t : Strand} (hfind : findStrand s t.key = some t) :
    (t.cancelPending = false → exec (.strandCancel t.key) s = .next s) ∧
    (t.cancelPending = true → t.life = .saved → exec (.strandCancel t.key) s = .next s) ∧
    (t.cancelPending = true → (t.life = .blocked ∨ t.life = .frozen ∨ t.life = .running ∧ atBoundary t = true) →
      ∃ u t', exec (.strandCancel t.key) s = .next u ∧ findStrand u t.key = some t' ∧ t'.life = .ended) := by
  have hexec := exec_strandCancel hfind
  refine ⟨fun hp => ?_, fun hp hl => ?_, fun hp hl => ?_⟩
  · rw [hexec, if_neg (by rw [hp]; decide)]
  · rw [hexec, if_pos hp]
    simp only [cancelNow, hl]
  · obtain ⟨t', hfind', -, hlife⟩ := endCancelled_rests hfind
    refine ⟨_, t', ?_, hfind', hlife⟩
    rw [hexec, if_pos hp, cancelNow_boundary s hl]

/-! ### Old reservations -/

theorem strandEvents_expiry {s : State} {t : Strand} (hfind : findStrand s t.key = some t) {r : Reservation} (hr : t.resv = some r) :
    ∃ u t', exec (.reservationExpiry t.key) s = .next u ∧ findStrand u t.key = some t' ∧ SameBytes s u ∧
      t' = { t with resv := if r.cycle + 65536 ≤ now s t.core then none else some r } := by
  refine ⟨expireResv s t.key, _, rfl, (findStrand_setStrand s t.key _ ?_).trans (congrArg (Option.map _) hfind), fun sp a => peek_setStrand .., ?_⟩
  · intro u hu
    split
    · exact hu
    · exact hu
  · have hold : resvOld s t = decide (r.cycle + 65536 ≤ now s t.core) := by
      rw [resvOld, hr]
      rfl
    simp only [hold, decide_eq_true_eq]
    split
    · rfl
    · rw [← hr]

/-! ### Long claim waits -/

theorem strandEvents_claimWait {s : State} {t : Strand} (hfind : findStrand s t.key = some t) {q : ClaimReq}
    (hq : (clusterOf s (t.core / 8)).claimq.find? (fun x => x.key = t.key) = some q) (hrec : q.recorded = false)
    (hlong : q.since + 2 ^ 26 ≤ now s t.core) :
    ∃ u, exec (.claimWaitRecord t.key) s = .next u ∧
      (clusterOf u (t.core / 8)).claimq.find? (fun x => x.key = t.key) = some { q with recorded := true } := by
  have hq' : (clusterOf s (clusterOfStrand t)).claimq.find? (fun x => x.key = t.key) = some q := hq
  have hdue : (!q.recorded && decide (q.since + 2 ^ 26 ≤ now s t.core)) = true := by
    rw [hrec, decide_eq_true hlong]
    rfl
  refine ⟨recordWait s t.key, rfl, ?_⟩
  rw [recordWait, hfind]
  simp only [hq', hdue, if_true]
  rw [logStrand, (quiet_logEvent _ _).claimq, show t.core / 8 = clusterOfStrand t from rfl, Machine.clusterOf_setCluster, if_pos rfl]
  refine (find_lmodWhere _ _ ?_ _).trans ?_
  · exact fun _ hx => hx
  · rw [hq']
    rfl

/-! ### A strand that is frozen -/

/-- Strand k has frozen with a packet, and waits for nothing. -/
def Stopped (u : State) (k : StrandKey) (cause : ℕ) (tval : Word) : Prop :=
  ∃ t' p, findStrand u k = some t' ∧ t'.wait = none ∧ t'.life = .frozen ∧ t'.packet = some p ∧ p.cause = BitVec.ofNat 8 cause ∧ p.tval = tval

theorem Stopped.frozenWith {u : State} {k : StrandKey} {cause : ℕ} {tval : Word} (h : Stopped u k cause tval) : FrozenWith u k cause tval := by
  obtain ⟨t', p, hfind, -, hrest⟩ := h
  exact ⟨t', p, hfind, hrest⟩

theorem Stopped.calm {s u : State} {k : StrandKey} {cause : ℕ} {tval : Word} (h : Stopped s k cause tval) (hu : Calm k s u) :
    Stopped u k cause tval := by
  obtain ⟨t, p, hfind, hwait, hlife, hpacket, hrest⟩ := h
  obtain ⟨t', hfind', hstill⟩ := hu.strand t hfind
  obtain ⟨hwait', hlife', hpacket'⟩ := hstill hwait
  exact ⟨t', p, hfind', hwait', hlife'.trans hlife, hpacket'.trans hpacket, hrest⟩

theorem calm_sendPacket {k : StrandKey} (s : State) (core : ℕ) (p : Packet) : Calm k s (sendPacket s core p) :=
  (calm_setCore s core (fun c => { c with outq := c.outq ++ [p] }) (fun _ => rfl)).trans (calm_due _ _)

/-- A strand that takes a trap stops with its cause and its tval. -/
theorem takeTrap_stops {s : State} {k : StrandKey} {t : Strand} (h : findStrand s k = some t) (tr : Trap) :
    Stopped (takeTrap s k tr) k tr.cause tr.tval := by
  have h1 : findStrand (clearSaving s t) k = some t := by
    unfold clearSaving
    split
    · exact h
    · exact h
  have hfrozen : Stopped (setStrand (clearSaving s t) k (fun t => freeze s t tr)) k tr.cause tr.tval := by
    refine ⟨freeze s t tr, packetOf s t tr, ?_, rfl, rfl, rfl, rfl, rfl⟩
    refine (findStrand_setStrand _ _ _ ?_).trans (congrArg (Option.map _) h1)
    exact fun _ hu => hu
  rw [takeTrap, h]
  exact hfrozen.calm ((calm_sendPacket _ _ _).trans (calm_noteTrap _ _))

/-! ### Deadlocks -/

theorem exec_deadlockProbe {s : State} {t : Strand} (hfind : findStrand s t.key = some t) (hwaits : waitsOnMessages s t = true)
    (hlong : t.waitSince + 4096 ≤ now s t.core) : exec (.deadlockProbe t.key) s = .next (probe s t) := by
  rw [show exec (.deadlockProbe t.key) s = execDeadlockProbe t.key s from rfl, execDeadlockProbe, hfind]
  simp only [hwaits, hlong, decide_true, Bool.and_self, if_true]

/-- The restart of some strands' waits leaves every strand there, with its key. -/
theorem findStrand_restartWaits (run : ℕ) (z : List ℕ) {s : State} {k : StrandKey} {v : Strand} (h : findStrand s k = some v) :
    ∃ v', findStrand (z.foldl (fun s g => restartWait s ⟨run, g⟩) s) k = some v' := by
  refine foldl_keeps (fun u : State => ∃ v', findStrand u k = some v') _ _ _ ⟨v, h⟩ (fun u g hu => ?_)
  obtain ⟨v1, h1⟩ := hu
  obtain ⟨v2, h2, -⟩ := (calm_setStrand (k := k) u ⟨run, g⟩ (fun t => { t with waitSince := now u t.core }) (fun _ => rfl)
    (fun _ _ hw => ⟨hw, rfl, rfl⟩)).strand v1 h1
  exact ⟨v2, h2⟩

theorem strandEvents_deadlock {s : State} {t : Strand} (hfind : findStrand s t.key = some t) (hwaits : waitsOnMessages s t = true)
    (hlong : t.waitSince + 4096 ≤ now s t.core) :
    let z := reach s t.key.run ((runOf s t.key.run).ncrew * (runOf s t.key.run).nstrand) [t.key.gls]
    (deadlocked s t.key.run z = false → ∃ u t', exec (.deadlockProbe t.key) s = .next u ∧ findStrand u t.key = some t' ∧
      t' = { t with waitSince := now s t.core } ∧ SameBytes s u) ∧
    (deadlocked s t.key.run z = true → ∀ v, findStrand s ⟨t.key.run, minOf z⟩ = some v →
      ∃ u, exec (.deadlockProbe t.key) s = .next u ∧ FrozenWith u v.key 0x08 (deadlockTval s v)) := by
  intro z
  refine ⟨fun hdead => ⟨restartWait s t.key, _, ?_, ?_, rfl, fun sp a => peek_setStrand ..⟩, fun hdead v hv => ?_⟩
  · rw [exec_deadlockProbe hfind hwaits hlong, probe, if_neg (by rw [hdead]; decide)]
  · refine (findStrand_setStrand s t.key _ ?_).trans (congrArg (Option.map _) hfind)
    exact fun _ hu => hu
  · have hkey : v.key = ⟨t.key.run, minOf z⟩ := findStrand_key hv
    obtain ⟨v', hv'⟩ := findStrand_restartWaits t.key.run z (hkey.symm ▸ hv)
    refine ⟨takeTrap (z.foldl (fun s g => restartWait s ⟨t.key.run, g⟩) s) v.key { cause := cDeadlock, tval := deadlockTval s v }, ?_,
      (takeTrap_stops hv' _).frozenWith⟩
    rw [exec_deadlockProbe hfind hwaits hlong, probe, if_pos hdead, strandOf_eq hv]

end Sys2Proof.Proofs
end

section
/-! PROOFS. A replay that diverges freezes its strand, and the launches of its job end (R388). -/

namespace Sys2Proof.Proofs

open Machine Oblig

variable {k : StrandKey}

/-! ### Other strands stop -/

theorem calm_dropRetained (s : State) {h : Retained} (hk : h.key ≠ k) : Calm k s (dropRetained s h) := by
  unfold dropRetained
  dsimp only
  refine Calm.trans ?_ (calm_serveClaims _ _)
  refine Calm.trans ?_ (calm_setStrand _ _ _ (fun _ => rfl) (fun he => absurd he hk))
  refine Calm.trans ?_ (calm_keepPosted _ _ _ _)
  refine Calm.trans ?_ (calm_powerDown _ _ _)
  refine Calm.trans ?_ (calm_powerDown _ _ _)
  refine Calm.trans ?_ (calm_setCluster _ _ _)
  exact .of_eq rfl rfl rfl

theorem calm_cancelNow (s : State) {t : Strand} (hk : t.key ≠ k) : Calm k s (cancelNow s t) := by
  unfold cancelNow
  split
  · exact .refl s
  · exact .refl s
  · split
    · next h hh =>
      have hkey : h.key = t.key := by simpa using List.find?_some hh
      exact calm_dropRetained s (hkey.symm ▸ hk)
    · exact .refl s
  · exact Calm.ite (calm_endCancelled s hk) (.refl s)
  · exact calm_endCancelled s hk
  · exact calm_endCancelled s hk

theorem calm_stopStrand (s : State) {t : Strand} (hk : t.key ≠ k) : Calm k s (stopStrand s t) := by
  unfold stopStrand
  refine Calm.ite ?_ ?_
  · refine Calm.trans ?_ (calm_leftSlot _ t)
    refine Calm.trans ?_ (calm_setStrand _ _ _ (fun _ => rfl) (fun he => absurd he hk))
    exact (calm_endMastership s t).trans (calm_reportEnded _ t)
  · refine Calm.trans (calm_setStrand s t.key (fun t => { t with rep := none, recapture := false }) (fun _ => rfl) (fun he => absurd he hk)) ?_
    exact calm_cancelNow _ hk

/-! ### A launch that ends -/

theorem calm_cancelStrand (s : State) (t : Strand) : Calm k s (cancelStrand s t) := by
  unfold cancelStrand
  refine Calm.ite (.refl s) (Calm.trans (calm_setStrand s t.key (fun t => { t with cancelPending := true }) (fun _ => rfl) ?_) (calm_due _ _))
  exact fun _ _ hw => ⟨hw, rfl, rfl⟩

theorem calm_nameRun (s : State) (run : ℕ) : Calm k s (nameRun s run) := by
  unfold nameRun
  refine calm_setRun s run _ ?_ ?_
  · exact fun _ => rfl
  · exact fun _ hc => hc

/-- The launch with its cancel and its status. -/
def endedRun (status gtc src : ℕ) (r : Run) : Run := { r with cancelled := true, status := firstCause r.status (status, gtc, src) }

/-- What is left of a launch's end once the launch is marked: its postings go, its strands are cancelled, its completion is due. -/
def afterEnd (run : ℕ) (s : State) : State :=
  let s2 := (runStrands s run).foldl cancelStrand (discardPosts s run (fun _ => true))
  { s2 with due := s2.due ++ [.launchComplete run] }

theorem calm_afterEnd (run : ℕ) (s : State) : Calm k s (afterEnd run s) :=
  ((calm_discardPosts s _ _).trans (Calm.foldl _ (fun u t => calm_cancelStrand u t) _)).trans (calm_due _ _)

theorem endRun_eq {s : State} {run : ℕ} (h : (runOf s run).stage ≠ .done) (status src : ℕ) :
    endRun s run status src = afterEnd run (setRun (freeEntries (nameRun s run) run (fun _ _ _ => true)) run
      (endedRun status (gtcOf s (sourceDie src)) src)) := by
  rw [endRun, if_neg h]
  rfl

theorem calm_endRun (s : State) (run status src : ℕ) : Calm k s (endRun s run status src) := by
  by_cases h : (runOf s run).stage = .done
  · rw [endRun, if_pos h]
    exact .refl s
  · rw [endRun_eq h]
    refine Calm.trans ?_ (calm_afterEnd run _)
    refine Calm.trans ?_ (calm_setRun _ run _ (fun _ => rfl) (fun _ _ => rfl))
    exact (calm_nameRun s run).trans (calm_freeEntries _ _ _)

/-- A launch that has not ended is cancelled. -/
theorem cancelled_endRun {s : State} {run : ℕ} (h : (runOf s run).stage ≠ .done) (hlt : run < s.runs.length) (status src : ℕ) :
    (runOf (endRun s run status src) run).cancelled = true := by
  rw [endRun_eq h]
  refine ((calm_afterEnd (k := ⟨0, 0⟩) run _).runs run).2 ?_
  have hnamed : Calm ⟨0, 0⟩ s (freeEntries (nameRun s run) run (fun _ _ _ => true)) := (calm_nameRun s run).trans (calm_freeEntries _ _ _)
  rw [runOf_setRun_if, if_pos ⟨rfl, hnamed.launches ▸ hlt⟩]
  rfl

/-- Every other strand of a launch stops. -/
theorem calm_stopStrands (s : State) (run : ℕ) : Calm k s (((runStrands s run).filter (fun t => t.key ≠ k)).foldl stopStrand s) := by
  refine List.foldlRecOn _ _ (.refl _) (fun u hu t ht => hu.trans (calm_stopStrand u ?_))
  simpa using (List.mem_filter.mp ht).2

theorem calm_stopRun (src : ℕ) (s : State) (run : ℕ) : Calm k s (stopRun k src s run) :=
  (calm_endRun s run stReplay src).trans (calm_stopStrands _ run)

/-- A launch that has not ended is cancelled when it stops. -/
theorem cancelled_stopRun (src : ℕ) {s : State} {run : ℕ} (h : (runOf s run).stage ≠ .done) (hlt : run < s.runs.length) :
    (runOf (stopRun k src s run) run).cancelled = true :=
  ((calm_stopStrands _ run).runs run).2 (cancelled_endRun h hlt stReplay src)

/-- The launches that stop: each of them that has not ended is cancelled, and the strand that diverged stays. -/
theorem calm_stopRuns (src : ℕ) (l : List ℕ) (s : State) : Calm k s (l.foldl (stopRun k src) s) := Calm.foldl _ (fun u run => calm_stopRun src u run) l

theorem cancelled_stopRuns (src : ℕ) {l : List ℕ} {run : ℕ} (hrun : run ∈ l) {s : State} (h : (runOf s run).stage ≠ .done)
    (hlt : run < s.runs.length) : (runOf (l.foldl (stopRun k src) s) run).cancelled = true := by
  induction l generalizing s with
  | nil => exact absurd hrun List.not_mem_nil
  | cons n l ih =>
    rw [List.foldl_cons]
    have hstep : Calm k s (stopRun k src s n) := calm_stopRun src s n
    by_cases hn : n = run
    · subst hn
      exact ((calm_stopRuns (k := k) src l _).runs n).2 (cancelled_stopRun src h hlt)
    · refine ih ((List.mem_cons.mp hrun).resolve_left (Ne.symm hn)) ?_ ?_
      · rw [(hstep.runs run).1]
        exact h
      · rw [hstep.launches]
        exact hlt

/-! ### The strand that diverged -/

theorem runs_takeTrap (s : State) (j : StrandKey) (cause : ℕ) (tval : Word) :
    (takeTrap s j { cause := cause, tval := tval }).runs = s.runs := by
  have hclear (t : Strand) : (clearSaving s t).runs = s.runs := by
    unfold clearSaving
    split
    · rfl
    · rfl
  unfold takeTrap
  split
  · rfl
  · exact hclear _

theorem runs_abandon (s : State) (t : Strand) : (abandon s t).runs = s.runs := by
  have hdrain (u : State) : (dropDrain u t).runs = u.runs := by
    unfold dropDrain
    split
    · rfl
    · rfl
  unfold abandon
  split
  · exact hdrain _
  · rfl

/-- A strand whose instruction is abandoned is there. -/
theorem findStrand_abandon {s : State} {t t1 : Strand} (h : findStrand s t.key = some t1) : ∃ t2, findStrand (abandon s t) t.key = some t2 := by
  have hdrain : findStrand (dropDrain (dropClaim s t) t) t.key = some t1 := by
    unfold dropDrain
    split
    · exact h
    · exact h
  unfold abandon
  split
  · refine ⟨_, (findStrand_setStrand _ _ _ ?_).trans (congrArg (Option.map _) hdrain)⟩
    exact fun _ hu => hu
  · exact ⟨t1, h⟩

theorem freezeDiverged_stops {s : State} {t : Strand} (hfind : findStrand s t.key = some t) (index : ℕ)
    (hlife : t.life = .running ∨ t.life = .blocked) :
    Stopped (freezeDiverged s t index) t.key 0x0B (BitVec.ofNat 64 index) ∧ (freezeDiverged s t index).runs.length = s.runs.length ∧
      ∀ r, (runOf (freezeDiverged s t index) r).stage = (runOf s r).stage := by
  have hs0 : ∃ t1, findStrand (setStrand s t.key (fun t => { t with diverged := none })) t.key = some t1 := by
    refine ⟨_, (findStrand_setStrand s t.key _ ?_).trans (congrArg (Option.map _) hfind)⟩
    exact fun _ hu => hu
  obtain ⟨t1, h1⟩ := hs0
  obtain ⟨t2, h2⟩ := findStrand_abandon h1
  have hstop := takeTrap_stops h2 { cause := cReplay, tval := BitVec.ofNat 64 index }
  have hruns : (takeTrap (abandon (setStrand s t.key (fun t => { t with diverged := none })) t) t.key
      { cause := cReplay, tval := BitVec.ofNat 64 index }).runs = s.runs := (runs_takeTrap _ _ _ _).trans (runs_abandon _ _)
  have hnow : (t.life = .running || t.life = .blocked) = true := by
    rw [Bool.or_eq_true, decide_eq_true_eq, decide_eq_true_eq]
    exact hlife
  unfold freezeDiverged
  dsimp only
  rw [if_pos hnow]
  generalize takeTrap (abandon (setStrand s t.key (fun t => { t with diverged := none })) t) t.key
      { cause := cReplay, tval := BitVec.ofNat 64 index } = s1 at hstop hruns
  have hcalm : Calm t.key s1 (stopCommands s1 (strandOf s1 t.key)) := calm_stopCommands s1 _
  refine ⟨hstop.calm hcalm, ?_, fun r => ?_⟩
  · rw [hcalm.launches, hruns]
  · rw [(hcalm.runs r).1, runOf, hruns, runOf]

theorem calm_setContext (s : State) (ctx : ℕ) (f : Context → Context) : Calm k s (setContext s ctx f) := by
  unfold setContext
  split
  · exact .refl s
  · exact .of_eq rfl rfl rfl

theorem calm_shutReplay (s : State) (r : Run) : Calm k s (shutReplay s r) := (calm_setContext s _ _).trans (calm_setContext _ _ _)

theorem mem_jobRunsOf {s : State} {run : ℕ} (hlt : run < s.runs.length) (h : (runOf s run).stage ≠ .done) : run ∈ jobRunsOf s run := by
  rw [jobRunsOf, List.mem_filter]
  refine ⟨List.mem_range.mpr hlt, ?_⟩
  simp only [h, ne_eq, not_false_eq_true, decide_true, Bool.true_or, Bool.and_self]

theorem exec_replayDiverge {s : State} {t : Strand} (hfind : findStrand s t.key = some t) (i : ℕ) :
    exec (.replayDiverge t.key i) s = .next (
      if (runOf s t.key.run).replay.isSome && (t.diverged = some i || stayedAway s t i) then
        (jobRunsOf s t.key.run).foldl (stopRun t.key (coreSource t.core)) (shutReplay (freezeDiverged s t i) (runOf s t.key.run))
      else s) := by
  rw [show exec (.replayDiverge t.key i) s = execReplayDiverge t.key i s from rfl, execReplayDiverge, hfind]

theorem strandEvents_noDivergence {s : State} {t : Strand} (hfind : findStrand s t.key = some t) (i : ℕ)
    (h : (runOf s t.key.run).replay = none ∨ t.diverged ≠ some i ∧ stayedAway s t i = false) : exec (.replayDiverge t.key i) s = .next s := by
  rw [exec_replayDiverge hfind, if_neg]
  obtain hreplay | ⟨hdiv, haway⟩ := h
  · rw [hreplay, Option.isSome_none, Bool.false_and]
    decide
  · rw [decide_eq_false hdiv, haway, Bool.or_self, Bool.and_false]
    decide

theorem strandEvents_divergence {s : State} {t : Strand} (hfind : findStrand s t.key = some t) (i : ℕ)
    (hlife : t.life = .running ∨ t.life = .blocked) (hreplay : (runOf s t.key.run).replay ≠ none)
    (hdiv : t.diverged = some i ∨ stayedAway s t i = true) (hlt : t.key.run < s.runs.length) (hstage : (runOf s t.key.run).stage ≠ .done) :
    ∃ u, exec (.replayDiverge t.key i) s = .next u ∧ FrozenWith u t.key 0x0B (BitVec.ofNat 64 i) ∧ (runOf u t.key.run).cancelled = true := by
  have hdue : ((runOf s t.key.run).replay.isSome && (t.diverged = some i || stayedAway s t i)) = true := by
    rw [Bool.and_eq_true, Bool.or_eq_true, decide_eq_true_eq]
    exact ⟨Option.isSome_iff_ne_none.mpr hreplay, hdiv⟩
  obtain ⟨hstop, hlaunches, hstages⟩ := freezeDiverged_stops hfind i hlife
  have hshut : Calm t.key (freezeDiverged s t i) (shutReplay (freezeDiverged s t i) (runOf s t.key.run)) := calm_shutReplay _ _
  refine ⟨_, (exec_replayDiverge hfind i).trans (congrArg _ (if_pos hdue)),
    ((hstop.calm hshut).calm (calm_stopRuns _ _ _)).frozenWith, cancelled_stopRuns _ (mem_jobRunsOf hlt hstage) ?_ ?_⟩
  · rw [(hshut.runs _).1, hstages]
    exact hstage
  · rw [hshut.launches, hlaunches]
    exact hlt

/-! ### All events -/

theorem exec_strandUnblock_idle {s : State} {t : Strand} (hfind : findStrand s t.key = some t) (h : t.life ≠ .blocked) :
    exec (.strandUnblock t.key) s = .next s := by
  rw [show exec (.strandUnblock t.key) s = execStrandUnblock t.key s from rfl, execStrandUnblock, hfind]
  dsimp only
  split
  · next hlife _ => exact absurd hlife h
  · rfl

theorem strandEvents_strand : strandEvents := by
  intro s k t hfind
  obtain rfl : t.key = k := findStrand_key hfind
  obtain ⟨hquiet, hsaved, hends⟩ := strandEvents_cancel hfind
  refine ⟨hquiet, hsaved, hends, exec_strandUnblock_idle hfind, ?_, ?_, ?_, ?_, ?_, strandEvents_deadlock hfind, ?_⟩
  · intro rd ptr p hlife hsaving hwait hrep hfaults b hbad hpassed
    exact strandEvents_bwait hfind hlife hsaving hwait hrep hfaults hbad hpassed
  · intro m rd op p hlife hsaving hwait hslot hzero hfaults hrep
    exact strandEvents_mpeek hfind hlife hsaving hwait hslot hzero hfaults hrep
  · intro r hr
    exact strandEvents_expiry hfind hr
  · intro i h
    exact strandEvents_noDivergence hfind i h
  · intro i hlife hreplay hdiv hlt hstage
    exact strandEvents_divergence hfind i hlife hreplay hdiv hlt hstage
  · intro q hq hrec hlong
    exact strandEvents_claimWait hfind hq hrec hlong

/-- Settles O48: each event of a core, of a strand and of a pool answers by its own lemma; what goes on around a strand that stops leaves it. -/
theorem strandEvents : Obligations.StrandEvents := ⟨strandEvents_core, strandEvents_strand, strandEvents_pool⟩

end Sys2Proof.Proofs
end
